-- ==== Sys2Proof/Word.lean ====
section
/-! DEFINITION. The word types of the TV8160 model. -/

namespace Sys2Proof

/-- One byte. -/
abbrev Byte := BitVec 8

/-- A 16-bit word: sequencer instruction words and status codes (R13, R51). -/
abbrev W16 := BitVec 16

/-- A 32-bit word: island registers (R61 and the register tables of every chapter). -/
abbrev W32 := BitVec 32

/-- A 64-bit word. -/
abbrev W64 := BitVec 64

/-- A byte string, lowest address (or first transmitted byte) first. -/
abbrev Bytes := List Byte

end Sys2Proof
end

