-- ==== Sys2Proof/Syntax.lean ====
section
/-! DEFINITION. The commands of the TV8160: one constructor for every row of the opcode table, with its operands. -/

namespace Sys2Proof

/-- The status codes of R13. -/
inductive Status where
  | ok | pending | badOpcode | badLength | paramRange | wrongState | busy | retry
  | authFail | keyOrphaned | keyExpired | useExhausted | nonceExhausted | tampered | lockedOut
  | policyDenied | faultMismatch | launchLate | synthNotReady | coexDenied | antennaFault
  | storeFull | storeProtected | storeTwin | tagBusy | imageInvalid | epochMismatch
  deriving DecidableEq, Repr

/-- The five islands that ISLAND encodes in a launch-table entry (R37). -/
inductive Island where
  | vert | azure | tenne | gules | purpure
  deriving DecidableEq, Repr

/-- The three sequence engines (R51). -/
inductive SeqId where
  | vert | azure | tenne
  deriving DecidableEq, Repr

/-- A position in the cab frame, in millimetres (R12). -/
structure Pos where
  x : Int
  y : Int
  z : Int
  deriving DecidableEq, Repr

/-- Verdict of a Weigh (R165), with the codes 0 to 4. -/
inductive WeighVerdict where
  | consistent | inconclusive | mismatch | relay | noFix
  deriving DecidableEq, Repr

/-- Stage work that the steward plans on a scheduler event (R38, R117, R140, R153, R164, R171).
The event number carries no meaning of its own; the stage and its token are the steward's plan. `off` is where the
plan's MOVE put the records in the Purpure staging window. DESIGN CHOICE, log 56. -/
inductive StageWork where
  /-- a hail round starts with command HAIL or HAIL_NEW (R102, R103): Vert entry of the frame, Tenné entry of the slots -/
  | planHail (hailNew : Bool) (frame reply : Fin 128)
  /-- a challenge to a token: its Tint triple, the Vert entry of the frame, and the Tenné entry of its reply window -/
  | planChallenge (ctx : Fin 160) (triple : Fin 16) (frame reply : Fin 128)
  /-- the slot records of a finished hail round are classed and the round judged (R116, R117) -/
  | hailRound (off : BitVec 12)
  /-- the reply window of a challenge to a token has closed (R116, R118): records, VERT_RES records of Tint A and B -/
  | replyWindow (ctx : Fin 160) (off : BitVec 12) (recA recB : Fin 16)
  /-- time of flight and validity of a token's exchange (R140, R141): status of its Azure firing, the 64 bytes of
  the timestamp buffer, transmit port, pairs of RESP and REPORT (none: chain B off) -/
  | range (ctx : Fin 160) (st : Status) (off : BitVec 12) (tx : Fin 6) (pairResp pairReport : Option (Fin 6))
  /-- Place (R153 to R155) -/
  | place (ctx : Fin 160)
  /-- Weigh (R164 to R168) -/
  | weigh (ctx : Fin 160)
  /-- roles among the weighed tokens (R171, R172) -/
  | roles
  /-- a scheduler event that plans no stage work of this list -/
  | other
  deriving DecidableEq, Repr
/-- The path of a failure list: passive (R176), HF (R212), credentials (R238). -/
inductive LockPath where
  | passive | hf | credential
  deriving DecidableEq, Repr

/-- The fields of a job submission (R266), TAG apart from OP, which the command names. -/
structure JobWords where
  tag : Fin 48
  hold : Bool
  prio : Bool
  slot : Byte
  slot2 : Byte
  dataLen : W16
  adLen : W16
  mode : Byte
  dst : BitVec 4
  area : BitVec 4
  src : Bool
  aux : W32
  deriving DecidableEq, Repr

/-- The operations of R269; the four of OP 0x10 stand apart by MODE. -/
inductive JobOp where
  | aeadSeal | aeadOpen | cmac | cmacVerify | kdf | nonce | aqmosAlias | aqmosVerify | stsDerive | hash
  | ecdsaSign | ecdsaVerify | ecdh | random | keyWrite | importKey | invalidate | tagLoad | verdict
  deriving DecidableEq, Repr

/-- The eight islands that take a clock from the controller (R16), Argent apart. -/
inductive ClockIsland where
  | celeste | purpure | gules | vert | azure | tenne | orr
  deriving DecidableEq, Repr

/-- The three PLLs. -/
inductive Pll where
  | c | l | u
  deriving DecidableEq, Repr

/-- Sources that R400 judges. -/
inductive ClockSource where
  | rc32 | xo | rc16 | rtcCrystal | hostCrystal
  deriving DecidableEq, Repr

/-- A power state that a command may ask for (R415, PWR_CTRL.GO). -/
inductive RestTarget where
  | chalk | umber | amber | jet
  deriving DecidableEq, Repr

/-- Methods of an Authenticate (R215). -/
inductive TagMethod where
  | tam1 | iam1 | mam1
  /-- TAM2, IAM2 or MAM2 -/
  | unsupported
  deriving DecidableEq, Repr

/-- The page write that a collapse of the tag's power interrupts (R225). -/
inductive TagTear where
  /-- none -/
  | nothing
  /-- a reader's Write of one word of user memory, its command received -/
  | reader (word : Fin 1024) (data : W16)
  /-- the steward's write that runs, or waits first -/
  | steward
  /-- the commit of the session counter after the session's first reply -/
  | counter
  deriving DecidableEq, Repr

/-- How far the steps of R224 had come (R225). -/
inductive TagPoint where
  | step1 | step2
  /-- in step 3, FLAG not yet 0xA5C3 -/
  | step3
  /-- step 3 complete, before or during step 4 -/
  | step3Done
  | step4Done
  deriving DecidableEq, Repr

/-- The register blocks of the field die that the steward writes (R58): Sable holds the clock, power, touch and tamper
registers. -/
inductive RegBlock where
  | celeste | vert | azure | tenne | gules | orr | sable
  deriving DecidableEq, Repr

/-- What a burst check or a sweep of an LF channel measures at S11 (R75, R76). -/
structure LfCheck where
  phErr : BitVec 8 := 0
  iMeas : BitVec 12 := 381
  f : Vector (BitVec 8) 8 := Vector.replicate 8 0
  k : Vector (BitVec 8) 3 := Vector.replicate 3 0
  i : BitVec 12 := 190
  ph : BitVec 8 := 0
  deriving DecidableEq, Repr

/-- What a LOOPBACK to a UWB port gives at S12 (R143, R144). -/
structure PortCheck where
  decoded : Bool := true
  amp : BitVec 8 := 0
  dly : BitVec 8 := 0
  deriving DecidableEq, Repr

/-- What the world outside decides in a start-up: how long S0 to S12 take, which sources come up, which attempts of a
step fail, what S11 and S12 measure. -/
structure StartOutcome where
  /-- S0: F_VBAT and the core supply are good -/
  supplyOk : Bool := true
  /-- ticks of the model's clock that the steps of this run take -/
  ticks : BitVec 32 := 0
  rc32Ok : Bool := true
  xoReady : Bool := true
  rc16Ready : Bool := true
  /-- the source oscillates outside its window -/
  xoOutside : Bool := false
  rc16Outside : Bool := false
  /-- S2 and S6: the TRNG passes its start-up health tests (R231, R283) -/
  trng2 : Bool := true
  trng6 : Bool := true
  /-- S5: attempts in which Or does not respond -/
  orFails : BitVec 2 := 0
  /-- S5: what is read with a correction (R296, R308): slots of ring 0 RING_CTR, 1 RING_SEC, 2 JOURNAL and 4 of the ledger by
  address, page copies as 2 × page + copy, 3 of the record store, 5 of the legacy window with page 256 its status page -/
  fixed : List (Fin 6 × BitVec 16) := []
  /-- S5: what is read with an uncorrectable group (R296), as `fixed` -/
  lost : List (Fin 6 × BitVec 16) := []
  /-- S6: engines whose known-answer test fails -/
  katA : Bool := false
  katB : Bool := false
  /-- S9: the image's steward reports alive within t_STEWARD -/
  alive : Bool := true
  /-- S10: attempts whose program read-back fails -/
  readbackFails : BitVec 2 := 0
  /-- S11: attempts that Vert cannot complete -/
  vertFails : BitVec 2 := 0
  lf : Vector LfCheck 12 := Vector.replicate 12 {}
  /-- S12: attempts that fail, each receive chain's deviation in units (none: no decode), what the LOOPBACK over each configured
  pair tells of its chain A and its chain B port -/
  uwbFails : BitVec 2 := 0
  chainA : Option Int := some 0
  chainB : Option Int := some 0
  pairs : Vector (PortCheck × PortCheck) 6 := Vector.replicate 6 ({}, {})
  /-- die temperature in °C -/
  temp : Int := 25
  /-- S15: the signing job of a checkpoint that falls due succeeds -/
  signOk : Bool := true
  deriving DecidableEq, Repr

/-- What a scrubber unit finds: nothing, a corrected group, or an uncorrectable one. In working SRAM the latter lies outside
the retained region or in one of its two copies. -/
inductive ScrubFind where
  | clean
  | corrected
  | uncorrectable (copy : Option Bool)
  deriving DecidableEq, Repr

/-- A command of the block: an operation on one of its registers or links, an event on a pin or line, or one step of
one of its own engines. What the world outside decides (a measurement, a received frame, an outcome) is an operand. DESIGN CHOICE, log 8. -/
inductive Instr where
  /-- ARM (R40): CEL_CMD ARM operation: checks an entry in order and arms it, disables it or refuses it. -/
  | arm (n : Fin 128)
  /-- CANCEL (R49): CEL_CMD CANCEL operation: cancels an armed, posted or running launch entry. -/
  | cancel (n : Fin 128)
  /-- CANCEL_STOP (R49): CEL_CMD CANCEL_STOP operation: cancels an entry and stops its running program at the next
  instruction boundary. -/
  | cancelStop (n : Fin 128)
  /-- CANCEL_ALL (R49): CEL_CMD CANCEL_ALL operation: applies CANCEL_STOP to all 128 entries. -/
  | cancelAll
  /-- LAUNCH_POST (R41): Celeste posts an armed entry to its island's launch port once its due tick is within t_POST, or once
  a port place frees. -/
  | launchPost (n : Fin 128)
  /-- LAUNCH_FIRE (R43): A posted entry reaches its compare point and fires, on time or late. -/
  | launchFire (island : Island)
  /-- SCHEDULER_EVENT (R38): The steward takes a posted scheduler event and runs the stage work it plans. -/
  | schedulerEvent (work : StageWork)
  /-- LAUNCH_COMPLETE (R46): An island reports a firing's completion; Celeste updates DONE_CNT, the log and STATE. -/
  | launchComplete
  /-- CEL_LOG_NEXT (R61): Write to CEL_LOG_NEXT discards the oldest unread launch log record. -/
  | celLogNext
  /-- CEL_TB_LO_READ (R61): Read of CEL_TB_LO latches the high timebase half into CEL_TB_HI. -/
  | celTbLoRead
  /-- LOG_LOST_READ (R7): Read of CEL_STATUS clears the delivered LOG_LOST bits. -/
  | logLostRead
  /-- SNAP_TRIGGER (R59): Write to SNAP_H_CTRL or its bank S counterpart sets T_S, or is ignored while BUSY. -/
  | snapTrigger (bankS : Bool) (groups : BitVec 7)
  /-- SNAPSHOT_CAPTURE (R59): Each named island captures its counter group at T_S. -/
  | snapshotCapture (bankS : Bool) (group : Fin 7)
  /-- HALT (R51): Sequencer HALT ends the program and returns drivers or radios to idle. -/
  | halt (e : SeqId)
  /-- NOP (R51): Sequencer NOP takes one instruction cycle with no effect. -/
  | nop (e : SeqId)
  /-- WAIT_TB (R51): Sequencer WAIT_TB waits for an absolute timebase point. -/
  | waitTb (e : SeqId) (off : BitVec 28)
  /-- WAIT_TB_RELEASE (R51): The timebase reaches a WAIT_TB point and execution resumes. -/
  | waitTbRelease (e : SeqId)
  /-- LOOP_START (R51): Sequencer LOOP_START opens a counted loop with a stride. -/
  | loopStart (e : SeqId) (n : Byte) (stride : W16) (x64 : Bool)
  /-- LOOP_END (R51): Sequencer LOOP_END ends the innermost loop body or repeats it. -/
  | loopEnd (e : SeqId)
  /-- VERT_SEL (R83): Vert SEL connects a channel to a slot or releases the slot. -/
  | vertSel (slot : Fin 3) (ch : Option (Fin 12))
  /-- SET_AMP (R85): Vert SET_AMP sets a slot's amplitude. -/
  | setAmp (slot : Fin 3) (amp : BitVec 6)
  /-- SET_PH (R85): Vert SET_PH sets a slot's phase. -/
  | setPh (slot : Fin 3) (ph : Byte)
  /-- SET_PH_BUF (R85): Vert SET_PH_BUF sets or offsets a slot's phase from the LF data buffer. -/
  | setPhBuf (slot : Fin 3) (add : Bool) (b : Fin 32)
  /-- SET_FREQ (R83): Vert SET_FREQ sets the NCO frequency, optionally with the channel's frequency trim. -/
  | setFreq (trim : Bool) (freq : W16)
  /-- DRIVE_ON (R85): Vert DRIVE_ON starts driving the masked slots at the next carrier boundary. -/
  | driveOn (mask : BitVec 3)
  /-- DRIVE_OFF (R85): Vert DRIVE_OFF stops the masked slots at the next current zero crossing. -/
  | driveOff (mask : BitVec 3)
  /-- SEND (R86): Vert SEND starts sending Manchester bits from the LF data buffer on the masked slots. -/
  | send (mask : BitVec 3) (n : Byte) (first : Byte)
  /-- SEND_COMPLETE (R86): A SEND ends N bit periods after its WAIT_TB tick with the slots idle. -/
  | sendComplete
  /-- MEASURE (R88): Vert MEASURE starts a non-blocking measurement window on the masked slots. -/
  | measure (mask : BitVec 3) (rcd : Fin 16) (periods : BitVec 4)
  /-- MEASURE_WINDOW_END (R88): A MEASURE window ends, fully or cut, and writes its VERT_RES record. -/
  | measureWindowEnd (rcd : Fin 16) (i0 : BitVec 12) (p0 : Byte) (i1 : BitVec 12) (p1 : Byte) (i2 : BitVec 12) (p2 : Byte)
  /-- LF_BURST_MEASURED (R72): The burst monitor measures a burst and the channel class is updated under R78. -/
  | lfBurstMeasured (c : Fin 12) (phErr : Byte) (iMeas : BitVec 12) (residual : Byte)
  /-- LF_OVERCURRENT_TRIP (R78): The 2.2 A comparator trips; the bridge turns off and the channel becomes SHORT. -/
  | lfOvercurrentTrip (c : Fin 12)
  /-- DUTY_CAPACITY_REACHED (R70): A duty account reaches capacity; the bridge stops, the program halts with BUSY and DUTY_HOLD is set. -/
  | dutyCapacityReached (c : Fin 12)
  /-- DUTY_HOLD_CLEAR (R70): Every duty account falls below 9,000 and DUTY_HOLD clears. -/
  | dutyHoldClear
  /-- LF_OVERTEMP (R71): A bridge sensor exceeds 165 °C; every bridge turns off and OVERTEMP is set. -/
  | lfOvertemp
  /-- LF_OVERTEMP_CLEAR (R71): All bridge sensors read below 145 °C and OVERTEMP clears. -/
  | lfOvertempClear
  /-- LF_TRACKING_STEP (R72): After a Vert HALT the tuner moves TRIM, CAP or PH_COMP one step toward zero error. -/
  | lfTrackingStep (c : Fin 12)
  /-- LF_SWEEP (R76): A requested channel sweep runs once its conditions hold and classifies the channel. -/
  | lfSweep (c : Fin 12) (f : Vector Byte 8) (k : Vector Byte 3) (cur : BitVec 12) (ph : Byte)
  /-- LF_SWEEP_SPACING_TIMER (R79): The 10-minute spacing for re-sweeping an out-of-service channel expires. -/
  | lfSweepSpacingTimer (c : Fin 12)
  /-- LF_POP_WRITE (R78): Write to LF_POP moves channels between UNPOPULATED and NORMAL. -/
  | lfPopWrite (v : W32)
  /-- TN_SYNTH (R121): Tenné SYNTH starts the synthesiser toward a channel-table entry. -/
  | tnSynth (n : Fin 8)
  /-- TN_WAIT_LOCK (R123): Tenné WAIT_LOCK waits for synthesiser lock. -/
  | tnWaitLock (t : Byte)
  /-- TN_WAIT_LOCK_TIMEOUT (R123): The WAIT_LOCK timeout expires; the program halts with SYNTH_NOT_READY. -/
  | tnWaitLockTimeout
  /-- TN_SYNTH_LOCK (R189): The UHF synthesiser reaches lock and a waiting WAIT_LOCK is released. -/
  | tnSynthLock
  /-- TN_LOCK_LOST (R123): UHF lock is lost while transmitting; the PA turns off and the program halts. -/
  | tnLockLost
  /-- TN_RX_ON (R121): Tenné RX_ON turns the receiver on at a profile. -/
  | tnRxOn (p : Fin 3)
  /-- TN_RX_OFF (R121): Tenné RX_OFF turns the receiver off. -/
  | tnRxOff
  /-- DCOC (R187): Tenné DCOC runs DC offset cancellation with the LNA isolated. -/
  | dcoc (n : BitVec 6)
  /-- TN_RX_FRAME (R123): Tenné RX_FRAME starts a search for PRE and SYNC of a frame format. -/
  | tnRxFrame (format : Fin 3) (idx : Bool) (r : Fin 8) (search : W16)
  /-- TN_RX_FRAME_END (R123): An RX_FRAME ends on a received frame or at search expiry and writes its record class. -/
  | tnRxFrameEnd (sync : Bool) (toneLevel : Byte) (toneTicks : W16) (at_ : W16) (medians : Bytes) (rssi : Byte) (weak : Byte) (payload : Bytes)
  /-- RSSI (R121): Tenné RSSI writes the median RSSI into a record's TAIL_RSSI. -/
  | rssi (n : BitVec 4) (idx : Bool) (r : Fin 8) (value : Byte)
  /-- TN_TX_ON (R123): Tenné TX_ON ramps the PA after 768 ticks of lock. -/
  | tnTxOn (p : Fin 3) (step : BitVec 6)
  /-- TN_TX_FRAME (R121): Tenné TX_FRAME sends the transmit buffer frame. -/
  | tnTxFrame
  /-- TN_TX_OFF (R121): Tenné TX_OFF ramps the PA down and turns the transmitter off. -/
  | tnTxOff
  /-- PRESS_TELEGRAM (R113): A received press telegram is checked by CRC, roster, MAC_K and counter, then acted on and
  acknowledged. -/
  | pressTelegram (off : BitVec 12)
  /-- RESYNC_CANDIDATE_EXPIRY (R113): A held resynchronisation candidate lapses 30 s after it was held. -/
  | resyncCandidateExpiry (ctx : Fin 160)
  /-- MAC_FAIL_BLOCK_EXPIRY (R113): The 60 s block on telegrams naming an ID after 10 MAC failures ends. -/
  | macFailBlockExpiry (ctx : Fin 160)
  /-- UTX_GO (R192): Write of TN_UTX_CTRL with GO = 1 queues an untimed transmit, or is refused with BUSY. -/
  | utxGo (v : W32)
  /-- UTX_START (R192): Once not-before, grant and idle radio all hold, Tenné synthesises and sends the untimed frame. -/
  | utxStart
  /-- UTX_DEADLINE (R192): The untimed transmit deadline passes before SYNTH; the transmit is abandoned. -/
  | utxDeadline
  /-- UTX_FRAME_END (R192): The untimed frame ends; the PA ramps down and the request is released. -/
  | utxFrameEnd
  /-- AMBER_SNIFF (R193): Every 250 ms in Amber, Sable runs a 1 ms UHF sniff for a press burst. -/
  | amberSniff (level : Byte) (ticks : W16) (tones : Bool)
  /-- SNIFF_SEARCH_END (R193): The post-hit SYNC search expires without a telegram and counts a false wake. -/
  | sniffSearchEnd
  /-- VCO_TEMP_CHECK (R189): The 1 s temperature check clears the band cache after a 20 °C move. -/
  | vcoTempCheck (temp : Int)
  /-- COEX_GNT_CHANGE (R197): An edge on H_COEXn_GNT is forwarded to the field side. -/
  | coexGntChange (pair : Fin 2) (level : Bool)
  /-- AZ_PHY (R146): Azure PHY loads a profile entry and starts PLL_U. -/
  | azPhy (n : Fin 8)
  /-- AZ_WAIT_LOCK (R148): Azure WAIT_LOCK waits for PLL_U lock, halting with SYNTH_NOT_READY at timeout. -/
  | azWaitLock (t : Byte) (expired : Bool)
  /-- AZ_LOCK_LOST (R148): PLL_U loses lock; the transmitter turns off and the program halts. -/
  | azLockLost
  /-- AZ_RX_ON (R146): Azure RX_ON turns the receive chains on at two ports. -/
  | azRxOn (a : Fin 6) (b : Option (Fin 6))
  /-- AZ_RX_OFF (R146): Azure RX_OFF turns the receivers off. -/
  | azRxOff
  /-- AZ_TX_ON (R148): Azure TX_ON enables the transmitter on a port after lock has held. -/
  | azTxOn (p : Fin 6) (back : BitVec 6)
  /-- AZ_TX_OFF (R146): Azure TX_OFF turns the transmitter off. -/
  | azTxOff
  /-- AZ_TX_FRAME (R146): Azure TX_FRAME sends a POLL or FINAL with its RMARKER at a fixed lead. -/
  | azTxFrame (final : Bool) (r : Fin 4) (lead : W16)
  /-- AZ_RX_FRAME (R146): Azure RX_FRAME searches for a RESP or REPORT. -/
  | azRxFrame (report : Bool) (r : Fin 4) (search : W16)
  /-- AZ_RX_FRAME_END (R149): A RESP or REPORT is received or the search expires, and a timestamp record is written. -/
  | azRxFrameEnd (received : Bool) (firstPath : Bool) (phrOk : Bool) (nlos : Bool) (delay : W16) (frac : BitVec 11) (stsq : Byte) (rssi : Byte) (pdoa : W16) (cfo : W16) (payload : Bytes)
  /-- AZ_LOOPBACK (R146): Azure LOOPBACK sends a calibration frame from one port to another. -/
  | azLoopback (p : Fin 6) (q : Fin 6) (r : Fin 4)
  /-- AZ_LOOPBACK_END (R144): A LOOPBACK ends, or is cut, and the port class is updated. -/
  | azLoopbackEnd (decoded : Bool) (nlos : Bool) (delay : W16) (frac : BitVec 11) (stsq : Byte) (rssi : Byte) (cfo : W16) (amp : Byte) (dly : Byte)
  /-- AZ_VSWR_TRIP (R144): The reflected-power detector trips; the port becomes FAULT and the program halts. -/
  | azVswrTrip (p : Fin 6)
  /-- STS_KEY_EXPIRE (R137): t_KEYLIFE after a load, Azure zeroises the STS key port. -/
  | stsKeyExpire
  /-- AZ_KEY_CLR (R137): Write of AZ_KEY_CTRL.CLR zeroises the STS key port. -/
  | azKeyClr
  /-- STS_ORPHAN_SIGNAL (R138): Gules signals Azure that a loaded key's parent is invalid; ORPHAN_PEND is set or the port zeroised
  at once. -/
  | stsOrphanSignal
  /-- TRACKING_TIMER (R169): A tracked token's 5 s or 20 s re-challenge falls due. -/
  | trackingTimer
  /-- START_PATH_RETRY (R478): Every 2 s a pending start request repeats the start path steps. -/
  | startPathRetry
  /-- START_REQUEST_EXPIRY (R213): A start request pending 15 s without an eligible token ends with POLICY_DENIED. -/
  | startRequestExpiry
  /-- ENTRY_SESSION_TIMEOUT (R174): The T_ENTRY timer expires and the entry session ends with reason TIMEOUT. -/
  | entrySessionTimeout
  /-- START_SESSION_TIMEOUT (R175): The 15 s start-session timer expires; the permit stops with reason TIMEOUT. -/
  | startSessionTimeout
  /-- FAILURE_AGE_OUT (R176): A listed failure older than 120 s leaves the failure list. -/
  | failureAgeOut (path : LockPath)
  /-- LOCKOUT_EXPIRY (R177): A lock-out end time passes; the stored end is zeroed and EVT_LOCKOUT posted. -/
  | lockoutExpiry (path : LockPath)
  /-- RELAY_IGNORE_EXPIRY (R167): The 30 s ignore of a relayed token's passive path ends. -/
  | relayIgnoreExpiry (ctx : Fin 160)
  /-- GQ_JOB_DISPATCH (R267): A ready job starts on a free engine, or on both in Deep. -/
  | gqJobDispatch
  /-- GQ_JOB_COMPLETE (R267): A Gules job completes with its status and output, and the steward acts on it. -/
  | gqJobComplete (tag : Fin 48) (mismatch : Bool)
  /-- AEAD_SEAL (R273): Job AEAD_SEAL encrypts under GCM or CCM with a Gules-generated nonce. -/
  | aeadSeal (w : JobWords)
  /-- AEAD_OPEN (R274): Job AEAD_OPEN decrypts and releases plaintext only after the tag verifies. -/
  | aeadOpen (w : JobWords)
  /-- CMAC (R269): Job CMAC computes a 16-byte MAC. -/
  | cmac (w : JobWords)
  /-- CMAC_VERIFY (R269): Job CMAC_VERIFY checks a truncated MAC. -/
  | cmacVerify (w : JobWords)
  /-- KDF (R233): Job KDF derives a key into a target slot. -/
  | kdf (w : JobWords)
  /-- NONCE (R269): Job NONCE draws N_C or N_H and Tint offsets from the TRNG. -/
  | nonce (w : JobWords)
  /-- AQMOS_ALIAS (R101): Job AQMOS_ALIAS computes a token's SLOT and ALIAS for a hail. -/
  | aqmosAlias (w : JobWords)
  /-- AQMOS_VERIFY (R270): Job AQMOS_VERIFY checks a Prove, REPORT, press or HF MAC and writes a proof record. -/
  | aqmosVerify (w : JobWords)
  /-- STS_DERIVE (R135): Job STS_DERIVE derives the session STS key as key-class output. -/
  | stsDerive (w : JobWords)
  /-- HASH (R269): Job HASH computes a SHA-256 or SHA-384 digest. -/
  | hash (w : JobWords)
  /-- ECDSA_SIGN (R280): Job ECDSA_SIGN signs a message, self-verifying in Deep. -/
  | ecdsaSign (w : JobWords)
  /-- ECDSA_VERIFY (R282): Job ECDSA_VERIFY checks a signature. -/
  | ecdsaVerify (w : JobWords)
  /-- ECDH (R280): Job ECDH computes a shared point into a session slot. -/
  | ecdh (w : JobWords)
  /-- RANDOM (R269): Job RANDOM returns TRNG bytes. -/
  | random (w : JobWords)
  /-- KEY_WRITE (R247): Job KEY_WRITE performs a privileged clear write of a key. -/
  | keyWrite (privileged : Bool) (w : JobWords)
  /-- IMPORT (R246): Job IMPORT processes a wrapped import blob into a slot. -/
  | importBlob (w : JobWords)
  /-- INVALIDATE (R251): Job INVALIDATE raises a slot's GEN, empties it and orphans its descendants. -/
  | invalidate (w : JobWords)
  /-- ORPHAN_ZEROISE (R251): An orphaned slot is zeroised and its NV record erased once no running job uses it. -/
  | orphanZeroise
  /-- TAG_LOAD (R248): Job TAG_LOAD copies K_RID and the tag keys into TAG_KEY and invalidates their slots. -/
  | tagLoad (privileged : Bool) (w : JobWords)
  /-- VERDICT (R271): Job VERDICT checks proofs and latches a grant. -/
  | verdict (w : JobWords)
  /-- PROOF_RECORD_EXPIRE (R270): A proof record lapses 384,000 ticks after its verification. -/
  | proofRecordExpire (ctx : Fin 160)
  /-- GQ_FREE (R292): Write to GQ_FREE frees a job tag. -/
  | gqFree (tag : BitVec 6)
  /-- GQ_CANCEL (R292): Write to GQ_CANCEL completes a held unreleased job with RETRY. -/
  | gqCancel (tag : BitVec 6)
  /-- GQ_DONE_READ (R292): Read of GQ_DONE delivers and removes the oldest completion record. -/
  | gqDoneRead
  /-- MISMATCH_KAT (R281): After a FAULT_MISMATCH, known-answer tests run on both AES engines. -/
  | mismatchKat (failA : Bool) (failB : Bool)
  /-- KNOWN_ANSWER_TEST (R480): Every 60 s in Chalk the AES engines run known-answer tests. -/
  | knownAnswerTest (failA : Bool) (failB : Bool)
  /-- REMASK_PASS (R254): Every 5 s Gules re-masks each valid slot. -/
  | remaskPass
  /-- TRNG_HEALTH_FAIL (R283): A TRNG health test fails; output is discarded and the source restarts. -/
  | trngHealthFail
  /-- TRNG_RESTART_DONE (R283): A TRNG restart completes or fails, after three failures taking the TRNG out of service. -/
  | trngRestartDone (ok : Bool)
  /-- DRBG_RESEED (R283): The DRBG reseeds after 65,536 requests or 1 s. -/
  | drbgReseed
  /-- TAMPER_ALARM (R260): A tamper source trips; the device zeroises and acts by power state. -/
  | tamperAlarm (src : BitVec 6) (o : StartOutcome)
  /-- TAMPER_CLASS_E_RECOVERY (R260): After live sources read 0 for 100 ms, Gules re-runs the S6 unmask. -/
  | tamperClassERecovery
  /-- PROVISION (R237): Credential action PROVISION moves Blank to Provisioned. -/
  | provision
  /-- FIELD (R237): Credential action FIELD moves Provisioned to Fielded. -/
  | field
  /-- ENTER_SERVICING (R237): Credential action ENTER_SERVICING moves Fielded to Servicing. -/
  | enterServicing
  /-- TAMPER_ACK (R261): Credential action TAMPER_ACK clears service-lock and resumes start-up. -/
  | tamperAck (live : BitVec 6) (o : StartOutcome)
  /-- LOCKOUT_END (R178): Credential action LOCKOUT_END ends the named lock-outs early. -/
  | lockoutEnd
  /-- RETIRE (R240): Credential action RETIRE blows LC_RETIRE and destroys the roots and keys. -/
  | retire
  /-- DEBUG_OPEN (R236): Credential action DEBUG_OPEN opens a debug session under the Debug root. -/
  | debugOpen
  /-- KEY_LOAD (R239): Credential action KEY_LOAD loads an authority public key into slot 173 or 174. -/
  | keyLoad
  /-- SERVICING_END_TIME (R237): The RTC passes the Servicing record's end time and the device returns to Fielded. -/
  | servicingEndTime
  /-- CHALLENGE_EXPIRY (R238): An issued credential challenge expires 10 minutes after issue. -/
  | challengeExpiry
  /-- CREDENTIAL_LOCKOUT_EXPIRY (R238): The 10-minute credential lock-out ends. -/
  | credentialLockoutExpiry
  /-- LAZY_COMMIT (R302): A dirty page is committed within t_LAZY of its first change. -/
  | lazyCommit (p : Fin 256) (bad : Bool)
  /-- OLD_COPY_ERASE (R300): Or erases the old copy of a committed page in the background. -/
  | oldCopyErase (p : Fin 256)
  /-- RING_RECLAIM (R307): With fewer than two erased ring pages, Or copies live records and erases the oldest page. -/
  | ringReclaim (ring : Fin 3)
  /-- LEDGER_APPEND (R329): The entry at the queue head receives its INDEX and is appended to the ledger. -/
  | ledgerAppend (signOk : Bool)
  /-- CHECKPOINT_SIGN_TIMEOUT (R328): A checkpoint signature not produced within 1 s is written UNSIGNED. -/
  | checkpointSignTimeout
  /-- LEDGER_SECTOR_ERASE (R329): Or erases the sector ahead of the write point and re-evaluates LEDGER_HIGH. -/
  | ledgerSectorErase
  /-- OR_LEDGER_ACK_WRITE (R329): Write to OR_LEDGER_ACK advances the export mark and re-evaluates LEDGER_HIGH. -/
  | orLedgerAckWrite (v : W32)
  /-- SCRUB_UNIT (R444): Every 10 ms a scrubber unit reads a memory's groups and corrects or re-commits. -/
  | scrubUnit (m : Fin 5) (group : Fin 64) (find : ScrubFind)
  /-- LW_WRITE_CYCLE_END (R321): A legacy write cycle commits its page and ends, clearing WIP and WEL. -/
  | lwWriteCycleEnd
  /-- PASSWORD_IDLE_EXPIRY (R317): A partition right lapses after 10 minutes without access. -/
  | passwordIdleExpiry (part : Fin 8)
  /-- PASSWORD_BLOCK_EXPIRY (R317): The 60 s password block of a partition ends. -/
  | passwordBlockExpiry (part : Fin 8)
  /-- NATIVE_PARTITION_ERASE (R316): Or erases a deleted partition's pages in the background. -/
  | nativePartitionErase
  /-- TAG_SESSION_START (R217): Tag power-up or field return starts a session and computes a fresh RID. -/
  | tagSessionStart
  /-- TAG_SELECT (R215): Gen2 Select command to the yard tag. -/
  | tagSelect (target : BitVec 3) (action : BitVec 3) (bank : BitVec 2) (pointer : W16) (mask : List Bool) (truncate : Bool)
  /-- TAG_QUERY (R215): Gen2 Query command to the yard tag. -/
  | tagQuery (dr : Bool) (miller : BitVec 2) (trext : Bool) (sel : BitVec 2) (session : Fin 4) (target : Bool) (q : BitVec 4)
  /-- TAG_QUERY_ADJUST (R215): Gen2 QueryAdjust command to the yard tag. -/
  | tagQueryAdjust (session : Fin 4) (upDn : BitVec 3)
  /-- TAG_QUERY_REP (R215): Gen2 QueryRep command to the yard tag. -/
  | tagQueryRep (session : Fin 4)
  /-- TAG_ACK (R215): Gen2 ACK command to the yard tag. -/
  | tagAck (rn : W16)
  /-- TAG_NAK (R215): Gen2 NAK command to the yard tag. -/
  | tagNak
  /-- TAG_REQ_RN (R215): Gen2 Req_RN command to the yard tag. -/
  | tagReqRn (rn : W16)
  /-- TAG_READ (R218): Gen2 Read of tag memory under the access rules. -/
  | tagRead (handle : W16) (bank : BitVec 2) (word : W16) (count : Byte) (sent : Bool)
  /-- TAG_WRITE (R224): Gen2 Write of one word through the anti-tearing steps. -/
  | tagWrite (handle : W16) (bank : BitVec 2) (word : W16) (data : W16) (energy : Bool) (bad : Bool) (sent : Bool)
  /-- TAG_LOCK (R221): Gen2 Lock of the User-bank write permission in the secured state. -/
  | tagLock (handle : W16) (mask : BitVec 10) (action : BitVec 10)
  /-- TAG_AUTHENTICATE (R219): Gen2 Authenticate with TAM1, IAM1 or MAM1. -/
  | tagAuthenticate (handle : W16) (method : TagMethod) (keyId : Byte) (ok : Bool)
  /-- TAG_UNTRACEABLE (R221): Gen2 Untraceable sets which TID and PUBLIC parts are hidden. -/
  | tagUntraceable (handle : W16) (tid : BitVec 2) (user : Bool)
  /-- TAG_KILL (R215): Gen2 Kill, answered as for a zero kill password. -/
  | tagKill (handle : W16)
  /-- TAG_UNSUPPORTED_COMMAND (R215): A Gen2 command outside the supported set. -/
  | tagUnsupportedCommand
  /-- TAG_WAIT_TIMEOUT (R226): A steward tag access waits 25 ms without progress and ends with TAG_BUSY. -/
  | tagWaitTimeout
  /-- HF_FIELD_ON (R228): HF_CTRL FIELD_ON turns the HF field on. -/
  | hfFieldOn
  /-- HF_FIELD_OFF (R228): HF_CTRL FIELD_OFF turns the HF field off. -/
  | hfFieldOff
  /-- HF_GO (R228): HF_CTRL GO sends HF_TXBUF and receives into HF_RXBUF. -/
  | hfGo (rate : BitVec 2)
  /-- HF_GO_DONE (R228): An HF frame exchange completes with its reply result and FDT. -/
  | hfGoDone (result : BitVec 2) (data : Bytes) (valid : BitVec 6) (fdt : W16)
  /-- HF_LPCD_START (R205): HF_CTRL LPCD_START starts card detection and learns a baseline. -/
  | hfLpcdStart
  /-- HF_LPCD_STOP (R228): HF_CTRL LPCD_STOP stops card detection. -/
  | hfLpcdStop
  /-- HF_PING (R205): Every t_PINGPER the reader pings the loop and detects a card or updates the baseline. -/
  | hfPing (amp : W16) (ph : W16)
  /-- HF_GUARD_EXPIRY (R207): t_GUARD after a detection the reader sends REQA. -/
  | hfGuardExpiry
  /-- HF_FIELD_TIMEOUT (R207): 50 ms after detection the field is turned off. -/
  | hfFieldTimeout
  /-- HF_LINGER_EXPIRY (R206): T_HF_LINGER ends and detection stops. -/
  | hfLingerExpiry
  /-- VERDICT_ENTRY (R180): Argent receives a VERDICT_ENTRY frame, gates it and answers RESULT. -/
  | verdictEntry
  /-- VERDICT_START (R180): Argent receives a VERDICT_START frame, gates it and starts the permit waveform or refuses. -/
  | verdictStart
  /-- VSTATE (R351): The field die receives a VSTATE frame of vehicle state. -/
  | vstate
  /-- RESULT (R354): The field die receives Argent's RESULT and opens the session and logs, or handles refusal. -/
  | result
  /-- HEARTBEAT (R351): A HEARTBEAT frame arrives from the other die. -/
  | heartbeat (toHost : Bool)
  /-- EPOCH (R352): An EPOCH frame half arrives and the pair is decided. -/
  | epoch (toHost : Bool)
  /-- CREDIT (R345): A CREDIT frame returns bulk credits. -/
  | credit (toHost : Bool)
  /-- COEX_REQ_FRAME (R196): Argent receives a COEX frame and drives REQ and PRI pins. -/
  | coexReqFrame
  /-- COEX_GNT_FRAME (R197): The field side receives a COEX frame with GNT states. -/
  | coexGntFrame
  /-- PERMIT_STOP (R175): CONTROL PERMIT_STOP makes Argent enter the not-permitted pattern. -/
  | permitStop
  /-- PERMIT_ENDED (R355): CONTROL PERMIT_ENDED tells the field die the waveform stopped and why. -/
  | permitEnded
  /-- SLEEP (R350): CONTROL SLEEP, once acknowledged, takes the link DOWN. -/
  | sleep (byHost : Bool)
  /-- RETRAIN (R350): CONTROL RETRAIN takes the link to TRAINING with epochs kept. -/
  | retrain
  /-- ACK (R343): An ACK frame acknowledges priority or bulk frames. -/
  | ack (toHost : Bool) (payload : BitVec 17)
  /-- NAK (R343): A NAK triggers retransmission, or signals epoch mismatch. -/
  | nak (toHost : Bool) (payload : BitVec 17)
  /-- BULK_WRITE (R342): A bulk WRITE frame delivers data to the receiver's address space. -/
  | bulkWrite (toHost : Bool)
  /-- BULK_READ (R342): A bulk READ frame requests field data for the bridge. -/
  | bulkRead
  /-- BULK_COMPLETION (R348): A COMPLETION frame delivers read data to Argent. -/
  | bulkCompletion
  /-- RCD_RESOLVE (R348): An RCD_RESOLVE frame clears the delivered bytes of a field RCD register. -/
  | rcdResolve
  /-- ACK_TIMEOUT (R343): No ACK within t_ACKTO; the sender retransmits, retraining after four copies. -/
  | ackTimeout (toHost : Bool) (bulk : Bool)
  /-- HEARTBEAT_PERIOD (R351): Every t_HBPER each side sends a HEARTBEAT. -/
  | heartbeatPeriod (host : Bool)
  /-- HEARTBEAT_LOSS (R355): No valid heartbeat for t_HBLOSS declares FIELD_SILENT or HOST_SILENT. -/
  | heartbeatLoss (host : Bool)
  /-- ALIVE_STALL (R355): Field ALIVE unchanged for t_ALIVE declares STEWARD_STALL. -/
  | aliveStall
  /-- EPOCH_PAIR_TIMER (R352): While UNSYNCED each side re-sends its epoch pair every 100 µs. -/
  | epochPairTimer (host : Bool)
  /-- LANES_ALIGNED (R350): All four lanes align and the link comes UP. -/
  | lanesAligned
  /-- LANE_ALIGNMENT_LOSS (R350): Lane alignment is lost and the link retrains. -/
  | laneAlignmentLoss
  /-- LINK_TRAIN_TIMEOUT (R350): Training exceeds t_LINKUP; the link is DOWN and retried every 1 ms. -/
  | linkTrainTimeout
  /-- LINK_TRAIN_START (R350): S13, entry into Chalk or Argent leaving reset starts link training. -/
  | linkTrainStart
  /-- H_WAKE_PULSE (R349): Every 10 ms the field die pulses H_WAKE until the link is up, giving up after 100 ms. -/
  | hWakePulse
  /-- PERMIT_BACKSTOP_TIMEOUT (R355): 15 s after an accepted start without PERMIT_STOP, Argent stops the permit. -/
  | permitBackstopTimeout
  /-- RCD_RESOLVE_DEADLINE (R348): No RCD_RESOLVE within t_RESOLVE; nothing is cleared. -/
  | rcdResolveDeadline
  /-- ENTRY_VERDICT_DISCARD (R354): A held entry verdict is discarded after 2 s without SYNCED. -/
  | entryVerdictDiscard
  /-- SPI_READ (R360): CS0 READ reads Argent registers from an address upwards. -/
  | spiRead (addr : W16) (n : BitVec 13)
  /-- SPI_WRITE (R481): CS0 WRITE assembles and writes Argent registers. -/
  | spiWrite (addr : W16) (data : Bytes)
  /-- REGISTER_WRITE (R6): A write to a register with no row of its own applies its access codes. -/
  | registerWrite (block : RegBlock) (off : W16) (v : W32)
  /-- BREAD (R362): CS0 BREAD posts a bridge read or collects its completion. -/
  | bread (addr : BitVec 24) (count : Byte) (clocked : Byte)
  /-- BREAD_COMPLETION_DISCARD (R362): An uncollected bridge completion is discarded after t_RESOLVE. -/
  | breadCompletionDiscard
  /-- BWRITE (R365): CS0 BWRITE posts a write to SNAP_H_CTRL or OR_LEDGER_ACK. -/
  | bwrite (addr : BitVec 24) (data : Bytes)
  /-- CS_CONFLICT (R359): Both chip selects low; Argent ignores both transactions. -/
  | csConflict
  /-- WREN (R320): Legacy WREN sets WEL. -/
  | wren
  /-- WRDI (R320): Legacy WRDI clears WEL. -/
  | wrdi
  /-- RDSR (R366): Legacy RDSR shifts out the status register. -/
  | rdsr
  /-- WRSR (R321): Legacy WRSR writes BP through a write cycle. -/
  | wrsr (v : Byte)
  /-- LEGACY_READ (R319): Legacy READ reads the window, wrapping at its end. -/
  | legacyRead (addr : W16) (n : BitVec 14)
  /-- LEGACY_WRITE (R319): Legacy WRITE starts a page write cycle when CS rises. -/
  | legacyWrite (addr : W16) (data : Bytes)
  /-- MB_DOORBELL (R368): Write to MB_DOORBELL forwards MB_STAGE as a command or is refused. -/
  | mbDoorbell (v : W32)
  /-- RXQ_POP (R369): Write to RXQ_POP releases the oldest visible record and returns credits. -/
  | rxqPop
  /-- WAKE_REQ (R370): Write of HST_CTRL.WAKE_REQ pulses the host wake crossing. -/
  | wakeReq
  /-- HOST_WAKE_CROSSING (R420): A host wake request reaches Sable and wakes the field die. -/
  | hostWakeCrossing (o : StartOutcome)
  /-- VS_REPORT (R372): Write to VS_REPORT is checked and may change VSTATE and VALID. -/
  | vsReport (v : W32)
  /-- VS_ODO (R372): Write to VS_ODO forwards the odometer to the field die. -/
  | vsOdo (v : W32)
  /-- VS_CFG_WRITE (R372): Write to VS_CFG; a changed SRC drops VALID at once. -/
  | vsCfgWrite (v : W32)
  /-- VS_CFG_LOCK (R370): Writing VS_CFG.LOCK locks the vehicle-state configuration until host reset. -/
  | vsCfgLock
  /-- VS_TIMEOUT (R372): No accepted report for TIMEOUT or ENG_TIMEOUT; VALID falls or the run is forgotten. -/
  | vsTimeout
  /-- READBACK_FAULT_CLEAR (R375): Writing 1 to PMT_STATUS.READBACK_FAULT clears it only after 200 correct samples. -/
  | readbackFaultClear
  /-- READBACK_FAULT (R375): Two consecutive wrong H_PERMIT_FB samples latch READBACK_FAULT and stop the permit. -/
  | readbackFault
  /-- DOOR_DEBOUNCED_CHANGE (R373): A door input holds a new level for 8 samples; VSTATE is sent. -/
  | doorDebouncedChange (d : Fin 4) (high : Bool)
  /-- CAN_ERRLAT_READ (R364): Read of CAN_ERRLAT clears the delivered error bits. -/
  | canErrlatRead (n : BitVec 3)
  /-- BR_ANOM_READ (R364): Bridge read of BR_ANOM clears the delivered anomaly bits on resolve. -/
  | brAnomRead (n : BitVec 3)
  /-- ENGINE_STATUS (R377): An ENGINE_STATUS frame arrives and feeds vehicle state under R372. -/
  | engineStatus (data : Vector Byte 8)
  /-- IMMO_STATUS_PERIOD (R377): Every 20 ms, or on change, Argent sends IMMO_STATUS. -/
  | immoStatusPeriod (onChange : Bool)
  /-- J1939_REQUEST (R378): A ledger export request frame is forwarded or refused. -/
  | j1939Request (data : Vector Byte 8)
  /-- J1939_CANX_TIMEOUT (R378): No CANX record within 250 ms; the request is refused. -/
  | j1939CanxTimeout
  /-- BAM_PACKET (R378): Every 50 ms in BAM the next TP.DT packet is sent. -/
  | bamPacket
  /-- J1939_CTS (R378): A connection-mode CTS from the requester releases data packets. -/
  | j1939Cts (n : Byte) (next : Byte)
  /-- CAN_BUS_OFF (R376): The CAN controller enters bus-off and recovers per the standard. -/
  | canBusOff (entered : Bool) (tec : Byte) (rcnt : Byte)
  /-- SYS_INFO (R383): Command SYS_INFO returns device identity and state. -/
  | sysInfo
  /-- SYS_ECHO (R383): Command SYS_ECHO returns its payload. -/
  | sysEcho
  /-- SYS_TIME_GET (R326): Command SYS_TIME_GET returns RTC time and TQ. -/
  | sysTimeGet
  /-- SYS_TIME_SET (R326): Command SYS_TIME_SET sets the RTC and logs TIME_SET. -/
  | sysTimeSet
  /-- SYS_RESTART_STEWARD (R453): Command SYS_RESTART KIND 0 restarts the steward with session retention. -/
  | sysRestartSteward
  /-- SYS_RESTART_DEVICE (R388): Command SYS_RESTART KIND 1 resets the device through Jet. -/
  | sysRestartDevice
  /-- SYS_POWER (R415): Command SYS_POWER sets the resting state and enters Umber, Amber or Jet. -/
  | sysPower
  /-- SYS_EVT_MASK (R387): Command SYS_EVT_MASK sets which events are posted. -/
  | sysEvtMask
  /-- PRES_PROFILE (R24): Command PRES_PROFILE sets the assurance and ranging profiles from the next Wake. -/
  | presProfile
  /-- PRES_WAKE (R29): Command PRES_WAKE starts an approach as for touched handles. -/
  | presWake
  /-- PRES_START (R478): Command PRES_START requests a start, returning PENDING or a refusal. -/
  | presStart
  /-- PRES_DOOR (R174): Command PRES_DOOR reports a door state and may end an entry session. -/
  | presDoor
  /-- PRES_TRACKED (R383): Command PRES_TRACKED returns the tracked placements. -/
  | presTracked
  /-- ROSTER_MODE (R257): Command ROSTER_MODE changes roster mode and destroys every context. -/
  | rosterMode
  /-- ROSTER_ADD (R255): Command ROSTER_ADD imports a Keyring token key. -/
  | rosterAdd
  /-- ROSTER_ADD_HF (R255): Command ROSTER_ADD_HF imports a Keyring HF key. -/
  | rosterAddHf
  /-- ROSTER_REVOKE (R255): Command ROSTER_REVOKE invalidates a Keyring context. -/
  | rosterRevoke
  /-- ROSTER_LOAD (R256): Command ROSTER_LOAD loads a verified Depot batch. -/
  | rosterLoad
  /-- ROSTER_LIST (R383): Command ROSTER_LIST returns context states. -/
  | rosterList
  /-- KEY_IMPORT (R246): Command KEY_IMPORT imports a tag key blob in Provisioned. -/
  | keyImport
  /-- KEY_TAG_LOAD (R248): Command KEY_TAG_LOAD loads the tag keys. -/
  | keyTagLoad
  /-- KEY_IMPORT_PUB (R383): Command KEY_IMPORT_PUB returns the signed K_IMP public key. -/
  | keyImportPub
  /-- KEY_ATTR (R243): Command KEY_ATTR returns a slot's attribute words. -/
  | keyAttr
  /-- KEY_ATTEST (R285): Command KEY_ATTEST returns the attestation statement. -/
  | keyAttest
  /-- KEY_ENDORSE (R287): Command KEY_ENDORSE returns the identity endorsement. -/
  | keyEndorse
  /-- ST_CREATE (R316): Command ST_CREATE creates a native partition. -/
  | stCreate
  /-- ST_DELETE (R316): Command ST_DELETE deletes a native partition. -/
  | stDelete
  /-- ST_OPEN (R317): Command ST_OPEN grants a read or write right by password. -/
  | stOpen
  /-- ST_CLOSE (R317): Command ST_CLOSE ends a partition's rights. -/
  | stClose
  /-- ST_READ (R318): Command ST_READ returns committed partition content. -/
  | stRead
  /-- ST_WRITE (R318): Command ST_WRITE buffers partition data. -/
  | stWrite
  /-- ST_COMMIT (R318): Command ST_COMMIT stores the write buffer in one transaction. -/
  | stCommit (bad : Bool)
  /-- ST_DISCARD (R318): Command ST_DISCARD empties the write buffer. -/
  | stDiscard
  /-- ST_PASSWORD (R317): Command ST_PASSWORD changes a partition password. -/
  | stPassword
  /-- LW_READ (R323): Command LW_READ reads the legacy window. -/
  | lwRead
  /-- LW_WRITE (R323): Command LW_WRITE writes one legacy page as a write cycle. -/
  | lwWrite
  /-- LEDGER_READ (R331): Command LEDGER_READ exports ledger entries in a BULK frame. -/
  | ledgerRead
  /-- LEDGER_ACK (R329): Command LEDGER_ACK advances OR_LEDGER_ACK. -/
  | ledgerAck
  /-- LEDGER_STATUS (R383): Command LEDGER_STATUS returns ledger indices and flags. -/
  | ledgerStatus
  /-- RADIO_HF_LINGER (R206): Command RADIO_HF_LINGER starts or restarts the HF linger. -/
  | radioHfLinger
  /-- RADIO_TAG_READ (R226): Command RADIO_TAG_READ reads tag user memory. -/
  | radioTagRead
  /-- RADIO_TAG_WRITE (R226): Command RADIO_TAG_WRITE writes PUBLIC or WORKSPACE. -/
  | radioTagWrite (read : Bool) (bad : Bool)
  /-- RADIO_COEX (R383): Command RADIO_COEX returns coexistence pair states. -/
  | radioCoex
  /-- STAGE_OPEN (R390): Command STAGE_OPEN zeroes and opens a staging area. -/
  | stageOpen
  /-- STAGE_WRITE (R391): Command STAGE_WRITE passes sealed-transfer bytes to Gules. -/
  | stageWrite
  /-- STAGE_VERIFY (R391): Command STAGE_VERIFY checks a sealed transfer and its content. -/
  | stageVerify
  /-- STAGE_ABORT (R391): Command STAGE_ABORT zeroes a staging area. -/
  | stageAbort
  /-- CFG_LOAD (R393): Command CFG_LOAD writes and loads a verified bundle. -/
  | cfgLoad (temp : Int)
  /-- UPD_ACTIVATE_NOW (R440): Command UPD_ACTIVATE WHEN 0 sets the trial slot and cold-starts at once. -/
  | updActivateNow
  /-- UPD_ACTIVATE_DEFERRED (R440): Command UPD_ACTIVATE WHEN 1 defers activation to the next entry into a rest state. -/
  | updActivateDeferred
  /-- UPD_CONFIRM (R440): Command UPD_CONFIRM makes the trial image active. -/
  | updConfirm
  /-- UPD_STATUS (R383): Command UPD_STATUS returns image slot states. -/
  | updStatus
  /-- LC_CHALLENGE (R238): Command LC_CHALLENGE issues a fresh 16-byte challenge. -/
  | lcChallenge
  /-- LC_SERVICE_EXIT (R237): Command LC_SERVICE_EXIT returns Servicing to Fielded. -/
  | lcServiceExit
  /-- LC_STATUS (R383): Command LC_STATUS returns life-cycle, tamper and lock-out state. -/
  | lcStatus
  /-- DIAG_LF_SWEEP (R79): Command DIAG_LF_SWEEP sweeps masked LF channels. -/
  | diagLfSweep
  /-- DIAG_UWB_TEST (R144): Command DIAG_UWB_TEST tests masked UWB ports. -/
  | diagUwbTest
  /-- DIAG_JOURNAL (R435): Command DIAG_JOURNAL exports boot journal records. -/
  | diagJournal
  /-- DIAG_TELEMETRY (R449): Command DIAG_TELEMETRY exports telemetry totals. -/
  | diagTelemetry
  /-- DIAG_FIELD_CAL (R162): Command DIAG_FIELD_CAL writes GAIN and PHADJ calibration. -/
  | diagFieldCal
  /-- DIAG_PROBE (R162): Command DIAG_PROBE runs a select challenge at a surveyed point. -/
  | diagProbe (ok : Bool) (sig : Vector Byte 6) (cur : Vector (BitVec 12) 3) (a : Vector Byte 3) (b : Vector Byte 3)
  /-- DIAG_UHF_CARRIER (R186): Command DIAG_UHF_TEST MODE 0 transmits a carrier at a power step. -/
  | diagUhfCarrier
  /-- DIAG_UHF_RECEIVE (R186): Command DIAG_UHF_TEST MODE 1 receives on the 2.4 kb/s test profile. -/
  | diagUhfReceive (bits : W32) (errors : W32)
  /-- UNDEFINED_OPCODE (R383): A command record with an undefined opcode is answered BAD_OPCODE. -/
  | undefinedOpcode
  /-- LONG_COMMAND_COMPLETE (R384): A long command finishes beneath later commands and posts its response. -/
  | longCommandComplete (slot : Fin 16) (ports : Vector PortCheck 6)
  /-- EVT_POST (R387): A held event is posted from the EVT ring once buffer room allows. -/
  | evtPost
  /-- TOUCH_WINDOW (R419): A touch window ends; the channel updates its baseline, trips or re-arms. -/
  | touchWindow (cw : Vector (BitVec 12) 4)
  /-- TOUCH_STUCK (R419): A channel tripped for 60 s re-baselines, re-arms and sets STUCK. -/
  | touchStuck (c : Fin 4) (cw : BitVec 12)
  /-- VBAT_RUN_REACHED (R415): F_VBAT above V_RUN for t_VRUN starts a cold start from Jet. -/
  | vbatRunReached (o : StartOutcome)
  /-- VBAT_LOW (R424): F_VBAT falls below V_LFMIN; LF and UHF transmission stop. -/
  | vbatLow (vbat : BitVec 10)
  /-- VBAT_OVP (R424): F_VBAT rises above V_OVP; LF and UHF transmission stop. -/
  | vbatOvp (vbat : BitVec 10)
  /-- VBAT_TX_RESTORED (R424): F_VBAT returns within V_LFMIN to V_OVP and transmission may resume. -/
  | vbatTxRestored (vbat : BitVec 10) (o : StartOutcome)
  /-- VBAT_BELOW_ASH (R425): F_VBAT falls below V_ASH; Chalk enters Ash, or Umber and Amber drop to Jet. -/
  | vbatBelowAsh (vhold : BitVec 10)
  /-- ASH_COMPLETE (R415): The Ash store completes or stops and the field die enters Jet. -/
  | ashComplete (commits : BitVec 5)
  /-- SABLE_SUPPLY_LOSS (R426): Sable's supply falls below V_SABLEMIN and all retained state is lost. -/
  | sableSupplyLoss
  /-- VLF_UNDERVOLT (R476): F_VLF below V_LFUV makes LF firings fail with BUSY. -/
  | vlfUndervolt (below : Bool)
  /-- PWR_CTRL_GO (R415): Write of PWR_CTRL.GO enters Umber, Amber or Jet, or is refused. -/
  | pwrCtrlGo (v : W32)
  /-- IDLE_RULE (R416): After 10 s idle the device returns to its resting state. -/
  | idleRule
  /-- CLOCK_JUDGE_WINDOW (R400): A frequency-counter window ends and a source's ready flag rises or falls. -/
  | clockJudgeWindow (src : ClockSource) (count : W16)
  /-- PLL_LOCK_ACQUIRED (R401): PLL_C or PLL_L reports lock and island ready counting begins. -/
  | pllLockAcquired (pll : Pll)
  /-- ISLAND_READY (R401): An island controller counts 4,096 cycles and grants the island ready. -/
  | islandReady (k : ClockIsland)
  /-- SOURCE_GIVEUP (R402): 20 ms after start the device takes the RC16 fallback, fails S4 or drops to Jet. -/
  | sourceGiveup (o : StartOutcome)
  /-- JET_RETRY_TIMER (R402): 100 ms after a clock failure in Jet the device retries start. -/
  | jetRetryTimer (o : StartOutcome)
  /-- XO_RETRY_TIMER (R403): Every 10 s in the fallback the XO is restarted and judged. -/
  | xoRetryTimer
  /-- XO_MISSED_EDGE (R404): No XO edge for 4 RC16 cycles; CANCEL_ALL and the XO fallback follow. -/
  | xoMissedEdge
  /-- PLL_LOCK_LOSS (R404): PLL_C or PLL_L loses lock; fed islands stop and the steward restarts. -/
  | pllLockLoss (pll : Pll)
  /-- RTC_CRYSTAL_STOP (R404): The RTC crystal stops; the RTC runs on RC32 with TQ drift 0. -/
  | rtcCrystalStop
  /-- HOST_CRYSTAL_FAIL (R404): The host crystal fails and the host die holds itself in reset. -/
  | hostCrystalFail
  /-- CLK_SEL_WRITE (R405): Write to CLK_SEL changes REF or is refused. -/
  | clkSelWrite (v : W32)
  /-- CLK_GATE_WRITE (R406): Write to CLK_GATE enables or disables gate-tree nodes or is refused. -/
  | clkGateWrite (v : W32)
  /-- CLK_DIV_WRITE (R405): Write to CLK_DIV sets a compute divider target and starts a ramp. -/
  | clkDivWrite (v : W32)
  /-- DIVIDER_RAMP_STEP (R405): Every 64 island cycles the divider moves one step toward its target. -/
  | dividerRampStep (gules : Bool)
  /-- BUS_CROSSING_TIMEOUT (R407): A crossing outside its ratio waits 256 cycles, returns all ones and sets BUS_TO. -/
  | busCrossingTimeout (write : Bool)
  /-- POWER_ON_RESET (R414): Power-on or Jet exit runs start-up from S0 as a cold start. -/
  | powerOnReset (o : StartOutcome)
  /-- STEWARD_ALIVE_TIMEOUT (R430): The steward does not report alive within t_STEWARD; S9 retries. -/
  | stewardAliveTimeout (o : StartOutcome)
  /-- HOST_WAIT_TIMEOUT (R430): S13 waits t_HOSTWAIT without the host die and records HOST_ABSENT. -/
  | hostWaitTimeout
  /-- BOOT_WATCHDOG (R439): S15 has not followed S9 within t_BOOTWD; the device resets through Jet. -/
  | bootWatchdog
  /-- SKIPPED_STEP_RERUN (R431): After S15 the steward re-runs a skipped optional step in the background. -/
  | skippedStepRerun (o : StartOutcome)
  /-- UWB_DELAY_TRACKING (R444): Every 60 s, or after 10 °C, Azure runs the internal loopback of each chain. -/
  | uwbDelayTracking (a : Option Int) (b : Option Int) (temp : Int)
  /-- UWB_PORT_CLASSIFY_RUN (R444): Every 10 minutes Azure runs a LOOPBACK on one configured pair. -/
  | uwbPortClassifyRun (a : PortCheck) (b : PortCheck)
  /-- RTC_DRIFT_WINDOW (R444): A 10 s window compares the XO with the RTC crystal and updates drift. -/
  | rtcDriftWindow (coeff : Int)
  /-- TELEMETRY_FOLD (R448): Every 30 minutes, or before leaving Chalk, counters are folded into totals. -/
  | telemetryFold
  /-- STEWARD_WATCHDOG (R451): The Purpure watchdog expires and the steward core is reset. -/
  | stewardWatchdog
  /-- STEWARD_CORE_FAULT (R451): A bus error, illegal instruction, privilege fault or SRAM uncorrectable resets the steward. -/
  | stewardCoreFault
  /-- HOST_DIE_RESET (R352): The host die enters reset (H_RESET_N, an H_VDD dip or its supervisor), zeroing the host epoch and
  MB_BUSY and holding the not-permitted pattern. -/
  | hostDieReset
  /-- PERMIT_READBACK_SAMPLE (R375): Every 500 µs Argent samples H_PERMIT_FB and advances or resets the count of consecutive correct
  samples. -/
  | permitReadbackSample (level : Bool)
  /-- FRAME_CHECK_FAIL (R353): A barrier frame fails its CRC-16 check and is NAKed as a line error or, as the second bit-identical
  failing copy, puts the receiver in UNSYNCED. -/
  | frameCheckFail (toHost : Bool) (bulk : Bool) (noise : BitVec 38)
  /-- LINK_RETRY_TIMER (R350): Every 1 ms while the link is DOWN after a training timeout or FIELD_SILENT, a new training attempt
  starts. -/
  | linkRetryTimer
  /-- J1939_TP_TIMEOUT (R378): A J1939-21 connection-mode timeout expires and the running ledger export is aborted. -/
  | j1939TpTimeout
  /-- TAG_FIELD_COLLAPSE (R225): The reader field collapses, or tag-domain power fails, part-way through a tag page write, leaving
  the page old or new under R225. -/
  | tagFieldCollapse (w : TagTear) (point : TagPoint)
  /-- AZ_SYNTH_LOCK (R148): PLL_U reaches lock and a waiting Azure WAIT_LOCK is released. -/
  | azSynthLock
  deriving DecidableEq, Repr

end Sys2Proof
end

