-- ==== Sys2Proof/Decode.lean ====
section
/-! DEFINITION. The command that a word of the opcode table spells. The table gives no row of this block any bits: a command is
an operation on a register, a link or a pin, or one step of an engine, and no word stands for it. -/

namespace Sys2Proof

/-- No row of the table gives bits, so no word spells a command. DESIGN CHOICE, log 1. -/
def decodeTableWord (_nbits _w : Nat) : Option Instr := none

end Sys2Proof
end

