-- ==== Sys2Proof/Machine/Bits.lean ====
section
/-! DEFINITION. Bit fields, byte orders, saturating counters, checksums and table helpers used by every family. -/

namespace Sys2Proof.Machine

/-- One count of a 32-bit counter that saturates at 0xFFFF_FFFF (R61, R93, R158, R202, R229, R293, R334, R450). -/
def satInc (n : Nat) : Nat := if n < 0xFFFFFFFF then n + 1 else n

/-- One count of a counter that saturates at `top`. -/
def satTo (top n : Nat) : Nat := if n < top then n + 1 else n

/-- Bits `[hi:lo]` of a word as a number. -/
def bitsOf {w : Nat} (x : BitVec w) (hi lo : Nat) : Nat := (x.toNat / 2 ^ lo) % 2 ^ (hi + 1 - lo)

/-- Bits `[hi:lo]` of a 32-bit word as a field of `w` bits. -/
def fld (v : BitVec 32) (hi lo w : Nat) : BitVec w := BitVec.ofNat w (bitsOf v hi lo)

/-- Bit `i` of a number. -/
def bitAt (n i : Nat) : Bool := n / 2 ^ i % 2 == 1

/-- A Bool as the number 0 or 1. -/
def b2n (b : Bool) : Nat := if b then 1 else 0

/-- A 16-bit word read as a signed number. -/
def s16 (n : Nat) : Int := if n % 65536 < 32768 then (n % 65536 : Nat) else (n % 65536 : Nat) - 65536

/-- An 8-bit word read as a signed number. -/
def s8 (n : Nat) : Int := if n % 256 < 128 then (n % 256 : Nat) else (n % 256 : Nat) - 256

/-- A signed number as its low `w` bits. -/
def ofSigned (w : Nat) (i : Int) : BitVec w := BitVec.ofInt w i

/-- The low `k` bytes of `n`, least significant first (R4). -/
def leBytes : Nat → Nat → Bytes
  | 0, _ => []
  | k + 1, n => BitVec.ofNat 8 (n % 256) :: leBytes k (n / 256)

/-- A little-endian byte string as a number (R4). -/
def leNat : Bytes → Nat
  | [] => 0
  | b :: bs => b.toNat + 256 * leNat bs

/-- The low `k` bytes of `n`, most significant first (R4, the Aqmos link). -/
def beBytes (k n : Nat) : Bytes := (leBytes k n).reverse

/-- A big-endian byte string as a number (R4). -/
def beNat (bs : Bytes) : Nat := leNat bs.reverse

/-- `len` bytes of a string from `off`, as many as there are. -/
def slice (bs : Bytes) (off len : Nat) : Bytes := (bs.drop off).take len

/-- The little-endian number of `len` bytes at `off`. -/
def leAt (bs : Bytes) (off len : Nat) : Nat := leNat (slice bs off len)

/-- The big-endian number of `len` bytes at `off`. -/
def beAt (bs : Bytes) (off len : Nat) : Nat := beNat (slice bs off len)

/-- Byte `i` of a string as a number, 0 past its end. -/
def byteAt (bs : Bytes) (i : Nat) : Nat := (bs.getD i 0).toNat

/-- `bs` cut or filled with zeros to exactly `n` bytes. -/
def padTo (n : Nat) (bs : Bytes) : Bytes := bs.take n ++ List.replicate (n - bs.length) 0

/-- Two strings of bytes, one xor the other. -/
def xorBytes (a b : Bytes) : Bytes := List.zipWith (· ^^^ ·) a b

/-- `n` zero bytes. -/
def zeros (n : Nat) : Bytes := List.replicate n 0

/-- `src` written over `dst` from `off`, keeping `dst`'s length. -/
def overlay (dst : Bytes) (off : Nat) (src : Bytes) : Bytes :=
  ((dst.take off) ++ src ++ dst.drop (off + src.length)).take dst.length

/-- Whether every byte of a string is 0. -/
def allZero (bs : Bytes) : Bool := bs.all (· == 0)

/-- `ceil (a / b)`. -/
def ceilDiv (a b : Nat) : Nat := (a + b - 1) / b

/-- The least upper value of a clamp. -/
def clampInt (lo hi x : Int) : Int := if x < lo then lo else if hi < x then hi else x

/-- Quotient rounded to the nearest integer, for a positive divisor. -/
def roundDiv (a b : Int) : Int := (2 * a + b) / (2 * b)

/-! ### Fixed tables -/

/-- A table with entry `i` changed by `f`. -/
def vmod {α : Type} {n : Nat} (v : Vector α n) (i : Fin n) (f : α → α) : Vector α n := v.set i (f v[i])

/-- A table with entry `i` replaced. -/
def vset {α : Type} {n : Nat} (v : Vector α n) (i : Fin n) (x : α) : Vector α n := v.set i x

/-- A table with entry `i` changed by `f`, unchanged where there is no entry `i`. -/
def vmodN {α : Type} {n : Nat} (v : Vector α n) (i : Nat) (f : α → α) : Vector α n :=
  if h : i < n then vmod v ⟨i, h⟩ f else v

/-- Entry `i` of a table, or `d` where there is none. -/
def vgetN {α : Type} {n : Nat} (v : Vector α n) (i : Nat) (d : α) : α := if h : i < n then v[i] else d

/-- Every entry of a table changed by `f`. -/
def vmap {α β : Type} {n : Nat} (v : Vector α n) (f : α → β) : Vector β n := v.map f

/-- A list with the entries at positions that satisfy `p` changed by `f`. -/
def lmodIf {α : Type} (l : List α) (p : α → Bool) (f : α → α) : List α := l.map fun x => if p x then f x else x

/-! ### Checksums -/

/-- One bit of a CRC that shifts to the left: `top` is the register's top bit weight, `mask` its width's mask. -/
def crcBit (poly top mask : Nat) (crc : Nat) (bit : Bool) : Nat :=
  let fb := (bitAt (crc / top) 0) != bit
  let sh := (crc * 2) % (mask + 1)
  if fb then sh ^^^ poly else sh

/-- The eight bits of a byte, most significant first. -/
def msbBits (b : Byte) : List Bool := (List.range 8).map fun i => bitAt b.toNat (7 - i)

/-- The eight bits of a byte, least significant first. -/
def lsbBits (b : Byte) : List Bool := (List.range 8).map fun i => bitAt b.toNat i

/-- The bits of a number, least significant first. -/
def natBits (k n : Nat) : List Bool := (List.range k).map fun i => bitAt n i

/-- CRC-16 with polynomial 0x1021 and start value `init`, over bits in the order given. -/
def crc16Bits (init : Nat) (bits : List Bool) : Nat := bits.foldl (crcBit 0x1021 0x8000 0xFFFF) init

/-- CRC-16 with polynomial 0x1021 and start value 0xFFFF over bytes sent most significant bit first. -/
def crc16 (bs : Bytes) : Nat := crc16Bits 0xFFFF (bs.flatMap msbBits)

/-- CRC-8 SAE J1850: polynomial 0x1D, start 0xFF, final exclusive or 0xFF (R372, R377). -/
def crc8J1850 (bs : Bytes) : Nat := ((bs.flatMap msbBits).foldl (crcBit 0x1D 0x80 0xFF) 0xFF) ^^^ 0xFF

/-- CRC-4 with polynomial x^4 + x + 1 from a zero start over bits in the order given (R102). -/
def crc4 (bits : List Bool) : Nat := bits.foldl (crcBit 0x3 0x8 0xF) 0

/-- One bit of the reflected CRC-32. -/
def crc32Bit (crc : Nat) (bit : Bool) : Nat :=
  if (bitAt crc 0) != bit then (crc / 2) ^^^ 0xEDB88320 else crc / 2

/-- CRC-32, polynomial 0x04C1_1DB7 reflected, start and final exclusive or 0xFFFF_FFFF (R300, R305). -/
def crc32 (bs : Bytes) : Nat := ((bs.flatMap lsbBits).foldl crc32Bit 0xFFFFFFFF) ^^^ 0xFFFFFFFF

/-! ### Addressed memories: sparse lists of cells in one canonical form -/

/-- An addressed RAM or NV area: addresses strictly rising, no entry equal to 0, an unlisted byte reads 0. -/
abbrev Mem := List Host.Cell

/-- The canonical form of an addressed memory. DESIGN CHOICE, log 6. -/
def memWf (m : Mem) : Bool := (m.all fun c => c.2 != 0) && (m.zip m.tail).all fun p => p.1.1 < p.2.1

/-- The byte at an address. DESIGN CHOICE, log 6. -/
def memRead (m : Mem) (a : Nat) : Byte :=
  match m with
  | [] => 0
  | c :: cs => if c.1 == a then c.2 else if a < c.1 then 0 else memRead cs a

/-- One byte stored, keeping the canonical form. DESIGN CHOICE, log 6. -/
def memWrite (m : Mem) (a : Nat) (b : Byte) : Mem :=
  match m with
  | [] => if b == 0 then [] else [(a, b)]
  | c :: cs =>
    if a < c.1 then (if b == 0 then c :: cs else (a, b) :: c :: cs)
    else if c.1 == a then (if b == 0 then cs else (a, b) :: cs)
    else c :: memWrite cs a b

/-- Bytes stored at rising addresses. -/
def memWriteBytes (m : Mem) (a : Nat) : Bytes → Mem
  | [] => m
  | b :: bs => memWriteBytes (memWrite m a b) (a + 1) bs

/-- `n` bytes from address `a`. -/
def memReadBytes (m : Mem) (a n : Nat) : Bytes := (List.range n).map fun i => memRead m (a + i)

/-- The memory with every byte of `[a, a + n)` cleared. DESIGN CHOICE, log 6. -/
def memClear (m : Mem) (a n : Nat) : Mem := m.filter fun c => !(decide (a ≤ c.1) && decide (c.1 < a + n))

end Sys2Proof.Machine
end

