-- ==== Sys2Proof/Config.lean ====
section
/-! DEFINITION. What the specification leaves open (free values, no body) and the named standard algorithms it uses
without defining them (uninterpreted functions of their inputs). -/

namespace Sys2Proof.Config

open Sys2Proof

/-! ### Free values: a fresh one for every number of `State.freeCtr` -/

/-- A free number. DESIGN CHOICE, log 4. -/
opaque freeNat : Nat → Nat

/-- Byte `i` of free byte string number `n`. DESIGN CHOICE, log 4. -/
opaque freeByte : Nat → Nat → Byte

/-- `len` free bytes. DESIGN CHOICE, log 4. -/
def freeBytes (n len : Nat) : Bytes := (List.range len).map (freeByte n)

/-- Which failure code of R13 a journal record or EVT_BOOT carries for a step that failed, where the specification does not
name it (R430, R433). DESIGN CHOICE, log 4. -/
opaque stepCode : Nat → Nat

/-- Byte `i` of the step-specific DETAIL of a failed attempt (R434). DESIGN CHOICE, log 4. -/
opaque stepDetail : Nat → Nat → Byte

/-- Whether read-back number `n` of Or's NV finds a mismatch (R300, R306, R329). DESIGN CHOICE, log 195. -/
opaque nvMismatch : Nat → Bool

/-! ### Standard algorithms (FIPS 180, SP 800-38, SP 800-56C, FIPS 186), and those of the Aqmos link that a standard names -/

/-- SHA-256. DESIGN CHOICE, log 10. -/
opaque sha256Raw : Bytes → Bytes
/-- SHA-384. DESIGN CHOICE, log 10. -/
opaque sha384Raw : Bytes → Bytes
/-- AES-CMAC under a key. DESIGN CHOICE, log 10. -/
opaque cmacRaw : Bytes → Bytes → Bytes
/-- AES of one block under a key. DESIGN CHOICE, log 10. -/
opaque aesRaw : Bytes → Bytes → Bytes
/-- ECDSA signature r ‖ s: private key, per-signature random bits, message. DESIGN CHOICE, log 10. -/
opaque ecdsaSignRaw : Bytes → Bytes → Bytes → Bytes
/-- ECDSA verification: public key, message, signature. DESIGN CHOICE, log 10. -/
opaque ecdsaVerify : Bytes → Bytes → Bytes → Bool
/-- Public key of a private key. DESIGN CHOICE, log 10. -/
opaque ecPublicRaw : Bytes → Bytes
/-- Shared point's x coordinate: private key, public key. DESIGN CHOICE, log 10. -/
opaque ecdhRaw : Bytes → Bytes → Bytes
/-- Whether a public key is a point of its curve. DESIGN CHOICE, log 10. -/
opaque ecOnCurve : Bytes → Bool
/-- The Torvern manufacturing public key. DESIGN CHOICE, log 11. -/
opaque torvernKeyRaw : Bytes

/-- Signature by the Torvern manufacturing key, made outside the device (R287). DESIGN CHOICE, log 11. -/
opaque torvernSignRaw : Bytes → Bytes
/-- The unprotected header of the identity endorsement (R287). DESIGN CHOICE, log 11. -/
opaque endorseHeader : Bytes

/-- The yard tag's 96-bit TID, which the specification names and gives no value for. DESIGN CHOICE, log 11. -/
opaque tidRaw : Bytes
/-- The vehicle's VIN. DESIGN CHOICE, log 11. -/
opaque vinRaw : Bytes

/-- Whether IEEE 802.15.4z permits a preamble code index: channel bit, PRF code, index (R131).
DESIGN CHOICE, log 13. -/
opaque uwbCodeOk : Nat → Nat → Nat → Bool
/-- Chips before the RMARKER of an HPRF frame as IEEE 802.15.4z defines them: word 0 of the PHY entry with
SP in force, octets of the PSDU (R132). DESIGN CHOICE, log 13. -/
opaque hprfBefore : Nat → Nat
/-- Chips after the RMARKER of an HPRF frame (R132). DESIGN CHOICE, log 13. -/
opaque hprfAfter : Nat → Nat → Nat

/-- Compensation of the on-die UWB chain delay by OTP's factory trim and the die temperature, in units of 1 ⁄ 1,664 tick: the
OTP coefficient has no stated value (R143). DESIGN CHOICE, log 176. -/
opaque chainComp : Nat → Int → Int

/-! ### Real functions of Place and Weigh (R153, R163, R164), on rationals

The specification computes in real numbers and states no rounding. Each function below is the standard one that its name says,
computed with at least 80 binary places and rounded to the nearest multiple of 2⁻⁶⁴. -/

/-- A rational as a whole number of units of 2⁻ⁿ, to the nearest. -/
def unitsOf (n : Nat) (q : Rat) : Int := (q * (2 ^ n : Nat) + 1 / 2).floor

/-- A rational rounded to the nearest multiple of 2⁻ⁿ. -/
def roundTo (n : Nat) (q : Rat) : Rat := mkRat (unitsOf n q) (2 ^ n)

/-- A rational rounded to the nearest multiple of 2⁻⁶⁴. DESIGN CHOICE, log 12. -/
def quant (q : Rat) : Rat := roundTo 64 q

/-- A decimal constant with forty places. -/
def decimal40 (n : Nat) : Rat := mkRat n (10 ^ 40)

/-- π. DESIGN CHOICE, log 12. -/
def pi : Rat := decimal40 31415926535897932384626433832795028841972

/-- The natural logarithm of 2. -/
def ln2 : Rat := decimal40 6931471805599453094172321214581765680755

/-- The natural logarithm of 10. DESIGN CHOICE, log 12. -/
def ln10 : Rat := decimal40 23025850929940456840179914546843642076011

/-- log₁₀ of 2 and log₂ of 10. -/
def lg2 : Rat := decimal40 3010299956639811952137388947244930267682

def lb10 : Rat := decimal40 33219280948873623478703194293894901758648

/-- The bits of a whole square root from bit `k − 1` down, above those already found. -/
def isqrtBits : Nat → Nat → Nat → Nat
  | 0, r, _ => r
  | k + 1, r, n => isqrtBits k (if (r + 2 ^ k) * (r + 2 ^ k) ≤ n then r + 2 ^ k else r) n

/-- The greatest whole number whose square is at most `n`. -/
def isqrt (n : Nat) : Nat := isqrtBits (n.log2 / 2 + 1) 0 n

/-- Square root; 0 of a number that is not above 0. DESIGN CHOICE, log 12. -/
def realSqrt (q : Rat) : Rat := if q ≤ 0 then 0 else mkRat (isqrt (q.num.toNat * 2 ^ 128 / q.den)) (2 ^ 64)

/-- The fraction bits of log₂ of m ⁄ 2⁹⁶, with m from 2⁹⁶ to 2⁹⁷, by repeated squaring. -/
def log2Bits : Nat → Nat → Nat → Nat
  | 0, _, acc => acc
  | k + 1, m, acc =>
    let sq := m * m / 2 ^ 96
    if 2 ^ 97 ≤ sq then log2Bits k (sq / 2) (2 * acc + 1) else log2Bits k sq (2 * acc)

/-- log₂ of a number above 0. -/
def log2Pos (q : Rat) : Rat :=
  let a := q.num.toNat
  let k : Int := (a.log2 : Int) - q.den.log2
  let m := if 0 ≤ k then a * 2 ^ 96 / (q.den * 2 ^ k.toNat) else a * 2 ^ (96 + (-k).toNat) / q.den
  if m < 2 ^ 96 then (k - 1 : Int) + mkRat (log2Bits 80 (2 * m) 0) (2 ^ 80) else (k : Int) + mkRat (log2Bits 80 m 0) (2 ^ 80)

/-- The logarithm of a number that is not above 0, which the specification does not state (a level of no field).
DESIGN CHOICE, log 12. -/
opaque logNone : Rat → Rat

/-- log₁₀. DESIGN CHOICE, log 12. -/
def log10 (q : Rat) : Rat := if q ≤ 0 then logNone q else quant (log2Pos q * lg2)

/-- The terms of eʸ from term `k` on, the term before being `t`. -/
def expTerms (y : Rat) : Nat → Nat → Rat → Rat
  | 0, _, _ => 0
  | n + 1, k, t =>
    let u := roundTo 96 (t * y / k)
    u + expTerms y n (k + 1) u

/-- 10 to a power. DESIGN CHOICE, log 12. -/
def pow10 (x : Rat) : Rat :=
  let z := x * lb10
  let f := 1 + expTerms (roundTo 96 ((z - z.floor) * ln2)) 40 1 1
  quant (if 0 ≤ z.floor then f * (2 ^ z.floor.toNat : Nat) else f / (2 ^ (-z.floor).toNat : Nat))

/-- The terms of cos y from term `k` on, the term before being `t`, for the square of y. -/
def cosTerms (y2 : Rat) : Nat → Nat → Rat → Rat
  | 0, _, _ => 0
  | n + 1, k, t =>
    let u := roundTo 96 (-(t * y2) / ((2 * k - 1) * (2 * k) : Nat))
    u + cosTerms y2 n (k + 1) u

/-- Cosine of an angle in turns: −cos (2π (f − ½)) for its fraction f. DESIGN CHOICE, log 12. -/
def cosTurn (q : Rat) : Rat :=
  let y := 2 * pi * (q - q.floor - 1 / 2)
  quant (-(1 + cosTerms (roundTo 96 (y * y)) 32 1 1))

/-- Whether x·1 − m has no negative principal minor, for a symmetric 3 × 3 matrix by rows: x is no smaller than any
eigenvalue. -/
def aboveEig (m : List (List Rat)) (x : Rat) : Bool :=
  let e (i j : Nat) : Rat := (if i = j then x else 0) - (m.getD i []).getD j 0
  let d2 (i j : Nat) : Rat := e i i * e j j - e i j * e j i
  let d3 : Rat := e 0 0 * d2 1 2 - e 0 1 * (e 1 0 * e 2 2 - e 1 2 * e 2 0) + e 0 2 * (e 1 0 * e 2 1 - e 1 1 * e 2 0)
  decide (0 ≤ e 0 0) && decide (0 ≤ e 1 1) && decide (0 ≤ e 2 2) && decide (0 ≤ d2 0 1) && decide (0 ≤ d2 0 2) &&
    decide (0 ≤ d2 1 2) && decide (0 ≤ d3)

/-- Halving of an interval that holds the largest eigenvalue. -/
def eigHalve (m : List (List Rat)) : Nat → Rat → Rat → Rat
  | 0, _, hi => hi
  | k + 1, lo, hi =>
    let mid := (lo + hi) / 2
    if aboveEig m mid then eigHalve m k lo mid else eigHalve m k mid hi

/-- The largest eigenvalue of a symmetric 3 × 3 matrix without negative ones, by rows: between 0 and the trace.
DESIGN CHOICE, log 12. -/
def eigMax (m : List (List Rat)) : Rat :=
  let r := m.map fun l => l.map quant
  quant (eigHalve r 96 0 (((List.range 3).map fun i => (r.getD i []).getD i 0).sum + 1))

/-- The step of a least-squares problem whose normal matrix is singular, which the specification leaves
open. DESIGN CHOICE, log 12. -/
opaque singularStep : List (List Rat) → List Rat → List Rat
/-- The covariance of a least-squares problem whose normal matrix is singular. DESIGN CHOICE, log 12. -/
opaque singularSigma : List (List Rat) → Rat

/-! ### What Place and Weigh solve -/

/-- One driven Tint: channel, achieved current in mA and measured phase of each driven slot, TRI_ADJ in 0.1 dB, and the
signature bytes of the three axes. -/
structure Tint where
  drive : List (Nat × Nat × Nat)
  adj : Int
  axes : List Nat

/-- What Place solves: transmit port and range in µm with σ_r in mm; the kept angles as pair and PDOA with the channel
(9 or 5); the Tints with at least one usable axis. -/
structure PlaceProblem where
  txPort : Nat
  range : Option (Nat × Nat)
  channel : Nat
  angles : List (Nat × Int)
  tints : List Tint
  zoneMap : Bytes
  fieldMap : Bytes
  ports : Bytes
  gain : List Int
  phAdj : List Int

/-- What the fit of R164 takes: the field map with GAIN and PHADJ, both Tints, p in µm, the axes of K, whether o is
fitted (within ±4 dB from 0), and the offset where it is not. -/
structure FitProblem where
  fieldMap : Bytes
  gain : List Int
  phAdj : List Int
  tintA : Tint
  tintB : Tint
  p : Int × Int × Int
  axes : List Nat
  first : Bool
  offset : Int

def tagTid : Bytes := Machine.padTo 12 tidRaw
def vin : Bytes := Machine.padTo 18 vinRaw
def sha256 (m : Bytes) : Bytes := Machine.padTo 32 (sha256Raw m)
def sha384 (m : Bytes) : Bytes := Machine.padTo 48 (sha384Raw m)
def cmac (k m : Bytes) : Bytes := Machine.padTo 16 (cmacRaw k m)
def aes (k b : Bytes) : Bytes := Machine.padTo 16 (aesRaw k b)
/-- `n` bytes of CTR key stream: AES of the counter blocks `head` ‖ [first + i], the counter in `w` bytes (SP 800-38A). -/
def keyStream (k head : Bytes) (w first n : Nat) : Bytes :=
  Machine.padTo n ((List.range (Machine.ceilDiv n 16)).flatMap fun i => aes k (head ++ Machine.beBytes w (first + i)))
/-- Key stream of a message under GCM (12-byte IV, 32-bit counter from 2) or CCM (L = 3, counter from 1) (R273). -/
def msgStream (isCcm : Bool) (k n : Bytes) (len : Nat) : Bytes :=
  if isCcm then keyStream k ([2] ++ n) 3 1 len else keyStream k n 4 2 len
/-- A message of GCM or CCM encrypted or decrypted: each byte xor the key stream. -/
def ctrDec (isCcm : Bool) (k n c : Bytes) : Bytes := Machine.xorBytes c (msgStream isCcm k n c.length)
/-- Product in GF(2¹²⁸) as SP 800-38D writes it, the first bit of a block the most significant. -/
def gfMul (x y : Nat) : Nat :=
  ((List.range 128).foldl (fun (p : Nat × Nat) i =>
    (if x.testBit (127 - i) then p.1 ^^^ p.2 else p.1, if p.2 % 2 = 1 then p.2 / 2 ^^^ 0xE1 * 2 ^ 120 else p.2 / 2)) (0, y)).1
/-- A string filled with zeros to whole blocks of 16 bytes. -/
def fill16 (b : Bytes) : Bytes := Machine.padTo (Machine.ceilDiv b.length 16 * 16) b
/-- The 16-byte blocks of a string. -/
def blocks16 (b : Bytes) : List Bytes := (List.range (b.length / 16)).map fun i => Machine.slice b (16 * i) 16
/-- GHASH under the hash subkey. -/
def ghash (h : Nat) (b : Bytes) : Nat := (blocks16 b).foldl (fun y x => gfMul (y ^^^ Machine.beNat x) h) 0
/-- AES-GCM with a 12-byte IV and a 16-byte tag (SP 800-38D): key, IV, associated data, plaintext. -/
def gcm (k n a p : Bytes) : Bytes × Bytes :=
  let c := ctrDec false k n p
  let h := Machine.beNat (aes k (Machine.zeros 16))
  let t := ghash h (fill16 a ++ fill16 c ++ Machine.beBytes 8 (8 * a.length) ++ Machine.beBytes 8 (8 * c.length))
  (c, Machine.xorBytes (Machine.beBytes 16 t) (aes k (n ++ Machine.beBytes 4 1)))
/-- AES-CCM with a 12-byte nonce, L = 3 and a tag of `t` bytes (SP 800-38C): key, nonce, tag length, associated data, plaintext. -/
def ccm (k n : Bytes) (t : Nat) (a p : Bytes) : Bytes × Bytes :=
  let b0 := [BitVec.ofNat 8 ((if a.isEmpty then 0 else 64) + 8 * ((t - 2) / 2) + 2)] ++ n ++ Machine.beBytes 3 p.length
  let ad := if a.isEmpty then [] else fill16 ((if a.length < 65280 then Machine.beBytes 2 a.length else [0xFF, 0xFE] ++ Machine.beBytes 4 a.length) ++ a)
  let mac := (blocks16 (b0 ++ ad ++ fill16 p)).foldl (fun x b => aes k (Machine.xorBytes x b)) (Machine.zeros 16)
  (ctrDec true k n p, Machine.xorBytes (mac.take t) (aes k ([2] ++ n ++ Machine.beBytes 3 0)))
/-- The KDF of R233, SP 800-108 in counter mode with AES-CMAC: block(i) = CMAC(K, [i] ‖ LABEL ‖ 0x00 ‖ CONTEXT ‖ [L]),
and the first L bits of the blocks, zero-filled to whole bytes. -/
def kdf (k label ctx : Bytes) (bits : Nat) : Bytes :=
  let blocks := (List.range (Machine.ceilDiv bits 128)).flatMap fun i =>
    cmac k ([BitVec.ofNat 8 (i + 1)] ++ label ++ [0] ++ ctx ++ Machine.beBytes 2 bits)
  let out := Machine.padTo (Machine.ceilDiv bits 8) blocks
  if bits % 8 = 0 then out
  else out.dropLast ++ [(out.getLastD 0) &&& BitVec.ofNat 8 (256 - 2 ^ (8 - bits % 8))]
/-- Order n of the curve P-256 (FIPS 186). -/
def orderP256 : Nat := 0xFFFFFFFF00000000FFFFFFFFFFFFFFFFBCE6FAADA7179E84F3B9CAC2FC632551
/-- The scalar of a derived 384-bit value: d = (v mod (n − 1)) + 1 (R233), 32 bytes big-endian. -/
def scalarP256 (v : Bytes) : Bytes := Machine.beBytes 32 (Machine.beNat v % (orderP256 - 1) + 1)
/-- Signatures with their per-signature k (R282). -/
def ecdsaSign (d k m : Bytes) : Bytes := Machine.padTo 64 (ecdsaSignRaw d k m)
def ecdsaSign384 (d k m : Bytes) : Bytes := Machine.padTo 96 (ecdsaSignRaw d k m)
/-- Public key x ‖ y of a P-256 private key. -/
def ecPublic (k : Bytes) : Bytes := Machine.padTo 64 (ecPublicRaw k)
/-- x coordinate of the shared point, 32 bytes on P-256 and 48 on P-384. -/
def ecdh (len : Nat) (k q : Bytes) : Bytes := Machine.padTo len (ecdhRaw k q)
def torvernKey : Bytes := Machine.padTo 64 torvernKeyRaw
def torvernSign (m : Bytes) : Bytes := Machine.padTo 64 (torvernSignRaw m)

end Sys2Proof.Config
end

