-- ==== Sys2Proof/Machine/State.lean ====
section
/-! DEFINITION. The state of the TV8160 as plain data, its reset, and the reasons a command can stop. -/

namespace Sys2Proof.Machine

open Sys2Proof

/-! ### Celeste (R30 to R65) -/

/-- The source that moves the timebase, CEL_STATUS.TB_SRC (R61). -/
inductive TbSource where
  | xo | rc16 | held
  deriving DecidableEq, Repr

/-- STATE of a launch-table entry (R37). -/
inductive EntryState where
  | idle | disabled | armed | posted | running | done | cancelled | failed
  deriving DecidableEq, Repr

/-- A launch-table entry: the fields of R37, and what Celeste keeps of its run (R41, R45, R49). -/
structure LaunchEntry where
  /-- TICK[31:0] -/
  tickLo : W32 := 0
  /-- TICK[63:32] -/
  tickHi : W32 := 0
  count : BitVec 8 := 0
  period : BitVec 24 := 0
  arg : W16 := 0
  fine : BitVec 11 := 0
  island : BitVec 3 := 0
  action : BitVec 4 := 0
  prio : BitVec 2 := 0
  lateOk : Bool := false
  tx : Bool := false
  trig : Bool := false
  link : BitVec 7 := 0
  coex : BitVec 2 := 0
  state : EntryState := .idle
  doneCnt : Nat := 0
  /-- the tick at which the next firing is due (R45) -/
  due : Nat := 0
  /-- a TRIG child that still waits for its parent's completion (R45) -/
  waiting : Bool := false
  /-- a firing met a cause of lateness before it acted (R43) -/
  late : Bool := false
  /-- CANCEL came while a firing ran (R49) -/
  cancelAfter : Bool := false
  /-- armed late with LATE_OK = 1: the first firing acts as soon as it is posted (R40) -/
  atOnce : Bool := false
  /-- the tick at which the latest firing acted or failed (R43, R61) -/
  firedAt : Nat := 0
  deriving DecidableEq, Repr

/-- A firing's completion on its way from the island to Celeste (R46). -/
structure Completion where
  entry : Fin 128
  status : W16
  /-- completion tick -/
  tick : Nat
  /-- actual tick of the firing or failure -/
  act : Nat
  deriving DecidableEq, Repr

/-- A record of the launch log (R61, R63). -/
structure LogRecord where
  tick : W32
  status : W16
  entry : Fin 128
  island : BitVec 3
  deriving DecidableEq, Repr

/-- A move descriptor (R54). -/
structure MoveDesc where
  src : Byte := 0
  dst : Byte := 0
  len : W16 := 0
  offset : W16 := 0
  deriving DecidableEq, Repr

/-- One snapshot bank (R59, R61, R64). -/
structure SnapBank where
  busy : Bool := false
  seq : Byte := 0
  /-- T_S of the last capture -/
  ts : Nat := 0
  /-- T_S of the capture in progress -/
  pendTs : Nat := 0
  /-- timebase at T_S as group 0 captured it -/
  tb : Nat := 0
  /-- groups named by the trigger that have not captured yet -/
  pend : BitVec 7 := 0
  /-- captured counters, one list a group in the order of the chapter that defines the group (R60) -/
  cap : Vector (List Nat) 7 := Vector.replicate 7 []
  deriving DecidableEq, Repr

/-- Celeste: timebase, launch table, ports, log and snapshot banks. -/
structure Celeste where
  /-- the timebase (R30); R32 rules a wrap out -/
  timebase : Nat := 0
  /-- CEL_STATUS.TB_RUN -/
  tbRun : Bool := false
  tbSrc : TbSource := .xo
  /-- RTC periods elapsed since the timebase was last held (R31) -/
  heldPeriods : Nat := 0
  /-- CEL_TB_HI, latched by a read of CEL_TB_LO -/
  tbHiLatch : W32 := 0
  entries : Vector LaunchEntry 128 := Vector.replicate 128 {}
  /-- posted entries of each launch port: Vert, Azure, Tenné, Gules, Purpure (R41) -/
  ports : Vector (List (Fin 128)) 5 := Vector.replicate 5 []
  completions : List Completion := []
  entryWe : Bool := false
  log : List LogRecord := []
  /-- LOG_LOST (RCD, saturates at 255) -/
  logLost : Nat := 0
  cmdStatus : Status := .ok
  cmdEntry : BitVec 7 := 0
  /-- the tick from which CEL_CMD_RESULT shows DONE = 1 (R62) -/
  cmdDoneAt : Nat := 0
  /-- the steward's interrupt for a record appended to the launch log (R63) -/
  logIrq : Bool := false
  moves : Vector MoveDesc 32 := Vector.replicate 32 {}
  /-- Purpure staging window, 4 KiB (R55) -/
  win : Mem := []
  snapH : SnapBank := {}
  snapS : SnapBank := {}
  nFired : Nat := 0
  nLate : Nat := 0
  nRefused : Nat := 0
  nCoex : Nat := 0
  deriving DecidableEq, Repr

/-! ### Sequence engines (R51) -/

/-- An open loop of a sequence program. -/
structure LoopFrame where
  /-- nn: repetitions in all -/
  reps : Nat
  /-- i: the iteration index, from 0 -/
  i : Nat
  /-- ticks added to WAIT_TB for each iteration -/
  stride : Nat
  /-- word address of the body's first word -/
  body : Nat
  deriving DecidableEq, Repr

/-- An instruction that lasts a stated time, with what it leaves at its end (R125, R150, R477). -/
inductive TimedOp where
  /-- DCOC: its length in ticks -/
  | dcoc (len : Nat)
  /-- RSSI: the record and the median -/
  | rssi (rcd : Nat) (value : Byte)
  /-- TX_FRAME of Tenné -/
  | tnTx
  /-- TX_FRAME of Azure: its record and the tick of its RMARKER -/
  | azTx (rcd : Fin 4) (mark : Nat)
  deriving DecidableEq, Repr

/-- What a running program waits for. -/
inductive SeqWait where
  /-- the next instruction may run -/
  | ready
  /-- WAIT_TB: the tick it waits for -/
  | tb (tick : Nat)
  /-- WAIT_LOCK: the tick at which the wait runs out -/
  | lock (limit : Nat)
  /-- an operation in progress (SEND, a receive frame or a loopback) ends by its own event -/
  | op
  /-- an instruction that lasts until a tick, and what it leaves then -/
  | til (tick : Nat) (what : TimedOp)
  deriving DecidableEq, Repr

/-- One sequence engine: running while `entry` holds the launch entry of its START. -/
structure Sequencer where
  entry : Option (Fin 128) := none
  pc : Nat := 0
  /-- T_L, the tick of the START firing -/
  tL : Nat := 0
  /-- FINE of the START firing, in the island's fine unit -/
  fine : Nat := 0
  /-- open loops, innermost first, at most two -/
  loops : List LoopFrame := []
  wait : SeqWait := .ready
  deriving DecidableEq, Repr

/-- The three sequence engines. -/
structure Sequencers where
  vert : Sequencer := {}
  azure : Sequencer := {}
  tenne : Sequencer := {}
  deriving DecidableEq, Repr

/-! ### Vert (R66 to R94) -/

/-- CLASS of an LF channel (R78, R92). -/
inductive LfClass where
  | normal | lowCurrent | openCoil | short | detuned | unpopulated
  deriving DecidableEq, Repr

/-- A burst that has ended (R72). -/
structure LfBurst where
  amp : Nat
  /-- at least 16 carrier periods, or covered by a MEASURE window -/
  measurable : Bool
  /-- other slots were driven with it -/
  coherent : Bool
  /-- FREQ was F_LF -/
  atNominal : Bool
  deriving DecidableEq, Repr

/-- One LF channel: its registers (R92) and what the burst monitor and tuner keep of it. -/
structure LfChannel where
  /-- PH_ERR, signed steps -/
  phErr : Byte := 0
  /-- I_MEAS, mA -/
  iMeas : BitVec 12 := 0
  cls : LfClass := .unpopulated
  /-- STRIKES, consecutive out-of-limit bursts, saturating at 7 -/
  strikes : Nat := 0
  /-- TRIM, signed, −64 to +64 -/
  trim : Int := 0
  cap : BitVec 3 := 0
  /-- PH_COMP, signed -/
  phComp : Int := 0
  /-- consecutive bursts that met the condition of each row of R78 -/
  nOpen : Nat := 0
  nDetuned : Nat := 0
  nLow : Nat := 0
  nGood : Nat := 0
  /-- PH_ERR of the last eight measured single-channel bursts, and the residuals of the last eight coherent ones -/
  single : List Int := []
  coherent : List Int := []
  /-- duty account in units of 1 / (3,969 × 384) (R70) -/
  duty : Nat := 0
  /-- RTC second of the last sweep request the steward made (R79) -/
  sweepAt : Option Nat := none
  /-- a sweep is requested and has not run -/
  sweepReq : Bool := false
  /-- the request stands outside the 10-minute spacing (R79) -/
  sweepExtra : Bool := false
  bursts : Nat := 0
  /-- ticks of the burst that drives the channel now, 0 while it is idle; whether another slot was driven with it -/
  run : Nat := 0
  runAmp : Nat := 0
  runMulti : Bool := false
  /-- a MEASURE window ended within the burst (R72) -/
  runCovered : Bool := false
  /-- the last burst, not yet measured: its amplitude, whether it was long enough to measure or a MEASURE covered it
  (R72), and whether it was coherent -/
  ended : Option LfBurst := none
  deriving DecidableEq, Repr

/-- One drive slot (R66, R83, R85). -/
structure LfSlot where
  ch : Option (Fin 12) := none
  amp : BitVec 6 := 0
  ph : Byte := 0
  /-- amplitude and phase that act on a driven slot before tick `setAt` (R85) -/
  ampWas : BitVec 6 := 0
  phWas : Byte := 0
  setAt : Nat := 0
  driven : Bool := false
  /-- the tick at which the bridge of a driven slot starts: a carrier period boundary (R85) -/
  onAt : Nat := 0
  /-- the channel that the slot drove last, and the tick at which its bridge stops: a zero crossing, or a carrier period
  boundary after a SEND (R85, R86) -/
  tail : Option (Fin 12) := none
  offAt : Nat := 0
  deriving DecidableEq, Repr

/-- A SEND in progress (R86). -/
structure LfSend where
  mask : BitVec 3
  /-- N, bits to send -/
  n : Nat
  /-- B, first bit offset -/
  first : Nat
  /-- W_T, tick of the WAIT_TB before the SEND -/
  wt : Nat
  deriving DecidableEq, Repr

/-- A MEASURE window in progress (R88). -/
structure LfWindow where
  mask : BitVec 3
  rcd : Fin 16
  /-- the slots, and whether no PH_COMP applied, when the window opened -/
  slots : Vector LfSlot 3
  uncomp : Bool
  /-- W, carrier periods -/
  periods : Nat
  /-- start tick of the window: the first carrier period boundary of a masked slot -/
  start : Nat
  /-- its end: W periods after the last such boundary -/
  stop : Nat
  deriving DecidableEq, Repr

/-- Word w of a VERT_RES record (R92). -/
structure LfRes where
  iMeas : BitVec 12 := 0
  ph : Byte := 0
  ch : BitVec 4 := 0
  valid : Bool := false
  uncomp : Bool := false
  cut : Bool := false
  deriving DecidableEq, Repr

/-- A VERT_RES record: one word a slot and the window's start tick (R92). -/
structure LfResult where
  s0 : LfRes := {}
  s1 : LfRes := {}
  s2 : LfRes := {}
  winTick : W32 := 0
  deriving DecidableEq, Repr

/-- Vert. -/
structure Vert where
  /-- LF_POP -/
  pop : BitVec 12 := 0
  /-- LF_SVC, IN_SERVICE -/
  svc : BitVec 12 := 0
  /-- LF_EVENT -/
  event : BitVec 12 := 0
  /-- LF_NOM_FREQ, F_LF in units of 2.5 Hz -/
  nomFreq : W16 := 0xC350
  overtemp : Bool := false
  /-- the model's own clock when OVERTEMP was set last -/
  hotAt : Nat := 0
  tuneWe : Bool := false
  /-- the channel whose check or sweep is in progress, or has yielded to a posting and holds its place (R91) -/
  sweeping : Option (Fin 12) := none
  dutyHold : Bool := false
  ch : Vector LfChannel 12 := Vector.replicate 12 {}
  slot : Vector LfSlot 3 := Vector.replicate 3 {}
  /-- FREQ of the NCO, and whether the frequency trim of the channel in S0 applies -/
  freq : W16 := 0
  freqTrim : Bool := false
  /-- where the NCO reference has phase 0: 32 × T_L + FINE of the last START (R68) -/
  nco : Nat := 0
  /-- channels that have not made their tracking step since the last HALT (R444) -/
  trackDue : BitVec 12 := 0
  /-- tick of the last WAIT_TB, W_T of a SEND that follows -/
  lastTb : Nat := 0
  send : Option LfSend := none
  windows : List LfWindow := []
  res : Vector LfResult 16 := Vector.replicate 16 {}
  /-- LF data buffer, 32 bytes (R55, R92) -/
  buf : Mem := []
  /-- program memory, 512 words: byte address 2n holds the low byte of word n -/
  prog : Mem := []
  nProgs : Nat := 0
  nFaults : Nat := 0
  nDuty : Nat := 0
  nRetune : Nat := 0
  /-- F_VLF is below V_LFUV (R476) -/
  vlfUv : Bool := false
  deriving DecidableEq, Repr

/-! ### Tenné: UHF transceiver and link sequencer (R121 to R125, R184 to R202) -/

/-- A channel-table entry (R184). -/
structure TnChannel where
  freq : BitVec 30 := 0
  sniff : Bool := false
  pwrMax : BitVec 6 := 0
  rxThr : Byte := 52
  deriving DecidableEq, Repr

/-- The UHF synthesiser (R123, R189). -/
structure TnSynth where
  entry : Fin 8 := 0
  /-- started and not yet stopped -/
  on : Bool := false
  locked : Bool := false
  lockedAt : Nat := 0
  deriving DecidableEq, Repr

/-- An RX_FRAME in progress (R123). -/
structure TnRxFrame where
  format : Fin 3
  rcd : Nat
  /-- tick of execution, and SEARCH -/
  start : Nat
  search : Nat
  deriving DecidableEq, Repr

/-- Where an untimed transmit stands (R192). -/
inductive UtxPhase where
  | idle | waiting | synth | sending
  deriving DecidableEq, Repr

/-- The untimed transmit (R192, R201). -/
structure Utx where
  entry : BitVec 3 := 0
  profile : BitVec 3 := 1
  step : BitVec 6 := 0
  coex : BitVec 2 := 0
  pri : Bool := false
  /-- TN_UTX_NB, TN_UTX_DL -/
  nb : W32 := 0
  dl : W32 := 0
  /-- TN_UTX_RES.STATUS, and DONE -/
  res : W16 := 0
  phase : UtxPhase := .idle
  deriving DecidableEq, Repr

/-- One coexistence pair (R195 to R199). -/
structure CoexPair where
  enabled : Bool := false
  failOpen : Bool := true
  /-- REQ and PRI as Celeste or the untimed transmit raises them on the field side -/
  req : Bool := false
  pri : Bool := false
  /-- REQ and PRI pins on the host side -/
  reqPin : Bool := false
  priPin : Bool := false
  /-- GNT pin, and GNT as the field side last heard it -/
  gntPin : Bool := false
  gnt : Bool := false
  deriving DecidableEq, Repr

/-- Tenné's UHF side. -/
structure Tenne where
  chan : Vector TnChannel 8 := Vector.replicate 8 {}
  /-- band-cache entries that hold a VCO calibration (R189) -/
  cache : BitVec 8 := 0
  /-- die temperature at which the cache was filled -/
  cacheTemp : Option Int := none
  /-- a background VCO calibration: the tick at which it ends, and the die temperature (R189, R203) -/
  vcal : Option (Nat × Int) := none
  /-- a background calibration of every entry is owed (R189, R190) -/
  refill : Bool := false
  progWe : Bool := false
  synth : TnSynth := {}
  rxOn : Bool := false
  rxProfile : Fin 3 := 0
  txOn : Bool := false
  txProfile : Fin 3 := 0
  txStep : BitVec 6 := 0
  /-- end tick and length of the last offset cancellation (R187) -/
  dcocAt : Option (Nat × Nat) := none
  /-- the offset estimate frozen at the last SYNC, and whether it was valid for that frame (R187) -/
  dcocFrozen : Option (Nat × Nat) := none
  dcocOk : Bool := false
  rxFrame : Option TnRxFrame := none
  /-- receive frame buffer, 64 bytes of records (R124), and transmit frame buffer (R55) -/
  rxbuf : Mem := []
  txbuf : Mem := []
  utx : Utx := {}
  /-- the model's own clock at which the last sniff began, or Amber was entered (R193) -/
  sniffAt : Nat := 0
  /-- a sniff's SYNC search runs until this tick (R193) -/
  sniffUntil : Option Nat := none
  coex : Vector CoexPair 2 := Vector.replicate 2 {}
  /-- program memory, 256 words, low byte of word n at 2n -/
  prog : Mem := []
  nDecoded : Nat := 0
  nCollided : Nat := 0
  nEmpty : Nat := 0
  nSniffHit : Nat := 0
  nSniffFalse : Nat := 0
  nUtxSent : Nat := 0
  nUtxAbandon : Nat := 0
  nCoex0 : Nat := 0
  deriving DecidableEq, Repr

/-! ### Token contexts: press counters, learned offsets (R27, R113, R166) -/

/-- What the device keeps of one enrolled token. -/
structure TokenCtx where
  /-- enrolled (R255) -/
  valid : Bool := false
  id : W64 := 0
  /-- L, the last accepted press counter -/
  ctrL : W32 := 0
  /-- tick at which L was accepted -/
  ctrAt : Option Nat := none
  /-- resynchronisation candidate: its CTR and the tick it was held -/
  resync : Option (W32 × Nat) := none
  /-- ticks of MAC failures naming this ID in the last 60 s -/
  macFails : List Nat := []
  /-- telegrams naming this ID are ignored until this tick -/
  macBlock : Option Nat := none
  /-- no Weigh yet since the cold start or roster load (R27) -/
  firstUse : Bool := true
  /-- learned offset o, in units of Config's choice (R166, R168) -/
  offset : Int := 0
  weighed : Nat := 0
  /-- the passive path is ignored until this tick after a RELAY verdict (R167) -/
  relayUntil : Option Nat := none
  deriving DecidableEq, Repr

/-! ### Azure (R128 to R159) -/

/-- CLASS of a UWB port (R144, R157). -/
inductive AzClass where
  | normal | weak | fault | unpopulated
  deriving DecidableEq, Repr

/-- One antenna port: AZ_PORT_STAT, AZ_DLY and the counts behind R144. -/
structure AzPort where
  /-- LB_AMP, signed, 0.5 dB -/
  lbAmp : Byte := 0
  /-- LB_DLY, signed, units -/
  lbDly : Byte := 0
  cls : AzClass := .unpopulated
  strikes : Nat := 0
  vswr : Bool := false
  /-- consecutive loopbacks that met each row of R144 -/
  nFault : Nat := 0
  nWeak : Nat := 0
  nGood : Nat := 0
  txDly : W16 := 0
  rxDly : W16 := 0
  /-- RTC second of the steward's last test request, and whether one waits -/
  testAt : Option Nat := none
  testReq : Bool := false
  deriving DecidableEq, Repr

/-- A PHY profile entry (R130). -/
structure AzPhy where
  chan : BitVec 1 := 1
  prf : BitVec 2 := 0
  code : BitVec 5 := 10
  psr : BitVec 3 := 4
  sfd : BitVec 2 := 1
  sp : BitVec 2 := 3
  stsLen : BitVec 2 := 1
  stsSeg : BitVec 2 := 0
  rate : BitVec 2 := 0
  stsqMin : Byte := 153
  deriving DecidableEq, Repr

/-- The STS key port and AZ_KEY_CTRL (R137, R138, R157). -/
structure AzKey where
  /-- 32 bytes -/
  port : Mem := []
  valid : Bool := false
  orphanPend : Bool := false
  /-- exchanges begun under the loaded key -/
  used : Nat := 0
  loadedAt : Nat := 0
  /-- the key-store slot whose invalidation orphans the key -/
  parent : Option (Fin 224) := none
  deriving DecidableEq, Repr

/-- An RX_FRAME in progress (R146). -/
structure AzRxFrame where
  /-- F = 3 REPORT, else RESP -/
  report : Bool
  rcd : Fin 4
  /-- tick of execution, and SEARCH -/
  start : Nat
  search : Nat
  deriving DecidableEq, Repr

/-- The last frame that Azure sent (R129, R133, R136): its PSDU with FCS, empty with SP 3, and the V of its STS. -/
structure AzAir where
  psdu : Bytes
  v : Bytes
  /-- tick of its RMARKER -/
  mark : Nat
  deriving DecidableEq, Repr

/-- A LOOPBACK in progress. -/
structure AzLoop where
  tx : Fin 6
  rx : Fin 6
  rcd : Fin 4
  start : Nat
  deriving DecidableEq, Repr

/-- Azure. DEDUCED, log 55. -/
structure Azure where
  pop : BitVec 6 := 0
  svc : BitVec 6 := 0
  event : BitVec 6 := 0
  /-- CHAIN_OK for receive chains A and B -/
  chainA : Bool := true
  chainB : Bool := true
  /-- CAL of AZ_STATUS, an internal loopback in progress, reads 1 before this tick (R157) -/
  calUntil : Nat := 0
  progWe : Bool := false
  ports : Vector AzPort 6 := Vector.replicate 6 {}
  phy : Vector AzPhy 8 := Vector.replicate 8 {}
  key : AzKey := {}
  /-- the PHY entry in force and its synthesiser -/
  phyEntry : Fin 8 := 0
  synthOn : Bool := false
  locked : Bool := false
  lockedAt : Nat := 0
  rxA : Option (Fin 6) := none
  rxB : Option (Fin 6) := none
  txPort : Option (Fin 6) := none
  txBack : BitVec 6 := 0
  rxFrame : Option AzRxFrame := none
  loop : Option AzLoop := none
  /-- tick of the last WAIT_TB, from which LEAD counts -/
  lastTb : Nat := 0
  /-- records that the exchange in flight has written -/
  recsUsed : BitVec 4 := 0
  /-- records received with chain B on (R142) -/
  recB : BitVec 4 := 0
  air : Option AzAir := none
  /-- PSDU of the last RESP, which no register shows (R141) -/
  resp : Bytes := []
  /-- timestamp buffer, 64 bytes (R149) -/
  tsbuf : Mem := []
  /-- program memory, 512 words, low byte of word n at 2n -/
  prog : Mem := []
  nXchg : Nat := 0
  nValid : Nat := 0
  nStsFail : Nat := 0
  nLost : Nat := 0
  nMacFail : Nat := 0
  /-- invalid exchanges by their first failing check: CLASS, PSDU, MAC_R, D_B1, CFO, ToF (R141) -/
  nInvalid : Vector Nat 6 := Vector.replicate 6 0
  nOrphan : Nat := 0
  nPortFault : Nat := 0
  nLoopback : Nat := 0
  deriving DecidableEq, Repr

/-! ### Presence: stages, placements, sessions and lock-outs (R24 to R29, R153 to R183) -/

/-- The seven pipeline stages. -/
inductive Stage where
  | wake | hail | prove | range | place | weigh | grant
  deriving DecidableEq, Repr

/-- What a run of the pipeline serves: an approach, a tracking round or a start path (R169, R478). -/
inductive RunKind where
  | approach | tracking | start
  deriving DecidableEq, Repr

/-- A placement as Place delivers it (R155). -/
structure Placement where
  pos : Option Pos := none
  /-- the solution behind `pos`, µm -/
  um : Int × Int × Int := (0, 0, 0)
  sigma : Nat := 0xFFFF
  /-- mm, 0xFFFF without a range -/
  range : Nat := 0xFFFF
  zone : Fin 8 := 0
  zoneConf : Bool := false
  noRange : Bool := true
  angles : Nat := 0
  nlos : Bool := false
  degraded : Bool := false
  inconsistent : Bool := false
  pollTick : Nat := 0
  deriving DecidableEq, Repr

/-- One Tint exchange of a token: its signature, its challenge and what Weigh made of it. -/
structure TintExchange where
  sig : Bytes
  nC : W32
  select : Bool
  triple : Fin 16
  /-- run on the primary triple with its own coils (R168) -/
  ownCoils : Bool
  /-- the TRNG offsets of Tint A and Tint B that it carried; none: the bundle's phases (R82) -/
  offs : Bytes := []
  resA : LfResult
  resB : LfResult
  verdict : Option WeighVerdict := none
  /-- fitted or learned offset, and predicted levels A_X to B_Z with it, 0.001 dB -/
  fitO : Int := 0
  levels : List Int := []
  deriving DecidableEq, Repr

/-- Range of a token (R140, R141), with the angle measurements of its exchange: pair, PDOA. -/
structure RangeResult where
  valid : Bool
  /-- µm, when valid -/
  um : Nat
  /-- RESP is NLOS -/
  nlos : Bool
  pollTick : Nat
  /-- transmit port, and channel 9 rather than 5 -/
  txPort : Fin 6
  ch9 : Bool
  angles : List (Fin 6 × Int)
  /-- a port or pair was replaced, or none was left in service (R145) -/
  subst : Bool := false
  deriving DecidableEq, Repr

/-- A challenge on the way and its reply (R105, R118). -/
structure Challenge where
  /-- the tokens whose K_T is tried, in roster order -/
  cands : List (Fin 160)
  nC : W32
  select : Bool
  triple : Fin 16
  /-- Vert entry of the frame, Tenné entry of its reply window -/
  frame : Fin 128
  reply : Fin 128
  /-- the TRNG offsets that it carries (R82) -/
  offs : Bytes := []
  /-- tick of the nominal end of its Prove reply (R108) -/
  replyEnd : Nat := 0
  /-- SIG and WEAK of a decoded reply -/
  answer : Option (Bytes × Nat) := none
  resA : LfResult := {}
  resB : LfResult := {}
  /-- how the candidates' verification jobs ended -/
  results : List (Fin 160 × Status) := []
  deriving DecidableEq, Repr

/-- One token within a run. -/
structure TokenRun where
  ctx : Fin 160
  slot : Nat := 0
  hailAlias : Byte := 0
  /-- nonce of the hail that it last answered -/
  nH : Byte := 0
  /-- it comes from the tracked set: one Tint exchange in either profile (R182) -/
  tracked : Bool := false
  /-- N_C of the Prove that verified most recently -/
  proven : Option W32 := none
  /-- tick of the verified Prove, which orders the exchanges of Range (R156) -/
  provenAt : Nat := 0
  /-- tick of the nominal end of that Prove's reply (R139) -/
  replyEnd : Nat := 0
  /-- tick of the RMARKER of its last POLL, and the exchange index (R136, R155) -/
  poll : Option (Nat × Nat) := none
  exchanges : List TintExchange := []
  /-- lost replies (R118) -/
  lost : Nat := 0
  /-- its first Tint exchange of this run went before a steward restart (R82) -/
  again : Bool := false
  /-- the tick at which the repeat of a frame that did not go out starts (R91) -/
  repeatAt : Option Nat := none
  /-- the last reply window was denied: the repeat has PRIO 3 (R196, R198) -/
  urgent : Bool := false
  /-- MAC_R of the exchange's REPORT, once verified -/
  macR : Option Bool := none
  invalidRanges : Nat := 0
  range : Option RangeResult := none
  placement : Option Placement := none
  verdict : Option WeighVerdict := none
  /-- the further exchange after INCONCLUSIVE is under way (R166) -/
  further : Bool := false
  /-- the run has ended for this token -/
  ended : Bool := false
  deriving DecidableEq, Repr

/-- A verified press telegram that waits (R29). -/
structure HeldPress where
  ctx : Fin 160
  ctr : W32
  btn : Byte
  flags : Byte
  /-- tick of the burst's end -/
  burstEnd : Nat
  deriving DecidableEq, Repr

/-- A run of the pipeline. -/
structure Run where
  kind : RunKind
  stage : Stage
  /-- the profiles with which the run began (R24) -/
  deep : Bool
  double : Bool
  /-- handle-table entries touched -/
  touched : BitVec 4 := 0
  /-- it followed a touch that woke the device (R206) -/
  touchWake : Bool := false
  /-- hail rounds classed and not jammed; jammed rounds; denied slot windows (R117, R198) -/
  round : Nat := 0
  jammed : Nat := 0
  denied : Nat := 0
  /-- a frame of the round in hand was planned, and with CMD HAIL_NEW (R102, R117) -/
  hailed : Bool := false
  hailNew : Bool := false
  /-- the tick at which the last hail frame ends (R100) -/
  hailEnd : Option Nat := none
  /-- enrolled tokens whose alias job is not queued yet, and the tags of those that are (R103) -/
  aliasDue : List (Fin 160) := []
  aliasTags : List (Fin 48) := []
  /-- frame entry and slot-window entry of the hail round on the way -/
  hailPlan : Option (Fin 128 × Fin 128) := none
  /-- a press window is open, until this tick at the latest (R117) -/
  pressWindow : Option Nat := none
  /-- the next challenge may be an open one (R117) -/
  openOk : Bool := false
  toks : List TokenRun := []
  /-- contexts that became candidates in a hail round of this run (R29) -/
  candidates : List (Fin 160) := []
  chals : List Challenge := []
  /-- frame entry and reply-window entry of each challenge planned (R91) -/
  plans : List (Fin 128 × Fin 128) := []
  degraded : Bool := false
  /-- step of the start path, 1 to 3 (R478) -/
  path : Nat := 0
  /-- START tick of the first exchange of the token that is ranged now (R139) -/
  rangeStart : Option Nat := none
  /-- an exchange of that token was denied, and the channel 9 PHY entry on which it is repeated (R156, R196) -/
  rangeDenied : Bool := false
  rangeAlt : Option Nat := none
  /-- tags of the VERDICT jobs submitted and not completed -/
  verdicts : List (Fin 48) := []
  deriving DecidableEq, Repr

/-- A tracked token (R169, R170). -/
structure Tracked where
  ctx : Fin 160
  placement : Placement
  /-- code of the token's last Weigh; 0xFF without one -/
  verdict : Byte := 0xFF
  lastExchange : Nat
  /-- end of the last tracking exchange that brought no proof (R169) -/
  lastTry : Nat := 0
  lost : Nat := 0
  /-- consecutive tracking placements in zone 7 or zone 0 -/
  away : Nat := 0
  hailAlias : Byte := 0
  nH : Byte := 0
  deriving DecidableEq, Repr

/-- The entry session (R174). -/
structure EntrySession where
  id : W16
  doors : BitVec 4
  deadline : Nat
  ctx : Fin 160
  deriving DecidableEq, Repr

/-- The start session (R175). -/
structure StartSession where
  id : W16
  ctx : Fin 160
  deadline : Nat
  deriving DecidableEq, Repr

/-- A pending start request (R213, R478). -/
structure StartRequest where
  since : Nat
  lastTry : Nat
  /-- it came during an approach and is served after Grant (R29) -/
  held : Bool := false
  /-- a start verdict was submitted for it -/
  sent : Bool := false
  deriving DecidableEq, Repr

/-- A failure list and its lock-out: passive path (R176, R177), HF path (R212), credentials (R238). -/
structure Lockout where
  /-- RTC times of the failures in the list -/
  fails : List Nat := []
  /-- locked out until this RTC second; 0 none -/
  endAt : Nat := 0
  deriving DecidableEq, Repr

/-- The seat occupant under R171. -/
structure Seat where
  logged : Option (Fin 160) := none
  cand : Option (Fin 160) := none
  rounds : Nat := 0
  since : Nat := 0
  deriving DecidableEq, Repr

/-- Accumulators of a primary triple's Tint (R168): sum in 0.001 dB and count. -/
structure TriAcc where
  sumA : Int := 0
  nA : Nat := 0
  sumB : Int := 0
  nB : Nat := 0
  deriving DecidableEq, Repr

/-- Per-vehicle field calibration (R162). -/
structure FieldCal where
  gain : Vector Int 12 := Vector.replicate 12 0
  phAdj : Vector Int 12 := Vector.replicate 12 0
  triA : Vector Int 16 := Vector.replicate 16 0
  triB : Vector Int 16 := Vector.replicate 16 0
  deriving DecidableEq, Repr

/-- Presence state that the steward keeps. -/
structure Presence where
  /-- current profiles: Deep, Double; and the pair that takes effect at the next Wake (R24) -/
  deep : Bool := true
  double : Bool := true
  nextDeep : Bool := true
  nextDouble : Bool := true
  run : Option Run := none
  /-- the run that ended last: its placements serve the RESULTs still on their way (R171) -/
  lastRun : Option Run := none
  /-- presses that wait for Grant (R29) -/
  heldPress : List HeldPress := []
  /-- a touch, or an approach's wake, that waits for the end of a start path or an HF exchange: handles touched, and
  whether it was a touch wake (R29, R214) -/
  heldTouch : Option (BitVec 4 × Bool) := none
  /-- posted scheduler events, oldest first (R38) -/
  schedEvents : List (Fin 64) := []
  /-- current hail nonce, and full aliases A_H computed for it (R101, R103) -/
  nH : Byte := 0
  aliases : List (Fin 160 × Bytes) := []
  tracked : List Tracked := []
  entry : Option EntrySession := none
  start : Option StartSession := none
  startReq : Option StartRequest := none
  passive : Lockout := {}
  hf : Lockout := {}
  seat : Seat := {}
  acc : Vector TriAcc 16 := Vector.replicate 16 {}
  cal : FieldCal := {}
  deriving DecidableEq, Repr

/-! ### HF reader (R204 to R214, R228) -/

/-- Where an HF presentation stands (R207, R208, R211). -/
inductive HfPhase where
  | idle | guard | active | authSent | accepted
  deriving DecidableEq, Repr

/-- The HF reader. -/
structure HfReader where
  field : Bool := false
  lpcd : Bool := false
  detect : Bool := false
  done : Bool := false
  rxResult : BitVec 2 := 0
  thrA : Byte := 8
  thrPh : Byte := 20
  fdt : W16 := 0
  txLen : Byte := 0
  rxLen : Byte := 0
  txbuf : Mem := []
  rxbuf : Mem := []
  /-- baseline amplitude and phase (0.1°) in sixteenths, sums while it is being learned; pings learned so far (R205) -/
  baseAmp : Int := 0
  basePh : Int := 0
  learned : Nat := 0
  /-- tick of the last ping -/
  pingAt : Nat := 0
  /-- the card on the pad was served; pings without it since (R207) -/
  served : Bool := false
  lostPings : Nat := 0
  phase : HfPhase := .idle
  detectedAt : Nat := 0
  /-- no command sequence starts before this tick (R207) -/
  offUntil : Nat := 0
  /-- RATE of the frame sent last: 0 106, 1 212, 2 424 kb/s -/
  rate : BitVec 2 := 0
  /-- N_R of the HAUTH on the way (R208) -/
  nR : Bytes := []
  /-- UID bits known at the cascade level in hand (R214) -/
  uid : List Bool := []
  /-- VERDICT job for which the HCONF to a context waits, and its N_K (R208) -/
  conf : Option (Fin 48 × Fin 160 × Bytes) := none
  cards : Nat := 0
  /-- HF linger runs until this tick (R206) -/
  lingerUntil : Option Nat := none
  /-- detection is suspended from Wake to Grant (R29, R205) -/
  suspended : Bool := false
  nDetect : Nat := 0
  nFalse : Nat := 0
  nAccept : Nat := 0
  nFail : Nat := 0
  deriving DecidableEq, Repr

/-! ### The yard tag (R215 to R227) -/

/-- One physical copy of a tag page (R224). -/
structure TagCopy where
  /-- 64 bytes -/
  data : Mem := []
  flag : W16 := 0
  gen : Byte := 0
  deriving DecidableEq, Repr

/-- A page of tag user memory: two copies. -/
structure TagPage where
  c0 : TagCopy := {}
  c1 : TagCopy := {}
  deriving DecidableEq, Repr

/-- Gen2 state of the tag. -/
inductive TagState where
  | ready | arbitrate | reply | acknowledged | openState | secured
  deriving DecidableEq, Repr

/-- A steward access of the tag memory that waits or runs (R226). -/
structure TagAccess where
  /-- page writes still to make: page, offset within it, bytes -/
  writes : List (Fin 32 × Nat × Bytes) := []
  /-- words to read: first and count -/
  read : Option (Nat × Nat) := none
  /-- tick of the request; once `shadowed`, of step 2 -/
  since : Nat
  /-- the first page's shadow is written and checked; step 3 waits for a reader Read's reply -/
  shadowed : Bool := false
  /-- its shadow mismatches a second time (R224) -/
  bad : Bool := false
  /-- CMD slot and CTAG of the command that waits for it -/
  cmd : Option (Fin 16 × W16) := none
  deriving DecidableEq, Repr

/-- The tag domain. -/
structure Tag where
  readerHold : Bool := false
  /-- F_VBAT is present; without it the tag runs on the reader's field alone (R216) -/
  supplied : Bool := false
  tagFault : Bool := false
  pages : Vector TagPage 32 := Vector.replicate 32 {}
  /-- steward accesses that wait or run, oldest first -/
  steward : List TagAccess := []
  /-- the two copies of session counter c, four bytes (R217, R224) -/
  ridPage : TagPage := {}
  /-- the session has not replied yet; and its first reply is sent, c + 1 is being committed (R217) -/
  ridPending : Bool := false
  ridCommit : Bool := false
  authFails : Nat := 0
  kRid : Option Bytes := none
  key0 : Option Bytes := none
  key1 : Option Bytes := none
  /-- User-bank write lock, and its permanence (R221) -/
  userLocked : Bool := false
  userPerma : Bool := false
  /-- Untraceable: hidden TID part (0 none, 1 some, 2 all), PUBLIC hidden -/
  tidHide : Nat := 0
  publicHide : Bool := false
  powered : Bool := false
  st : TagState := .ready
  /-- slot counter, Q and session of the inventory round; RN16 and handle -/
  slotCtr : Nat := 0
  q : Nat := 0
  session : Fin 4 := 0
  rn16 : W16 := 0
  handle : W16 := 0
  sl : Bool := false
  inventoried : BitVec 4 := 0
  /-- clock at which the S1 flag was last set to B -/
  s1At : Nat := 0
  /-- link parameters of the round: DR, M, TRext -/
  dr : Bool := false
  miller : BitVec 2 := 0
  trext : Bool := false
  /-- a truncated reply is due: the EPC bit from which the rest is sent -/
  trunc : Option Nat := none
  /-- key of the session's successful IAM1 or MAM1 (R219) -/
  authKey : Option Nat := none
  authTried : Bool := false
  rid : Bytes := []
  /-- data the tag backscattered last -/
  reply : Bytes := []
  nFault : Nat := 0
  nSession : Nat := 0
  nAuthOk : Nat := 0
  nAuthFail : Nat := 0
  /-- copies in snapshot group 3 of the tag counters, made at each entry into Chalk (R229) -/
  cSession : Nat := 0
  cAuthOk : Nat := 0
  cAuthFail : Nat := 0
  cBusy : Nat := 0
  nBusy : Nat := 0
  deriving DecidableEq, Repr

/-! ### Gules job queue (R265 to R293) -/

/-- Where a job stands. -/
inductive JobPhase where
  /-- HOLD = 1, waits for its RELEASE firing -/
  | held
  | ready
  | running
  /-- completed; the tag is held until it is freed -/
  | done
  deriving DecidableEq, Repr

/-- A job in flight. -/
structure Job where
  op : JobOp
  w : JobWords
  /-- submission order -/
  order : Nat
  /-- GEN of SLOT at acceptance (R244) -/
  gen : W32
  /-- GEN of SLOT2 at acceptance, where it is the peer of ECDH -/
  gen2 : W32 := 0
  /-- privileged-mode bit at submission (R247) -/
  privileged : Bool
  /-- Deep at submission (R294) -/
  deep : Bool
  phase : JobPhase
  status : Status := .pending
  /-- launch entry whose RELEASE firing released the job -/
  entry : Option (Fin 128) := none
  /-- the slot was invalidated or orphaned while the job ran (R252) -/
  orphaned : Bool := false
  /-- output is key-class and reads as 0 (R292) -/
  keyClass : Bool := false
  /-- the job finishes with its output zeroed (R237, R268) -/
  suppress : Bool := false
  /-- the job took the slot's last use (R249) -/
  lastUse : Bool := false
  /-- the key in working shares once the job runs, one pair for every engine that holds it: key xor M, and M, drawn at the job's load
  (R241, R254, R279) -/
  shares : List (Bytes × Bytes) := []
  /-- bytes taken from the staging window so far (R274) -/
  seg : Bytes := []
  /-- its output has been delivered: read or moved (R252) -/
  delivered : Bool := false
  /-- engines the job runs on: 1 Gules-A, 2 Gules-B, 3 both, 4 public-key engine, 8 hash engine, 16 none -/
  engine : Nat := 0
  deriving DecidableEq, Repr

/-- A completion record (R267, R292). -/
structure JobDone where
  tag : Fin 48
  status : Status
  tick : Nat
  deriving DecidableEq, Repr

/-- Proof records of one context (R270): verification tick and slot of each. -/
structure ProofRec where
  /-- Prove: N_C, tick, slot -/
  prove : Option (W32 × Nat × Nat) := none
  /-- REPORT: N_C, tick, slot -/
  report : Option (W32 × Nat × Nat) := none
  /-- press: CTR, tick, slot -/
  press : Option (W32 × Nat × Nat) := none
  /-- HF: tick, slot -/
  hf : Option (Nat × Nat) := none
  /-- N_H, FORM and N_C of the challenge on the way, and of the Prove that verified most recently (R135, R270) -/
  chal : Option (Byte × Byte × W32) := none
  sess : Option (Byte × Byte × W32) := none
  deriving DecidableEq, Repr

/-- A nonce record (R277). -/
structure NonceRec where
  slot : Fin 224
  ki : W32
  /-- NEXT as committed -/
  next : Nat
  /-- the counter the next seal uses -/
  ctr : Nat
  deriving DecidableEq, Repr

/-- A verdict frame as the latch stages it (R272). -/
structure VerdictFrame where
  grant : Byte
  ctx : Byte
  zone : Byte
  doors : BitVec 4
  epoch : W32
  deriving DecidableEq, Repr

/-- Gules's job queue, engines and records. -/
structure Gules where
  jobs : Vector (Option Job) 48 := Vector.replicate 48 none
  order : Nat := 0
  /-- GQ_SUBMIT0 to GQ_SUBMIT3 (R266) -/
  sub : Vector (BitVec 32) 4 := Vector.replicate 4 0
  /-- job input and output buffers, 256 bytes a tag, at 256 × tag -/
  inBuf : Mem := []
  outBuf : Mem := []
  /-- held output buffer (R274), and whether its plaintext is released -/
  held : Bytes := []
  heldOk : Bool := false
  /-- slots under which the held buffer's content stands (R252) -/
  heldBy : List Nat := []
  dones : List JobDone := []
  doneTick : W32 := 0
  engAOut : Bool := false
  engBOut : Bool := false
  trngOut : Bool := false
  trngRestart : Bool := false
  trngFails : Nat := 0
  /-- DRBG requests since the last reseed -/
  drbgReqs : Nat := 0
  /-- tick of the DRBG's last seeding (R283) -/
  drbgAt : Nat := 0
  /-- N_H and N_C last drawn (R103, R270) -/
  nH : Byte := 0
  nC : W32 := 0
  /-- the Tint offsets drawn with N_C (R82) -/
  offs : Bytes := []
  /-- N_H and N_C that no frame has carried yet (R82, R103) -/
  nHFresh : Bool := false
  nCFresh : Bool := false
  proofs : Vector ProofRec 160 := Vector.replicate 160 {}
  nonces : List NonceRec := []
  /-- ticks of FAULT_MISMATCH completions in the last 10 s (R281), and a known-answer test is due -/
  mismatches : List Nat := []
  katDue : Bool := false
  /-- privileged-mode bit of the Purpure bus master (R247) -/
  privileged : Bool := false
  latch : Option VerdictFrame := none
  nJobs : Nat := 0
  nPaired : Nat := 0
  nAuthFail : Nat := 0
  nOrphan : Nat := 0
  nMismatch : Nat := 0
  nFull : Nat := 0
  nTrng : Nat := 0
  nNblock : Nat := 0
  deriving DecidableEq, Repr

/-! ### Real-time clock (R326) and ledger (R324 to R331) -/

/-- The RTC in Sable. -/
structure Rtc where
  /-- seconds since 2000-01-01 -/
  secs : W32 := 0
  /-- fraction in 1⁄32,768 s -/
  frac : BitVec 15 := 0
  /-- TQ[1:0] drift state, TQ[3:2] origin -/
  drift : BitVec 2 := 0
  origin : BitVec 2 := 0
  /-- drift windows accumulated since the cold start, to 60 (R444) -/
  windows : Nat := 0
  /-- frequency coefficient of the last drift window -/
  coeff : Int := 0
  crystal : Bool := false
  /-- ticks in units of 1⁄9,375 RTC period, carried to the next period (32.768 kHz against 38.4 MHz) -/
  acc : Nat := 0
  deriving DecidableEq, Repr

/-- A ledger entry that has not received its INDEX: bytes 0 to 3 and 8 to 39 of R324. -/
structure LedgerReq where
  type : Byte
  flags : Byte := 0
  slot : Byte := 0xFF
  zone : Byte := 0
  rtcS : W32 := 0
  time : W16 := 0
  tb : W32 := 0
  tid : Bytes := []
  odo : W32 := 0xFFFFFFFF
  /-- ten DETAIL bytes -/
  detail : Bytes := []
  deriving DecidableEq, Repr

/-- A programmed slot of the ledger ring (R324, R329). -/
structure LedgerEntry where
  index : W32
  /-- place in ring order, counted on over the laps: the slot is this modulo 16,384 -/
  pos : Nat
  /-- 64 bytes -/
  data : Bytes
  /-- a group of it is uncorrectable -/
  ue : Bool := false
  /-- its groups reported a correction as it was read at S5 (R308) -/
  fixed : Bool := false
  deriving DecidableEq, Repr

/-- The ledger (R327 to R331). -/
structure Ledger where
  /-- slots programmed and not erased, in ring order -/
  ring : List LedgerEntry := []
  /-- sectors erased (64 entries each): entries below this INDEX are discarded -/
  nextIndex : W32 := 0
  /-- CHAIN of the newest entry -/
  chain : Bytes := []
  /-- event entries since the newest complete checkpoint pair -/
  sinceCkpt : Nat := 0
  /-- a checkpoint pair is due and waits for its signature since this tick -/
  ckptSince : Option Nat := none
  ckptFails : Nat := 0
  /-- the 16-entry queue, and entries waiting outside it in working SRAM -/
  queue : List LedgerReq := []
  outside : List LedgerReq := []
  /-- LPEND, 16 entries (R330) -/
  lpend : List LedgerReq := []
  /-- OR_LEDGER_ACK -/
  ack : W32 := 0
  ledgerHigh : Bool := false
  deriving DecidableEq, Repr

/-! ### Key store, root and life cycle (R231 to R262) -/

/-- LC_STATE.STATE (R236, R262). -/
inductive LifeCycle where
  | blank | provisioned | fielded | servicing | retired
  deriving DecidableEq, Repr

/-- An OTP root area: shares B and A, CHECK and the ROOT_DONE fuse (R231). An unprogrammed bit reads 0. -/
structure RootArea where
  shareB : Bytes := List.replicate 32 0
  shareA : Bytes := List.replicate 32 0
  check : Bytes := List.replicate 4 0
  committed : Bool := false
  deriving DecidableEq, Repr

/-- TYPE of a slot (R243). -/
inductive KeyType where
  | empty | aes128 | aes256 | secret256 | p256priv | p384priv | p256pub | p384pub
  deriving DecidableEq, Repr

/-- STATE of a slot (R243). -/
inductive SlotState where
  | empty | valid | orphaned | expired | exhausted | locked
  deriving DecidableEq, Repr

/-- The root a record or a key rests on (R235). -/
inductive RootSel where
  | blank | provisioned | fielded | servicing | debug
  deriving DecidableEq, Repr

/-- A slot's NV record (R241): the four attribute words, the key as ciphertext or, for a public key, in the clear, IV and tag or CMAC;
with EXPIRE_RESET the attribute words alone (R250). -/
structure KeyRecord where
  type : KeyType
  usage : Byte
  useEn : Bool
  expireReset : Bool
  origin : BitVec 2
  lc : BitVec 3
  parent : Byte
  uses : W16
  pgen : W32
  gen : W32
  body : Bytes
  iv : Bytes := []
  tag : Bytes := []
  deriving DecidableEq, Repr

/-- The Servicing record: the RTC second at which it ends, and its authentication under the Servicing root (R236, R238). -/
structure ServRecord where
  endAt : Nat
  mac : Bytes
  deriving DecidableEq, Repr

/-- A key slot: attribute words (R243), the key in SRAM and the NV record. -/
structure KeySlot where
  type : KeyType := .empty
  usage : Byte := 0
  state : SlotState := .empty
  persist : Bool := false
  expireReset : Bool := false
  useEn : Bool := false
  origin : BitVec 2 := 0
  lc : BitVec 3 := 0
  parent : Byte := 0xFF
  uses : W16 := 0
  pgen : W32 := 0
  gen : W32 := 0
  /-- GEN as the two NV copies of the generation table hold it (R241, R251) -/
  genA : W32 := 0
  genB : W32 := 0
  /-- the key while it is unmasked; none after zeroisation -/
  key : Option Bytes := none
  nv : Option KeyRecord := none
  /-- M, share 1 of the SRAM area; share 0 is the key xor M (R241, R254) -/
  mask : Bytes := List.replicate 48 0
  deriving DecidableEq, Repr

/-- Fuses, root and key store. -/
structure KeyStore where
  area0 : RootArea := {}
  area1 : RootArea := {}
  lcProv : Bool := false
  lcField : Bool := false
  lcRetire : Bool := false
  /-- factory trim of OTP, as the code that Config gives its meaning to (R17, R143) -/
  trim : Nat := 0
  /-- SERIAL of OTP -/
  serial : W64 := 0
  /-- the Servicing record in the key store NV -/
  servicing : Option ServRecord := none
  debug : Bool := false
  /-- RTC second after which a debug session is void (R238); none without a limit -/
  debugEnd : Option Nat := none
  svcLock : Bool := false
  /-- Depot mode (LC_STATE.ROSTER_MODE) -/
  depot : Bool := false
  unmasked : Bool := false
  slots : Vector KeySlot 224 := Vector.replicate 224 {}
  rosterGen : W32 := 0
  /-- last accepted IMPORT_SEQ -/
  importSeq : W32 := 0
  /-- roster epoch, and the count of contexts of the stored roster (R256) -/
  rosterEpoch : W32 := 0
  rosterCount : Nat := 0
  /-- HF_MASK of the stored Depot roster (R256, R394) -/
  hfMask : List (Fin 160) := []
  /-- field-die debug port locked, host-die JTAG limited (R237) -/
  debugLocked : Bool := false
  jtagLimited : Bool := false
  /-- EPC and TID banks of the tag permalocked at Provisioned (R221) -/
  tagPermalock : Bool := false
  deriving DecidableEq, Repr

/-- Credential challenge and failures (R238). -/
structure Credentials where
  chal : Option (Bytes × Nat) := none
  lock : Lockout := {}
  deriving DecidableEq, Repr

/-- Tamper latch and configuration (R258 to R262). -/
structure Tamper where
  src : BitVec 6 := 0
  live : BitVec 6 := 0
  time : W32 := 0
  frac : BitVec 10 := 0
  en : BitVec 6 := 0x3F
  enclPol : Bool := false
  /-- F_TAMPER_IN after its debounce (R258) -/
  pin : Bool := false
  lock : Bool := false
  /-- RTC seconds of recent class E alarms in Chalk (R260) -/
  eTimes : List Nat := []
  /-- a class E alarm waits for its sources to stay 0 for 100 ms -/
  ePending : Bool := false
  /-- start-up step interrupted by an alarm (R261) -/
  step : Option (Fin 16) := none
  /-- Sable's latch holds a TAMPER entry not yet in the ledger -/
  entryDue : Option LedgerReq := none
  /-- the service-lock in force stands in Sable's latch only, not in the key store NV (R436) -/
  lockLatch : Bool := false
  deriving DecidableEq, Repr

/-! ### The record store, rings and legacy window (R295 to R323, R333) -/

/-- A native partition in SYS (R316): first page, size, password digests of R317 where a password is set. -/
structure NativePart where
  first : Nat
  pages : Nat
  readPw : Option Bytes
  writePw : Option Bytes
  deriving DecidableEq, Repr

/-- What the SYS pages hold (R303, R329, R393). -/
structure SysData where
  /-- layout version -/
  layout : W16 := 0
  parts : Vector (Option NativePart) 8 := Vector.replicate 8 none
  ledgerAck : W32 := 0
  bundleSeq : W32 := 0
  digest : Bytes := []
  deriving DecidableEq, Repr

/-- What the CAL pages hold (R303, R168, PRES_PROFILE). -/
structure CalData where
  /-- TRIM, CAP and PH_COMP of each channel -/
  lf : Vector (Int × Nat × Int) 12 := Vector.replicate 12 (0, 0, 0)
  cal : FieldCal := {}
  /-- TX_DLY and RX_DLY of each port -/
  uwb : Vector (Nat × Nat) 6 := Vector.replicate 6 (0, 0)
  coeff : Int := 0
  cache : BitVec 8 := 0
  cacheTemp : Option Int := none
  /-- Deep and Double as PRES_PROFILE persisted them -/
  profile : Option (Bool × Bool) := none
  deriving DecidableEq, Repr

/-- What the ROSTER pages hold (R303, R255 to R257). -/
structure RosterData where
  depot : Bool := false
  epoch : W32 := 0
  count : Nat := 0
  /-- token ID of each enrolled context -/
  ids : Vector (Option W64) 160 := Vector.replicate 160 none
  hfMask : List (Fin 160) := []
  deriving DecidableEq, Repr

/-- One telemetry total (R448): value, SAT, and the counter at the previous fold. -/
structure TelemTotal where
  total : W64 := 0
  sat : Bool := false
  base : Nat := 0
  deriving DecidableEq, Repr

/-- What the TELEM pages hold (R448, R449). -/
structure TelemData where
  totals : Vector TelemTotal 76 := Vector.replicate 76 {}
  foldS : W32 := 0
  chalkS : Nat := 0
  cold : Nat := 0
  deriving DecidableEq, Repr

/-- One NV copy of a page (R295, R298): its data bytes and the four words of its trailer, which read 0xFFFF_FFFF where nothing is
programmed. -/
structure NvCopy where
  /-- bytes programmed from the first on; those behind them are erased and read 0xFF -/
  data : Bytes := []
  seq : W32 := 0xFFFFFFFF
  txn : W32 := 0xFFFFFFFF
  crc : W32 := 0xFFFFFFFF
  commit : W32 := 0xFFFFFFFF
  /-- a group of it is uncorrectable (R296) -/
  ue : Bool := false
  /-- its ECC groups reported a correction as it was read at S5 (R308) -/
  fixed : Bool := false
  deriving DecidableEq, Repr

/-- The two copies of a record-store page, of a legacy page or of the legacy status page; `worn`: a commit failed its second
read-back (R300). -/
structure NvPage where
  c0 : NvCopy := {}
  c1 : NvCopy := {}
  worn : Bool := false
  deriving DecidableEq, Repr

/-- A record-store page. -/
structure StorePage where
  nv : NvPage := {}
  /-- SRAM shadow of a page of the CFG and NATIVE partitions; the other partitions' SRAM is their own state -/
  shadow : Mem := []
  /-- tick of the first change since the last commit; none: clean -/
  dirty : Option Nat := none
  deriving DecidableEq, Repr

/-- A programmed slot of a ring (R305). -/
structure RingSlot where
  /-- slot number in ring order -/
  addr : Nat
  seq : W32
  rid : W16
  /-- payload bytes in use -/
  len : Nat
  copy : Bool := false
  /-- zero-padded to 16 or 48 bytes -/
  payload : Bytes
  crc : W32
  commit : W32 := 0x9E3761C5
  /-- a group of it is uncorrectable -/
  ue : Bool := false
  /-- its groups reported a correction as it was read at S5 (R308) -/
  fixed : Bool := false
  deriving DecidableEq, Repr

/-- A ring (R304): slots programmed and not erased, in the order written. -/
structure Ring where
  slots : List RingSlot := []
  /-- slot number that the next append programs -/
  wp : Nat := 0
  /-- highest SEQ of the ring, and a step of two for the next one after a twin (R308) -/
  seq : W32 := 0
  twin : Bool := false
  /-- a reclaim has copied the live records of the oldest page and has not erased it yet (OR_STATUS.RECLAIM, R307) -/
  reclaim : Bool := false
  deriving DecidableEq, Repr

/-- Rights and password failures of a partition (R317). -/
structure PartRight where
  read : Bool := false
  write : Bool := false
  /-- tick of the last access under a right -/
  access : Nat := 0
  fails : List Nat := []
  blocked : Option Nat := none
  deriving DecidableEq, Repr

/-- A legacy write cycle: a page with its new bytes, or the status page with BP (R321, R323). -/
inductive LwCycle where
  | page (p : Nat) (data : Bytes)
  | status (bp : BitVec 2)
  deriving DecidableEq, Repr

/-- Or, without the ledger. -/
structure Store where
  pages : Vector StorePage 256 := Vector.replicate 256 {}
  ringCtr : Ring := {}
  ringSec : Ring := {}
  journal : Ring := {}
  txnIssued : W32 := 0
  txnDone : W32 := 0
  /-- SYS live in SRAM -/
  sys : SysData := {}
  /-- the profiles that PRES_PROFILE persisted -/
  profile : Option (Bool × Bool) := none
  telem : TelemData := {}
  rights : Vector PartRight 8 := Vector.replicate 8 {}
  /-- native write buffer: each page with the image that a COMMIT stores (R318) -/
  wbuf : List (Nat × Mem) := []
  /-- legacy window: 256 pages of 32 bytes, and the status page that retains BP (R295, R320, R321) -/
  lw : Vector NvPage 256 := Vector.replicate 256 {}
  lwStatus : NvPage := {}
  wel : Bool := false
  cycle : Option LwCycle := none
  /-- free values drawn for read-backs (R300, R306) -/
  tries : Nat := 0
  eccUe : Bool := false
  eccAddr : W32 := 0
  ash : Bool := false
  nCommits : Nat := 0
  nErases : Nat := 0
  nEccCe : Nat := 0
  nEccUe : Nat := 0
  nTwins : Nat := 0
  nLedger : Nat := 0
  nLwWrites : Nat := 0
  nAsh : Nat := 0
  deriving DecidableEq, Repr

/-! ### The isolation barrier (R338 to R356) -/

/-- Link state (R350). -/
inductive LinkState where
  | down | training | up
  deriving DecidableEq, Repr

/-- A short frame on a priority lane (R339, R340). -/
structure ShortFrame where
  kind : Fin 8
  seq : Bool
  payload : BitVec 17
  check : W16
  /-- the receiver has taken it; its ACK is on the way -/
  taken : Bool := false
  /-- copies that failed, and the bits of the last failing copy -/
  failed : Nat := 0
  lastBad : Option (BitVec 38) := none
  /-- two bit-identical copies failed: the receiver discarded the frame, its NAK is on the way (R353) -/
  mismatch : Bool := false
  deriving DecidableEq, Repr

/-- A priority lane: frames sent or waiting, oldest first, until acknowledged (R343). -/
structure PrioLane where
  frames : List ShortFrame := []
  seq : Bool := false
  deriving DecidableEq, Repr

/-- TYPE of a bulk frame (R342). -/
inductive BulkType where
  | write | read | completion | rcdResolve
  deriving DecidableEq, Repr

/-- A bulk frame (R342). -/
structure BulkFrame where
  type : BulkType
  seq : Byte
  tag : Fin 8
  addr : W32
  /-- payload bytes; READ: as many zeros as bytes asked for -/
  data : Bytes
  taken : Bool := false
  failed : Nat := 0
  deriving DecidableEq, Repr

/-- A bulk lane: replay buffer and credits (R343, R345). -/
structure BulkLane where
  frames : List BulkFrame := []
  seq : Byte := 0
  /-- credits the sender holds -/
  creditP : Nat := 0
  creditN : Nat := 0
  /-- cumulative units returned, modulo 4,096, as last counted by the sender and as sent by the receiver -/
  backP : BitVec 12 := 0
  backN : BitVec 12 := 0
  sentP : BitVec 12 := 0
  sentN : BitVec 12 := 0
  deriving DecidableEq, Repr

/-- One die's end of the link. -/
structure BarEnd where
  /-- the authority epoch held here (R352) -/
  epoch : W32 := 0
  synced : Bool := false
  /-- halves of the other side's epoch as received -/
  rxLo : Option W16 := none
  rxHi : Option W16 := none
  alive : Byte := 0
  /-- ALIVE as last received, and the tick at which it changed -/
  rxAlive : Byte := 0
  rxAliveAt : Nat := 0
  /-- tick of the last valid HEARTBEAT from the other side -/
  heardAt : Nat := 0
  /-- ticks of the last HEARTBEAT and the last EPOCH pair sent -/
  beatAt : Nat := 0
  pairAt : Nat := 0
  /-- the other side is silent (FIELD_SILENT in Argent, HOST_SILENT in the field die) -/
  silent : Bool := false
  deriving DecidableEq, Repr

/-- An RCD copy that awaits its RCD_RESOLVE (R348). -/
structure RcdCopy where
  tag : Fin 8
  addr : Nat
  value : W32
  since : Nat
  deriving DecidableEq, Repr

/-- VSTATE payload as both dies see it (R340). -/
structure VState where
  doors : BitVec 4 := 0
  engineRun : Bool := false
  standstill : Bool := false
  ignition : Bool := false
  valid : Bool := false
  permitActive : Bool := false
  deriving DecidableEq, Repr

/-- The barrier. -/
structure Barrier where
  link : LinkState := .down
  /-- training entered from UP: a retrain (R350) -/
  retrain : Bool := false
  trainSince : Nat := 0
  /-- the link went down by an agreed SLEEP -/
  slept : Bool := false
  /-- tick of the first H_WAKE pulse of the present series, pulses sent -/
  wakeFrom : Option Nat := none
  wakes : Nat := 0
  fieldEnd : BarEnd := {}
  hostEnd : BarEnd := {}
  toHost : PrioLane := {}
  toField : PrioLane := {}
  bulkToHost : BulkLane := { creditP := 64 }
  bulkToField : BulkLane := { creditP := 32, creditN := 8 }
  /-- field ALIVE unchanged for t_ALIVE (Argent, R355) -/
  stewardStall : Bool := false
  rcd : List RcdCopy := []
  /-- latched entry verdicts held until SYNCED, and since when, oldest first (R354) -/
  heldEntry : List (VerdictFrame × Nat) := []
  /-- the verdict frames sent whose RESULT has not come -/
  awaiting : List VerdictFrame := []
  /-- epochs differed at the last resynchronisation: the EPOCH_MISMATCH anomaly -/
  anomaly : Bool := false
  /-- the field side's latest VSTATE -/
  vstate : VState := {}
  deriving DecidableEq, Repr

/-! ### The host die: SPI, mailbox, vehicle state, permit, CAN (R358 to R379) -/

/-- A record in the posted-write buffer (R369). -/
structure RxRecord where
  kind : Byte
  slot : Byte
  offset : W16
  last : Bool
  seq : Byte
  payload : Bytes
  /-- first unit and number of units it occupies -/
  unit : Nat
  units : Nat
  /-- its last WRITE frame has been delivered -/
  visible : Bool := false
  /-- popped (or taken by the transport, for CANX) -/
  released : Bool := false
  deriving DecidableEq, Repr

/-- Permit generator and PMT_STATUS (R370, R374, R375). -/
structure Permit where
  active : Bool := false
  readbackFault : Bool := false
  ctx : Byte := 0
  lastEnd : BitVec 4 := 10
  fb : Bool := false
  /-- consecutive wrong samples, and consecutive correct samples since the fault -/
  wrong : Nat := 0
  correct : Nat := 0
  /-- tick at which the start was accepted and phase 1 began, and tick of the next readback sample -/
  since : Nat := 0
  fbNext : Nat := 0
  /-- an entry verdict Argent accepted last (R180) -/
  entryCtx : Option Byte := none
  deriving DecidableEq, Repr

/-- Vehicle-state source and its end-to-end check (R372). -/
structure VehicleState where
  /-- VS_CFG.SRC: true ENGINE_STATUS -/
  srcCan : Bool := false
  dataId : Byte := 0
  timeout : BitVec 10 := 100
  lock : Bool := false
  lastCnt : Option (BitVec 4) := none
  /-- accepted reports in the present run, to 2 -/
  run : Nat := 0
  valid : Bool := false
  engineRun : Bool := false
  standstill : Bool := false
  ignition : Bool := false
  lastAccept : Nat := 0
  odo : W32 := 0xFFFFFFFF
  /-- tick of the last odometer forwarded from CAN -/
  odoAt : Option Nat := none
  /-- VS_STATE: payload of the last VSTATE frame sent -/
  lastSent : BitVec 17 := 0
  deriving DecidableEq, Repr

/-- Door inputs (R370, R373). -/
structure DoorInputs where
  pol : BitVec 4 := 0
  en : BitVec 4 := 0xF
  debounced : BitVec 4 := 0
  raw : BitVec 4 := 0
  deriving DecidableEq, Repr

/-- A J1939 export in progress (R378). -/
structure J1939Export where
  first : W32
  count : Nat
  /-- connection mode -/
  cm : Bool
  since : Nat
  /-- the CANX record once it has arrived -/
  record : Option Bytes := none
  /-- packets sent; packets cleared to send -/
  sent : Nat := 0
  cleared : Nat := 0
  lastAt : Nat := 0
  deriving DecidableEq, Repr

/-- CAN FD controller (R370, R376 to R378). -/
structure CanCtl where
  ctrl : BitVec 7 := 0
  nbt : BitVec 31 := 0
  dbt : BitVec 18 := 0
  tdc : Byte := 0
  idEng : BitVec 30 := 0
  idImmo : BitVec 30 := 0
  sa : Byte := 0xFE
  dataIdEng : Byte := 0
  dataIdImmo : Byte := 0
  engTimeout : Byte := 6
  tecCnt : Byte := 0
  recCnt : Byte := 0
  /-- 0 error active, 1 error passive, 2 bus-off -/
  errState : BitVec 2 := 0
  errLat : BitVec 9 := 0
  immoCnt : BitVec 4 := 0
  /-- tick of the last IMMO_STATUS -/
  immoAt : Nat := 0
  /-- the last IMMO_STATUS sent, and the last acknowledgement control byte sent on PGN 0x00E800 -/
  immoSent : Bytes := []
  /-- the last IMMO_STATUS was an FD frame, and switched its bit rate (CAN_CTRL.FD_TX, BRS) -/
  immoFd : Bool := false
  immoBrs : Bool := false
  ackSent : Option Byte := none
  /-- the last transport packet sent -/
  packet : Bytes := []
  xfer : Option J1939Export := none
  deriving DecidableEq, Repr

/-- A bridge read that Argent has posted or whose completion it holds (R362, R363). -/
structure BridgeRead where
  tag : Fin 8
  addr : Nat
  count : Nat
  /-- length after the cut of R363 -/
  cut : Nat
  since : Nat
  /-- the completion: its status and its data -/
  done : Option (W16 × Bytes) := none
  deriving DecidableEq, Repr

/-- The host die. -/
structure HostDie where
  irq : W16 := 0
  irqEn : W16 := 0
  irqPol : Bool := false
  revision : Byte := 0
  /-- MB_STAGE, 256 bytes -/
  stage : Mem := []
  /-- frames of the last doorbell not yet acknowledged; STAGE_BUSY while not 0 -/
  stageLeft : Nat := 0
  mbBusy : W16 := 0
  rxq : List RxRecord := []
  /-- posted-write buffer, 4 KiB -/
  rxqMem : Mem := []
  /-- unit at which the next record begins; credits freed and not yet returned -/
  rxqTail : Nat := 0
  /-- FPSTATE of HST_STATUS -/
  fpstate : BitVec 2 := 3
  pmt : Permit := {}
  vs : VehicleState := {}
  doors : DoorInputs := {}
  can : CanCtl := {}
  bridge : List BridgeRead := []
  /-- a BWRITE that waits for a host-to-field P credit -/
  bwrite : Option (Nat × W32) := none
  wakeReq : Bool := false
  deriving DecidableEq, Repr

/-! ### Events (R387, R395) -/

/-- An event in the EVT ring: header and body (R387). -/
structure Event where
  code : Byte
  lost : Nat := 0
  status : W16 := 0
  rtcS : W32 := 0
  /-- timebase [47:16] -/
  tb : W32 := 0
  /-- up to 36 bytes; the rest reads 0 -/
  body : Bytes
  deriving DecidableEq, Repr

/-- The EVT ring and its mask. -/
structure Events where
  ring : List Event := []
  lost : Nat := 0
  /-- bit e: event e is posted (SYS_EVT_MASK) -/
  mask : W16 := 0x0FFE
  /-- SEQ of the posted records -/
  seq : Byte := 0
  /-- number of the next BULK frame -/
  bulkFn : Byte := 0
  /-- EVT ring index of the next event posted (R369) -/
  evtIdx : BitVec 5 := 0
  /-- session counter (R395) -/
  session : W16 := 1
  deriving DecidableEq, Repr

/-! ### Commands, staging and the bundle (R367 to R369, R381 to R394) -/

/-- A command accepted in a CMD slot: its record of LEN bytes (R381). -/
structure CmdRec where
  slot : Fin 16
  bytes : Bytes
  deriving DecidableEq, Repr

/-- A record on its way into the posted-write buffer (R369). -/
structure Post where
  /-- 1 RSP, 2 EVT, 3 BULK, 4 CANX -/
  kind : Byte
  slot : Byte
  payload : Bytes
  /-- BULK: byte offset of the segment in its frame, and LAST -/
  offset : Nat := 0
  last : Bool := false
  deriving DecidableEq, Repr

/-- The shared resources of R384. -/
inductive Resource where
  | none | staging | bulkOut | signing | fieldTest
  deriving DecidableEq, Repr

/-- What a running long command still waits for. -/
inductive LongWork where
  /-- its work is done; the response is due -/
  | done
  /-- DIAG_LF_SWEEP: the channels it sweeps (R79), accepted at this tick -/
  | lfSweep (mask : BitVec 12) (since : Nat)
  /-- STAGE_VERIFY of area 0: the image is being programmed (R437) -/
  | program
  /-- DIAG_UWB_TEST -/
  | uwbTest (mask : BitVec 6) (since : Nat)
  /-- DIAG_UHF_TEST: its start and its DURATION in ticks, and whether it transmits; pair 0 is requested with PRI -/
  | uhfTest (since dur : Nat) (tx : Bool)
  deriving DecidableEq, Repr

/-- A long command that runs beneath later commands (R384). -/
structure LongCmd where
  slot : Fin 16
  opcode : W16
  ctag : W16
  res : Resource
  work : LongWork := .done
  status : Status := .ok
  result : Bytes := []
  /-- the BULK frame of R386, posted before the response -/
  bulk : Option Bytes := none
  /-- an effect of it has been committed (R388) -/
  committed : Bool := false
  deriving DecidableEq, Repr

/-- What a response brings about once it has been posted (SYS_RESTART, SYS_POWER, UPD_ACTIVATE, RETIRE). -/
inductive AfterPost where
  | none | stewardRestart | deviceRestart | rest (t : RestTarget)
  deriving DecidableEq, Repr

/-- A staging area (R390, R391). -/
structure StageArea where
  opened : Bool := false
  verified : Bool := false
  /-- UNVERIFIED (R275): a segment has landed whose tag has not been verified -/
  unverified : Bool := false
  total : Nat := 0
  received : Nat := 0
  data : Mem := []
  /-- plaintext of a verified area -/
  body : Bytes := []
  deriving DecidableEq, Repr

/-- A configuration bundle: header values and sections in order (R392). -/
structure Bundle where
  seq : W32
  model : Bytes
  secs : List (Nat × Bytes)
  deriving DecidableEq, Repr

/-- What the steward keeps of commands and configuration. -/
structure Cmds where
  /-- accepted, not yet served, in doorbell order -/
  queue : List CmdRec := []
  /-- the 16 CMD slots, 256 bytes each (R367) -/
  slots : Mem := []
  longs : List LongCmd := []
  outbox : List Post := []
  /-- records whose units Argent has not returned yet, oldest first, with their number of units -/
  posted : List (Post × Nat) := []
  /-- unit of the posted-write buffer at which the next record begins, as the field side counts it -/
  unitAt : Nat := 0
  /-- after a host-die reset, records wait for SYNCED (R356) -/
  repostWait : Bool := false
  /-- CMD slot and CTAG of the pending PRES_START (R385) -/
  startCtag : Option W16 := none
  area0 : StageArea := {}
  area1 : StageArea := {}
  area2 : StageArea := {}
  /-- the loaded bundle; none without one -/
  bundle : Option Bundle := none
  /-- last known state of each door: true open (PRES_DOOR) -/
  doors : Vector (Option Bool) 4 := Vector.replicate 4 none
  /-- engine state last reported with VALID = 1 (R175, R482) -/
  engine : Option Bool := none
  /-- odometer last reported (R324) -/
  odo : W32 := 0xFFFFFFFF
  after : AfterPost := .none
  deriving DecidableEq, Repr

/-! ### Clocks (R400 to R410) -/

/-- A CLK_ATTEMPT record (R402, R409). -/
structure ClockAttempt where
  xoReady : Bool := false
  rc16Ready : Bool := false
  xoOutside : Bool := false
  rc16Outside : Bool := false
  rtc : BitVec 24 := 0
  deriving DecidableEq, Repr

/-- The clock controller. -/
structure Clocks where
  rc32Ok : Bool := false
  rc16Rdy : Bool := false
  xoRdy : Bool := false
  plluLock : Bool := false
  pllcLock : Bool := false
  plllLock : Bool := false
  fallback : Bool := false
  selRefused : Bool := false
  gateRefused : Bool := false
  busTo : Bool := false
  xoFail : Bool := false
  /-- attempts made in the current series -/
  attempt : Nat := 0
  attempts : Vector ClockAttempt 4 := Vector.replicate 4 {}
  /-- CLK_GATE: XO, RC16, PLLC, PURPURE, GULES, OR, PLLL, VERT, PLLU, AZURE, CELESTE, TENNE -/
  gate : BitVec 12 := 0
  /-- CLK_SEL.REF: true RC16 -/
  refRc16 : Bool := false
  divPurpure : BitVec 6 := 8
  divGules : BitVec 6 := 8
  curPurpure : BitVec 6 := 8
  curGules : BitVec 6 := 8
  /-- consecutive passing windows of XO, RC16, the RTC crystal and the host crystal, to 3 -/
  winXo : Nat := 0
  winRc16 : Nat := 0
  winRtc : Nat := 0
  winHost : Nat := 0
  hostReady : Bool := false
  /-- islands granted ready (R401): Celeste, Purpure, Gules, Vert, Azure, Tenné, Or -/
  ready : BitVec 7 := 0
  /-- the XO was ready again while an entry was active: the switch back waits (R405) -/
  backWaits : Bool := false
  /-- Purpure and Gules run from RC16 directly while PLL_C relocks after a REF change (R405) -/
  onRc16 : Bool := false
  /-- CLK_ATTEMPT records held, to 4 -/
  recs : Nat := 0
  /-- the model's own clock at the last restart of the XO in the fallback (R403) -/
  retryAt : Nat := 0
  /-- the host die holds itself in reset: its crystal failed (R404) -/
  hostHeld : Bool := false
  deriving DecidableEq, Repr

/-! ### Power and touch (R414 to R428) -/

/-- The power state. -/
inductive PState where
  | unpowered | jet | umber | amber | chalk | ash
  deriving DecidableEq, Repr

/-- A touch channel (R417 to R419, R428). -/
structure TouchChannel where
  en : Bool := false
  thr : BitVec 6 := 0
  confirm : Bool := false
  base : BitVec 12 := 0
  /-- DELTA, signed -/
  delta : BitVec 12 := 0
  tripped : Bool := false
  stuck : Bool := false
  /-- the previous window met the trip condition; a baseline has been taken; watched since leaving Chalk -/
  prevMet : Bool := false
  learned : Bool := false
  watched : Bool := false
  /-- RTC second of the trip -/
  trippedAt : Nat := 0
  /-- tripped during start-up, event due at S15 -/
  latched : Bool := false
  deriving DecidableEq, Repr

/-- The power sequencer. -/
structure Power where
  pstate : PState := .unpowered
  rest : RestTarget := .chalk
  vbatLow : Bool := false
  vbatOvp : Bool := false
  /-- F_VBAT below V_RUN, as the last supply row left it (R415, R423) -/
  belowRun : Bool := false
  holdOk : Bool := false
  cold : Bool := true
  refused : Bool := false
  wakeSrc : BitVec 9 := 0
  vbat : BitVec 10 := 0
  vhold : BitVec 10 := 0
  touch : Vector TouchChannel 4 := Vector.replicate 4 {}
  /-- the device woke from Umber or Amber, and the RTC second since which R416's conditions have held -/
  woken : Bool := false
  idleSince : Nat := 0
  /-- R416's conditions held at the last pass -/
  idle : Bool := false
  /-- a SYS_POWER answered PENDING: its target -/
  going : Option RestTarget := none
  /-- the sequencer is entering Umber or Amber and retention has not begun (R427) -/
  entering : Option PState := none
  deriving DecidableEq, Repr

/-! ### Start-up and images (R430 to R441) -/

/-- STATE of an image slot (UPD_STATUS). -/
inductive ImageState where
  | empty | valid | active | trial | failed
  deriving DecidableEq, Repr

/-- An image slot of code NV (R17, R437): the image's bytes and the fields that are read of them. The bytes of the images that
leave the maker with the device are not in the specification. DESIGN CHOICE, log 129. -/
structure ImageSlot where
  present : Bool := false
  /-- programmed whole, and no group of it is uncorrectable -/
  intact : Bool := true
  /-- an image of the maker's, of which only the fields below are known; it meets checks 1 to 3 -/
  maker : Bool := false
  /-- the image as it is stored, 128 header bytes and CODE -/
  bytes : Bytes := []
  /-- FW_VER, three bytes -/
  ver : Bytes := zeros 3
  arb : Nat := 0
  /-- CODE_SHA256 -/
  digest : Bytes := zeros 32
  /-- SHA-256 of the whole image (R286) -/
  sha : Bytes := zeros 32
  deriving DecidableEq, Repr

/-- The boot record (R438). -/
structure BootRecord where
  active : Fin 2 := 0
  trialSlot : Option (Fin 2) := none
  trialFails : Nat := 0
  trialPend : Bool := false
  actPend : Bool := false
  restAfter : BitVec 2 := 0
  stateA : ImageState := .active
  stateB : ImageState := .empty
  deriving DecidableEq, Repr

/-- The boot record's page as the device leaves the maker: copy 0 holds the record above, PAGE_SEQ 1 (R298, R438).
DESIGN CHOICE, log 129. -/
def bootPageNew : NvPage :=
  { c0 := { data := [0, 0xFF, 0, 0, 2, 0] ++ zeros 250, seq := 1, txn := 0, crc := 0x576783D9, commit := 0x9E3761C5 } }

/-- The image that runs. -/
inductive Running where
  | slotA | slotB | recovery | none
  deriving DecidableEq, Repr

/-- What a buffered outcome of S0 to S4 says (R435). -/
structure StepOutcome where
  step : Byte
  kind : Byte
  status : W16
  attempt : Byte
  detail : Bytes
  /-- the model's own clock at the outcome, RTC seconds, TIME -/
  us : Nat := 0
  rtcS : W32 := 0
  time : W16 := 0
  deriving DecidableEq, Repr

/-- Start-up. -/
structure Boot where
  /-- the step in progress; 16 once S15 has passed -/
  step : Nat := 0
  /-- start-up stands in service-lock at `step` -/
  locked : Bool := false
  /-- cold starts made -/
  count : Nat := 0
  /-- JSEQ of the last record -/
  jseq : W32 := 0
  /-- the boot record as the boot ROM and the image work with it, and its two copies in the boot sector (R438) -/
  record : BootRecord := {}
  page : NvPage := bootPageNew
  images : Vector ImageSlot 3 := Vector.replicate 3 {}
  /-- the identity endorsement in the boot sector (R287); none before the first start -/
  endorse : Bytes := []
  /-- blown ARB fuses (R437) -/
  arbDevice : Nat := 0
  running : Running := .none
  /-- candidates that failed S9 three times in this start, slots A, B and recovery -/
  failedS9 : BitVec 3 := 0
  s9Attempts : Nat := 0
  /-- S7 and S8: slots A, B and the recovery image verified in this start -/
  okA : Bool := false
  okB : Bool := false
  okR : Bool := false
  /-- the step whose alternate was taken last: OUTCOME 2 -/
  fallStep : Option Nat := none
  /-- the slot that S9 failed in this start after its second trial failure (R439) -/
  reverted : Option (Fin 2) := none
  /-- optional steps skipped: S11, S12 -/
  skip11 : Bool := false
  skip12 : Bool := false
  /-- no bundle: OUTCOME 3 -/
  noBundle : Bool := false
  hostAbsent : Bool := false
  /-- outcomes buffered by Sable (R435) -/
  buffered : List StepOutcome := []
  /-- last step that the steward reported before a watchdog reset, and whether one is latched -/
  lastStep : Nat := 0
  /-- attempts of S11 that OVERTEMP failed in this start before it cleared (R77) -/
  hotFails : Nat := 0
  wdLatched : Bool := false
  brownout : Option Nat := none
  /-- the previous start ended by F_VBAT below V_ASH or by a tamper alarm (R439) -/
  excused : Bool := false
  /-- the model's own clock at S0, at the present step's begin and at the start of S9 -/
  startAt : Nat := 0
  stepAt : Nat := 0
  s9At : Nat := 0
  /-- start-up resumed at S6 after an alarm or TAMPER_ACK: a recorded service-lock does not stop S6 -/
  resume : Bool := false
  /-- a class E wake: the state to which the device returns after S15 (R260) -/
  returnTo : Option RestTarget := none
  deriving DecidableEq, Repr

/-! ### Background services and containment (R444 to R454) -/

/-- Snapshot group 6 (R450). -/
structure PuCounters where
  restart : Nat := 0
  noise : Nat := 0
  proveFail : Nat := 0
  pressRej : Nat := 0
  relay : Nat := 0
  wMismatch : Nat := 0
  noFix : Nat := 0
  dropped : Nat := 0
  touch : Nat := 0
  stuck : Nat := 0
  vDiscard : Nat := 0
  grants : Nat := 0
  suspectFi : Nat := 0
  bgOverrun : Nat := 0
  scrub : Nat := 0
  /-- ticks spent in Chalk; CHALK_S counts their seconds -/
  chalkTicks : Nat := 0
  deriving DecidableEq, Repr

/-- Cadence timestamps of the background activities, in ticks spent in Chalk (R444, R452). -/
structure BgTimes where
  /-- last unit and end of the last pass of each scrub -/
  scrub : Vector Nat 5 := Vector.replicate 5 0
  pass : Vector Nat 5 := Vector.replicate 5 0
  remask : Nat := 0
  kat : Nat := 0
  /-- UWB chain delay tracking and port classification -/
  delay : Nat := 0
  classify : Nat := 0
  /-- VCO temperature check, telemetry fold, RTC drift window -/
  vco : Nat := 0
  fold : Nat := 0
  drift : Nat := 0
  deriving DecidableEq, Repr

/-- What the retained region holds (R452). -/
structure Retained where
  pres : Presence := {}
  ctxs : Vector TokenCtx 160 := Vector.replicate 160 {}
  ev : Events := {}
  queue : List CmdRec := []
  startCtag : Option W16 := none
  telem : TelemData := {}
  credLock : Lockout := {}
  times : BgTimes := {}
  deriving DecidableEq, Repr

/-- A copy of the retained region: generation, CRC-32 correct, content. -/
structure RetCopy where
  gen : Nat := 0
  valid : Bool := false
  data : Retained := {}
  deriving DecidableEq, Repr

/-- Background duties and start-up bookkeeping of the steward (R444, R451 to R454). -/
structure Background where
  pu : PuCounters := {}
  /-- BR_ANOM, the nine anomaly bits of R371 -/
  anom : BitVec 9 := 0
  ret0 : RetCopy := {}
  ret1 : RetCopy := {}
  /-- ticks of the steward restarts of the last 60 s (R454) -/
  restarts : List Nat := []
  times : BgTimes := {}
  /-- tick of the scheduler pass that last kicked the watchdog (R451) -/
  kickAt : Nat := 0
  /-- next unit of each scrub: working SRAM, code NV, shadow SRAM, Or NV, key store NV (R444) -/
  scrubAt : Vector Nat 5 := Vector.replicate 5 0
  /-- tick at which the last re-mask pass began (R254) -/
  remaskAt : Option Nat := none
  /-- pair that the next classification run serves (R444) -/
  pairAt : Nat := 0
  /-- die temperature of the last UWB delay tracking -/
  uwbTemp : Option Int := none
  deriving DecidableEq, Repr

/-! ### The block -/

/-- Everything the specification gives the TV8160, and four fields of the model's own: the queue of commands,
the counter that free values are drawn with, the clock, and the bytes that the last read delivered. -/
structure State where
  /-- commands that wait, first in, first out. DESIGN CHOICE, log 1. -/
  pending : List Instr := []
  /-- the model's own: number of the next free value. DESIGN CHOICE, log 4. -/
  freeCtr : Nat := 0
  /-- the model's own: ticks of 1/38.4 MHz elapsed, by which Argent's and the barrier's timers are counted. DESIGN CHOICE,
  log 2. -/
  clock : Nat := 0
  /-- the model's own: what the last register, SPI or memory read delivered. DESIGN CHOICE, log 5. -/
  lastRead : Bytes := []
  cel : Celeste := {}
  seqs : Sequencers := {}
  vert : Vert := {}
  tn : Tenne := {}
  ctxs : Vector TokenCtx 160 := Vector.replicate 160 {}
  az : Azure := {}
  pres : Presence := {}
  hf : HfReader := {}
  tag : Tag := {}
  keys : KeyStore := {}
  creds : Credentials := {}
  tamper : Tamper := {}
  gq : Gules := {}
  rtc : Rtc := {}
  ledger : Ledger := {}
  orr : Store := {}
  bar : Barrier := {}
  host : HostDie := {}
  ev : Events := {}
  clk : Clocks := {}
  pwr : Power := {}
  boot : Boot := {}
  cmds : Cmds := {}
  bg : Background := {}
  deriving DecidableEq, Repr

/-- No command of this block ends in a fault: every happening that the specification calls a fault is state.
DESIGN CHOICE, log 9. -/
inductive Fault where
  deriving DecidableEq, Repr

/-- Why a command is not run. DESIGN CHOICE, log 9. -/
inductive Refusal where
  /-- raised by the dispatch for a row of the table that has no meaning yet; safe: nothing is claimed of it -/
  | notModelled (mnemonic : String)
  deriving DecidableEq, Repr

/-- The block as it leaves the maker, before its first power-on: every register at its Reset column, images as
shipped, memories empty. Values the specification does not state are named in the assumption log.
DESIGN CHOICE, log 3, 19, 169. -/
def State.reset : State :=
  { boot := { images := #v[{ present := true, maker := true, ver := [3, 2, 0] }, {}, { present := true, maker := true, ver := [3, 2, 0] }] } }

end Sys2Proof.Machine
end

