-- ==== Sys2Proof/Machine/Ops.lean ====
section
/-! DEFINITION. Operations that every family shares: status codes, time, life cycle, events, ledger requests,
mailbox records and free values. -/

namespace Sys2Proof.Machine

open Sys2Proof

/-! ### Status codes (R13) -/

/-- The code of a status (R13). -/
def statusCode : Status → W16
  | .ok => 0x0000 | .pending => 0x0001 | .badOpcode => 0x0010 | .badLength => 0x0011
  | .paramRange => 0x0012 | .wrongState => 0x0013 | .busy => 0x0014 | .retry => 0x0015
  | .authFail => 0x0020 | .keyOrphaned => 0x0021 | .keyExpired => 0x0022 | .useExhausted => 0x0023
  | .nonceExhausted => 0x0024 | .tampered => 0x0025 | .lockedOut => 0x0026 | .policyDenied => 0x0027
  | .faultMismatch => 0x0028 | .launchLate => 0x0030 | .synthNotReady => 0x0031 | .coexDenied => 0x0032
  | .antennaFault => 0x0033 | .storeFull => 0x0040 | .storeProtected => 0x0041 | .storeTwin => 0x0042
  | .tagBusy => 0x0043 | .imageInvalid => 0x0050 | .epochMismatch => 0x0051

/-- A number as one byte, cut to 8 bits. -/
def byte (n : Nat) : Byte := BitVec.ofNat 8 n

/-- A string of ASCII characters as bytes. -/
def ascii (t : String) : Bytes := t.toList.map fun c => BitVec.ofNat 8 c.toNat

/-! ### Time -/

/-- Ticks in one second and in one millisecond (R10). -/
def ticksPerSec : Nat := 38400000

def ticksPerMs : Nat := 38400

/-- The timebase (R30). -/
def now (s : State) : Nat := s.cel.timebase

/-- RTC seconds since 2000-01-01 (R326). -/
def rtcNow (s : State) : Nat := s.rtc.secs.toNat

/-- Timebase [47:16], as event headers and ledger entries carry it (R324, R387). -/
def tbField (s : State) : W32 := BitVec.ofNat 32 (now s / 65536)

/-- TQ: drift state in [1:0], origin in [3:2] (R326). -/
def tqOf (s : State) : Nat := s.rtc.drift.toNat + 4 * s.rtc.origin.toNat

/-- TIME of a ledger entry: fraction in 1/1,024 s and TQ (R324). -/
def timeField (s : State) : W16 := BitVec.ofNat 16 (s.rtc.frac.toNat / 32 + 1024 * tqOf s)

/-- A row of the host die: it happens only while Argent is not held in reset by a failed crystal (R404).
DEDUCED, log 130. -/
def hostRuns (f : State → State) (s : State) : State := if s.clk.hostHeld then s else f s

/-! ### Life cycle (R236) -/

/-- The life-cycle state that the fuses and the Servicing record give (R236, R237). -/
def lcOf (s : State) : LifeCycle :=
  if s.keys.lcRetire then .retired
  else if s.keys.lcField then (if s.keys.servicing.isSome then .servicing else .fielded)
  else if s.keys.lcProv then .provisioned
  else .blank

/-- The code of LC_STATE.STATE (R262). -/
def lcCode : LifeCycle → Nat
  | .blank => 0 | .provisioned => 1 | .fielded => 2 | .servicing => 3 | .retired => 4

/-- SERIAL as eight bytes. -/
def serialBytes (s : State) : Bytes := leBytes 8 s.keys.serial.toNat

/-! ### What no command changes (R231, R236, R437) -/

/-- What stands in OTP after a command that leaves `t` from `s`: SERIAL is programmed before delivery, a blown life-cycle or
anti-rollback fuse stays blown. The queue of commands and the host die's revision are no command's either.
DEDUCED, log 7. -/
def keepOtp (s t : State) : State :=
  { t with
    pending := s.pending
    keys := { t.keys with
      serial := s.keys.serial
      lcProv := s.keys.lcProv || t.keys.lcProv
      lcField := s.keys.lcField || t.keys.lcField
      lcRetire := s.keys.lcRetire || t.keys.lcRetire }
    boot := { t.boot with arbDevice := Nat.max s.boot.arbDevice t.boot.arbDevice }
    host := { t.host with revision := s.host.revision } }

/-- A command's outcome: the state it leaves. DEDUCED, log 7. DESIGN CHOICE, log 9. -/
def done (s t : State) : Host.Outcome State Fault Refusal := .next (keepOtp s t)

/-! ### Free values -/

/-- `len` free bytes and the state with the counter advanced. DESIGN CHOICE, log 4. -/
def drawBytes (s : State) (len : Nat) : Bytes × State :=
  (Config.freeBytes s.freeCtr len, { s with freeCtr := s.freeCtr + 1 })

/-- A free number below `bound` and the state with the counter advanced. DESIGN CHOICE, log 4. -/
def drawNat (s : State) (bound : Nat) : Nat × State :=
  (Config.freeNat s.freeCtr % bound, { s with freeCtr := s.freeCtr + 1 })

/-- The codes of R13 in rising order. -/
def allStatus : List Status :=
  [.ok, .pending, .badOpcode, .badLength, .paramRange, .wrongState, .busy, .retry, .authFail, .keyOrphaned, .keyExpired,
    .useExhausted, .nonceExhausted, .tampered, .lockedOut, .policyDenied, .faultMismatch, .launchLate, .synthNotReady,
    .coexDenied, .antennaFault, .storeFull, .storeProtected, .storeTwin, .tagBusy, .imageInvalid, .epochMismatch]

/-- A status that the specification leaves open: one of R13's codes. DESIGN CHOICE, log 4. -/
def freeStatus (k : Nat) : Status := allStatus.getD (Config.freeNat k % 27) .ok

/-- The codes that report a failure: STORE_TWIN reports a completion (R14). DESIGN CHOICE, log 4. -/
def failStatus : List Status := (allStatus.drop 2).filter (· != .storeTwin)

/-- STATUS of a journal record or EVT_BOOT for a step that failed: a failure code of R13 (R14, R430, R433).
DESIGN CHOICE, log 4. -/
def stepStatus (step : Nat) : W16 := statusCode (failStatus.getD (Config.stepCode step % 24) .wrongState)

/-! ### Events (R387, R395) -/

/-- The event code's mask bit; EVT_TAMPER and EVT_BOOT are never masked (SYS_EVT_MASK). -/
def evtEnabled (mask : W16) (code : Nat) : Bool := code == 7 || code == 9 || bitAt mask.toNat code

/-- The ring without its oldest entry that is neither EVT_TAMPER nor EVT_BOOT; none where every entry is one. -/
def evtDropOldest : List Event → Option (List Event)
  | [] => none
  | e :: es =>
    if e.code == 7 || e.code == 9 then (evtDropOldest es).map (e :: ·) else some es

/-- The ring with an EVT_PRESENCE of the same context replaced; none where there is none. -/
def evtReplace (x : Event) : List Event → Option (List Event)
  | [] => none
  | e :: es =>
    if e.code == 2 && e.body.head? == x.body.head? then some (x :: es)
    else (evtReplace x es).map (e :: ·)

/-- An event put into the EVT ring under R387. -/
def evtPush (v : Events) (x : Event) : Events :=
  if v.ring.length < 32 then { v with ring := v.ring ++ [x] }
  else match (if x.code == 2 then evtReplace x v.ring else none) with
    | some r => { v with ring := r }
    | none =>
      match evtDropOldest v.ring with
      | some r => { v with ring := r ++ [x], lost := satTo 255 v.lost }
      | none => { v with lost := satTo 255 v.lost }

/-- An event with its header fields taken at the happening; masked events are neither posted nor counted (R387). -/
def postEvent (s : State) (code : Nat) (st : Status) (body : Bytes) : State :=
  { s with ev :=
      if evtEnabled s.ev.mask code then
        evtPush s.ev { code := byte code, status := statusCode st, rtcS := s.rtc.secs, tb := tbField s, body := body }
      else s.ev }

/-! ### Ledger requests (R324, R325, R329) -/

/-- TID: first 8 bytes of SHA-256(SERIAL ‖ token ID), zero without a token (R324). -/
def tidOf (s : State) (ctx : Option (Fin 160)) : Bytes :=
  match ctx with
  | none => zeros 8
  | some c => (Config.sha256 (serialBytes s ++ beBytes 8 (s.ctxs[c]).id.toNat)).take 8

/-- SLOT of an entry. -/
def slotByte (ctx : Option (Fin 160)) : Byte :=
  match ctx with
  | none => 0xFF
  | some c => byte c.val

/-- X, Y and Z as signed 16-bit values, 0x8000 when unknown (R325, placement record). -/
def posBytes (p : Option Pos) : Bytes :=
  match p with
  | none => leBytes 2 0x8000 ++ leBytes 2 0x8000 ++ leBytes 2 0x8000
  | some q => leBytes 2 (ofSigned 16 q.x).toNat ++ leBytes 2 (ofSigned 16 q.y).toNat ++ leBytes 2 (ofSigned 16 q.z).toNat

/-- A ledger request with its times taken now; `detail` is bytes 30 onwards, filled with zeros (R324). -/
def ledgerReq (s : State) (type flags zone : Nat) (ctx : Option (Fin 160)) (detail : Bytes) : LedgerReq :=
  { type := byte type, flags := byte flags, slot := slotByte ctx, zone := byte zone, rtcS := s.rtc.secs,
    time := timeField s, tb := tbField s, tid := tidOf s ctx, odo := s.cmds.odo, detail := padTo 10 detail }

/-- A device entry enters the queue, or waits outside it in request order when all 16 places are taken (R329);
in Retired no entry is appended (R330). -/
def ledgerQueue (s : State) (r : LedgerReq) : State :=
  if s.keys.lcRetire then s
  else if s.ledger.queue.length < 16 && s.ledger.outside.isEmpty then
    { s with ledger := { s.ledger with queue := s.ledger.queue ++ [r] } }
  else { s with ledger := { s.ledger with outside := s.ledger.outside ++ [r] } }

/-- Whether a host report finds at least 4 free queue places (R329). -/
def ledgerHostRoom (s : State) : Bool := s.ledger.queue.length + 4 ≤ 16 && s.ledger.outside.isEmpty

/-- A ledger entry of the device requested now. -/
def ledgerAdd (s : State) (type flags zone : Nat) (ctx : Option (Fin 160)) (detail : Bytes) : State :=
  ledgerQueue s (ledgerReq s type flags zone ctx detail)

/-- EVT_STORE (R395). -/
def evtStore (s : State) (kind store addr : Nat) (st : Status) : State :=
  postEvent s 8 st ([byte kind, byte store, 0, 0] ++ leBytes 4 addr)

/-! ### Mailbox records (R369, R382, R386) -/

/-- A record handed to the mailbox engine. -/
def postRecord (s : State) (kind slot : Byte) (payload : Bytes) : State :=
  { s with cmds := { s.cmds with outbox := s.cmds.outbox ++ [{ kind := kind, slot := slot, payload := payload }] } }

/-- The payload of an RSP record (R382): a RESULT only with OK, PENDING or STORE_TWIN unless the command defines one. -/
def rspPayload (opcode ctag : Nat) (st : Status) (result : Bytes) : Bytes :=
  leBytes 2 opcode ++ leBytes 2 ctag ++ leBytes 2 (statusCode st).toNat ++ leBytes 2 result.length ++ result

/-- A response posted to the command's slot. -/
def respond (s : State) (slot : Fin 16) (opcode ctag : Nat) (st : Status) (result : Bytes) : State :=
  postRecord s 1 (byte slot.val) (rspPayload opcode ctag st result)

end Sys2Proof.Machine
end

