-- ==== Sys2Proof/Machine/Program.lean ====
section
/-! DEFINITION. Sequence programs: the three instruction sets as words, the run of a program with its loops
unrolled, and the checks that the steward makes before loading one (R51, R53, R83, R84, R89, R121, R122, R125, R146,
R147, R150). -/

namespace Sys2Proof.Machine

open Sys2Proof

/-- One sequencer instruction. -/
inductive ProgOp where
  | halt | nop
  | waitTb (off : Nat)
  | loopStart (n stride : Nat)
  | loopEnd
  -- Vert (R83)
  | sel (slot : Nat) (ch : Option Nat)
  | setAmp (slot amp : Nat)
  | setPh (slot ph : Nat)
  | setPhBuf (slot : Nat) (add : Bool) (b : Nat)
  | setFreq (trim : Bool) (freq : Nat)
  | driveOn (mask : Nat)
  | driveOff (mask : Nat)
  | send (mask n b : Nat)
  | measure (mask r w : Nat)
  -- Tenné (R121)
  | tnSynth (n : Nat)
  | tnWaitLock (t : Nat)
  | tnRxOn (p : Nat)
  | tnRxOff
  | dcoc (n : Nat)
  | tnRxFrame (f : Nat) (idx : Bool) (r search : Nat)
  | rssi (n : Nat) (idx : Bool) (r : Nat)
  | tnTxOn (p step : Nat)
  | tnTxFrame
  | tnTxOff
  -- Azure (R146)
  | azPhy (n : Nat)
  | azWaitLock (t : Nat)
  | azRxOn (a b : Nat)
  | azRxOff
  | azTxOn (p s : Nat)
  | azTxOff
  | azTxFrame (final : Bool) (r lead : Nat)
  | azRxFrame (report : Bool) (r search : Nat)
  | loopback (p q r : Nat)
  deriving DecidableEq, Repr

/-- Bits `[hi:lo]` of an instruction word. -/
def wBits (w hi lo : Nat) : Nat := w / 2 ^ lo % 2 ^ (hi + 1 - lo)

/-- The shared instructions of R51 with the word that follows; the answer's number is the count of words. -/
def decodeShared (w w2 : Nat) (has2 : Bool) : Option (ProgOp × Nat) :=
  if w = 0 then some (.halt, 1)
  else if w = 1 then some (.nop, 1)
  else if wBits w 15 12 = 0xE then
    if has2 then some (.waitTb (wBits w 11 0 * 65536 + w2), 2) else none
  else if wBits w 15 8 = 0xF1 then
    if has2 ∧ wBits w 7 0 ≠ 0 then some (.loopStart (wBits w 7 0) w2, 2) else none
  else if wBits w 15 8 = 0xF2 then
    if has2 ∧ wBits w 7 0 ≠ 0 then some (.loopStart (wBits w 7 0) (64 * w2), 2) else none
  else if w = 0xF300 then some (.loopEnd, 1)
  else none

/-- Vert's instructions (R83). SEND and MEASURE with slot mask 0 are no instructions, as R83 says of DRIVE_ON and
DRIVE_OFF. DESIGN CHOICE, log 184. -/
def decodeVert (w w2 : Nat) (has2 : Bool) : Option (ProgOp × Nat) :=
  let ss := wBits w 11 10
  match wBits w 15 12 with
  | 0x1 =>
    let c := wBits w 3 0
    if ss < 3 ∧ wBits w 9 4 = 0 then
      if c < 12 then some (.sel ss (some c), 1) else if c = 15 then some (.sel ss none, 1) else none
    else none
  | 0x2 => if ss < 3 ∧ wBits w 9 6 = 0 then some (.setAmp ss (wBits w 5 0), 1) else none
  | 0x3 => if ss < 3 ∧ wBits w 9 8 = 0 then some (.setPh ss (wBits w 7 0), 1) else none
  | 0x4 => if ss < 3 ∧ wBits w 9 9 = 0 ∧ wBits w 7 5 = 0 then some (.setPhBuf ss (wBits w 8 8 = 1) (wBits w 4 0), 1) else none
  | 0x5 =>
    if has2 ∧ wBits w 11 1 = 0 ∧ 8000 ≤ w2 ∧ w2 ≤ 60000 then some (.setFreq (wBits w 0 0 = 1) w2, 2) else none
  | 0x6 => if wBits w 11 3 = 0 ∧ wBits w 2 0 ≠ 0 then some (.driveOn (wBits w 2 0), 1) else none
  | 0x7 => if wBits w 11 3 = 0 ∧ wBits w 2 0 ≠ 0 then some (.driveOff (wBits w 2 0), 1) else none
  | 0x8 =>
    if has2 ∧ wBits w 11 11 = 0 ∧ wBits w 10 8 ≠ 0 ∧ wBits w 7 0 ≠ 0 ∧ wBits w2 15 8 = 0 ∧ wBits w 7 0 + wBits w2 7 0 ≤ 256
    then some (.send (wBits w 10 8) (wBits w 7 0) (wBits w2 7 0), 2) else none
  | 0x9 =>
    if wBits w 11 9 ≠ 0 ∧ wBits w 8 8 = 0 ∧ wBits w 3 0 ≠ 0 then some (.measure (wBits w 11 9) (wBits w 7 4) (wBits w 3 0), 1)
    else none
  | _ => decodeShared w w2 has2

/-- Tenné's instructions (R121). -/
def decodeTenne (w w2 : Nat) (has2 : Bool) : Option (ProgOp × Nat) :=
  match wBits w 15 12 with
  | 0x1 => if wBits w 11 3 = 0 then some (.tnSynth (wBits w 2 0), 1) else none
  | 0x2 => if wBits w 11 8 = 0 ∧ wBits w 7 0 ≠ 0 then some (.tnWaitLock (wBits w 7 0), 1) else none
  | 0x3 => if wBits w 11 3 = 0 ∧ wBits w 2 0 < 3 then some (.tnRxOn (wBits w 2 0), 1) else none
  | 0x4 => if wBits w 11 0 = 0 then some (.tnRxOff, 1) else none
  | 0x5 => if wBits w 11 6 = 0 ∧ wBits w 5 0 ≠ 0 then some (.dcoc (wBits w 5 0), 1) else none
  | 0x6 =>
    if has2 ∧ wBits w 11 11 = 0 ∧ wBits w 10 8 < 3 ∧ wBits w 6 3 = 0 ∧ w2 ≠ 0
    then some (.tnRxFrame (wBits w 10 8) (wBits w 7 7 = 1) (wBits w 2 0) w2, 2) else none
  | 0x7 =>
    if wBits w 11 8 ≠ 0 ∧ wBits w 6 3 = 0 then some (.rssi (wBits w 11 8) (wBits w 7 7 = 1) (wBits w 2 0), 1) else none
  | 0x8 =>
    if wBits w 11 11 = 0 ∧ wBits w 10 8 < 3 ∧ wBits w 7 6 = 0 then some (.tnTxOn (wBits w 10 8) (wBits w 5 0), 1) else none
  | 0x9 => if wBits w 11 11 = 0 ∧ wBits w 10 8 = 3 ∧ wBits w 7 0 = 0 then some (.tnTxFrame, 1) else none
  | 0xA => if wBits w 11 0 = 0 then some (.tnTxOff, 1) else none
  | _ => decodeShared w w2 has2

/-- Azure's instructions (R146). -/
def decodeAzure (w w2 : Nat) (has2 : Bool) : Option (ProgOp × Nat) :=
  match wBits w 15 12 with
  | 0x1 => if wBits w 11 3 = 0 then some (.azPhy (wBits w 2 0), 1) else none
  | 0x2 => if wBits w 11 8 = 0 ∧ wBits w 7 0 ≠ 0 then some (.azWaitLock (wBits w 7 0), 1) else none
  | 0x3 =>
    if wBits w 11 11 = 0 ∧ wBits w 7 7 = 0 ∧ wBits w 3 0 = 0 ∧ wBits w 10 8 < 6 ∧ (wBits w 6 4 < 6 ∨ wBits w 6 4 = 7)
    then some (.azRxOn (wBits w 10 8) (wBits w 6 4), 1) else none
  | 0x4 => if wBits w 11 0 = 0 then some (.azRxOff, 1) else none
  | 0x5 =>
    if wBits w 11 11 = 0 ∧ wBits w 7 6 = 0 ∧ wBits w 10 8 < 6 ∧ wBits w 5 0 ≤ 40
    then some (.azTxOn (wBits w 10 8) (wBits w 5 0), 1) else none
  | 0x6 => if wBits w 11 0 = 0 then some (.azTxOff, 1) else none
  | 0x7 =>
    if has2 ∧ wBits w 11 11 = 0 ∧ (wBits w 10 8 = 0 ∨ wBits w 10 8 = 2) ∧ wBits w 7 3 = 0 ∧ wBits w 2 0 < 4 ∧ w2 ≠ 0
    then some (.azTxFrame (wBits w 10 8 = 2) (wBits w 2 0) w2, 2) else none
  | 0x8 =>
    if has2 ∧ wBits w 11 11 = 0 ∧ (wBits w 10 8 = 1 ∨ wBits w 10 8 = 3) ∧ wBits w 7 3 = 0 ∧ wBits w 2 0 < 4 ∧ w2 ≠ 0
    then some (.azRxFrame (wBits w 10 8 = 3) (wBits w 2 0) w2, 2) else none
  | 0x9 =>
    if wBits w 11 11 = 0 ∧ wBits w 7 7 = 0 ∧ wBits w 3 3 = 0 ∧ wBits w 10 8 < 6 ∧ wBits w 6 4 < 6 ∧ wBits w 2 0 < 4
    then some (.loopback (wBits w 10 8) (wBits w 6 4) (wBits w 2 0), 1) else none
  | _ => decodeShared w w2 has2

/-- An engine's instruction at the head of a word list. -/
def decodeOp (e : SeqId) : List Nat → Option (ProgOp × Nat)
  | [] => none
  | w :: ws =>
    let w2 := ws.headD 0
    let has2 := !ws.isEmpty
    match e with
    | .vert => decodeVert w w2 has2
    | .tenne => decodeTenne w w2 has2
    | .azure => decodeAzure w w2 has2

/-- Every instruction of a word list; none where a word is reserved or lacks its second word. -/
def decodeAll (e : SeqId) : Nat → List Nat → Option (List ProgOp)
  | _, [] => some []
  | 0, _ => none
  | k + 1, ws =>
    match decodeOp e ws with
    | none => none
    | some (op, n) => (decodeAll e k (ws.drop n)).map (op :: ·)

/-- The instructions from a word list up to and with the first HALT. -/
def decodeRun (e : SeqId) : Nat → List Nat → Option (List ProgOp)
  | 0, _ => none
  | k + 1, ws =>
    match decodeOp e ws with
    | none => none
    | some (.halt, _) => some [.halt]
    | some (op, n) => (decodeRun e k (ws.drop n)).map (op :: ·)

/-- The words from the head of a list up to and with its first HALT. -/
def runWords (e : SeqId) : Nat → List Nat → Option (List Nat)
  | 0, _ => none
  | k + 1, ws =>
    match decodeOp e ws with
    | none => none
    | some (.halt, _) => some [0]
    | some (_, n) => (runWords e k (ws.drop n)).map (ws.take n ++ ·)

/-- Words of an engine's program memory. -/
def progWords (e : SeqId) : Nat := match e with
  | .vert => 512
  | .azure => 512
  | .tenne => 256

/-- The program memory of an engine. -/
def progMem (s : State) (e : SeqId) : Mem := match e with
  | .vert => s.vert.prog
  | .azure => s.az.prog
  | .tenne => s.tn.prog

/-- Words of a program memory from a word address on. -/
def wordsFrom (m : Mem) (total start : Nat) : List Nat :=
  (List.range (total - start)).map fun i => (memRead m (2 * (start + i))).toNat + 256 * (memRead m (2 * (start + i) + 1)).toNat

/-- The loaded program that starts at a word address. -/
def programAt (s : State) (e : SeqId) (start : Nat) : Option (List ProgOp) :=
  decodeRun e (progWords e) (wordsFrom (progMem s e) (progWords e) start)

/-! ### Loops unrolled -/

/-- One executed instruction: the sum of i × STRIDE over its loops, and its innermost iteration index (none outside
every loop). -/
structure TraceOp where
  op : ProgOp
  off : Nat
  idx : Option Nat
  deriving DecidableEq, Repr

/-- Iteration `i` of a loop body: the innermost index of an instruction stays its own loop's. -/
def iteration (stride i : Nat) (body : List TraceOp) : List TraceOp :=
  body.map fun t => { t with off := t.off + i * stride, idx := some (t.idx.getD i) }

/-- One token put before the blocks that follow it: the head of the list is the innermost open block. LOOP_START runs
once, LOOP_END once an iteration. -/
def unrollStep (op : ProgOp) (acc : Option (List (List TraceOp))) : Option (List (List TraceOp)) :=
  match op, acc with
  | _, none => none
  | .loopEnd, some st => if st.length < 3 then some ([{ op := .loopEnd, off := 0, idx := none }] :: st) else none
  | .loopStart n stride, some (body :: outer :: rest) =>
    some (({ op := .loopStart n stride, off := 0, idx := none } ::
      (List.range n).flatMap (fun i => iteration stride i body) ++ outer) :: rest)
  | .loopStart _ _, some _ => none
  | o, some (b :: rest) => some (({ op := o, off := 0, idx := none } :: b) :: rest)
  | _, some [] => none

/-- The run of a program with its loops unrolled; none where loops are unbalanced or nest deeper than two (R53). -/
def unroll (ops : List ProgOp) : Option (List TraceOp) :=
  match ops.foldr unrollStep (some [[]]) with
  | some [t] => some t
  | _ => none

/-! ### R53 -/

/-- Offsets of the WAIT_TB instructions of a run. -/
def waitOffs (t : List TraceOp) : List Nat := t.filterMap fun x => match x.op with
  | .waitTb o => some (o + x.off)
  | _ => none

/-- A list of numbers, each greater than the one before. DEDUCED, log 159. -/
def rising : List Nat → Bool
  | a :: b :: l => decide (a < b) && rising (b :: l)
  | _ => true

/-- Per loop body: first and last WAIT_TB offset as written, against the stride (R53). -/
def bodiesOk : List ProgOp → List (Nat × List Nat) → Bool
  | [], _ => true
  | .loopStart _ s :: l, st => bodiesOk l ((s, []) :: st)
  | .waitTb o :: l, st => bodiesOk l (st.map fun p => (p.1, p.2 ++ [o]))
  | .loopEnd :: l, (s, ws) :: st =>
    (match ws.head?, ws.getLast? with
      | some a, some b => decide (b < a + s)
      | _, _ => true) && bodiesOk l st
  | _ :: l, st => bodiesOk l st

/-- The times between consecutive WAIT_TB points never exceed the distance: `upd` follows what an instruction leaves in
force, `time` gives its worst-case time (R53). -/
def timesOk {α : Type} (upd : α → ProgOp → α) (time : α → ProgOp → Nat) : α → List TraceOp → Option Nat → Nat → Bool
  | _, [], _, _ => true
  | a, x :: l, at_, used =>
    match x.op with
    | .waitTb o =>
      (match at_ with
        | some w => decide (used ≤ o + x.off - w)
        | none => true) && timesOk upd time a l (some (o + x.off)) 0
    | op => timesOk upd time (upd a op) l at_ (used + time (upd a op) op)

/-- The rules of R53 that all engines share; `time` gives an instruction's worst-case time. -/
def sharedOk {α : Type} (e : SeqId) (upd : α → ProgOp → α) (time : α → ProgOp → Nat) (a : α) (start : Nat) (ws : List Nat) :
    Bool :=
  !ws.isEmpty && start + ws.length ≤ progWords e &&
  match decodeAll e ws.length ws with
  | none => false
  | some ops =>
    decide (ops.getLast? = some .halt) &&
    match unroll ops with
    | none => false
    | some t => rising (waitOffs t) && bodiesOk ops [] && timesOk upd time a t none 0

/-! ### Vert (R84, R89) -/

/-- Worst-case times of Vert's instructions (R89). -/
def vertTime : ProgOp → Nat
  | .setFreq _ _ => 2
  | .send _ n _ => 4800 * n
  | _ => 1

/-- What R84 tracks through a run: channel and drive of each slot, whether a frequency is set, and the previous op. -/
structure VertCheck where
  ch : List (Option Nat) := [none, none, none]
  on : List Bool := [false, false, false]
  freq : Bool := false
  afterWait : Bool := false
  deriving DecidableEq, Repr

/-- The slots of a mask. -/
def maskSlots (m : Nat) : List Nat := (List.range 3).filter (bitAt m)

/-- One instruction against R84, given the populated channels. -/
def vertStep (pop : Nat) (c : VertCheck) (op : ProgOp) : Option VertCheck :=
  let c' := { c with afterWait := false }
  let has (m : Nat) : Bool := (maskSlots m).all fun i => ((c.ch[i]?).getD none).isSome
  match op with
  | .waitTb _ => some { c with afterWait := true }
  | .sel s none => if (c.on[s]?).getD false then none else some { c' with ch := c.ch.set s none }
  | .sel s (some k) =>
    if (c.on[s]?).getD false || !bitAt pop k || (c.ch.zipIdx.any fun p => p.1 == some k && p.2 != s) then none
    else some { c' with ch := c.ch.set s (some k) }
  | .setFreq t _ =>
    if c.on.any id || (t && 1 < (c.ch.filter Option.isSome).length) then none else some { c' with freq := true }
  | .driveOn m => if has m && c.freq then some { c' with on := c.on.zipIdx.map fun p => p.1 || bitAt m p.2 } else none
  | .driveOff m => some { c' with on := c.on.zipIdx.map fun p => p.1 && !bitAt m p.2 }
  | .send m _ _ =>
    if has m && c.freq && c.afterWait then some { c' with on := c.on.zipIdx.map fun p => p.1 && !bitAt m p.2 } else none
  | .measure m _ _ => if has m then some c' else none
  | _ => some c'

/-- A run folded through a check. -/
def foldCheck {α : Type} (f : α → ProgOp → Option α) : α → List TraceOp → Option α
  | a, [] => some a
  | a, x :: l => match f a x.op with
    | none => none
    | some b => if x.op = .halt then some b else foldCheck f b l

/-- Validation of a Vert program (R53, R84). DEDUCED, log 159. -/
def vertProgOk (pop start : Nat) (ws : List Nat) : Bool :=
  sharedOk .vert (fun a _ => a) (fun _ => vertTime) () start ws &&
  match (decodeAll .vert ws.length ws).bind unroll with
  | none => false
  | some t => (foldCheck (vertStep pop) {} t).isSome

/-- The channels that a program connects to a slot (R80). -/
def progChannels (ops : List ProgOp) : List Nat := ops.filterMap fun o => match o with
  | .sel _ c => c
  | _ => none

/-- One instruction of a run: the channel of each slot, and the channels driven so far. -/
def driveStep (acc : List (Option Nat) × List Nat) (x : TraceOp) : List (Option Nat) × List Nat :=
  let of (m : Nat) : List Nat := (maskSlots m).filterMap fun i => (acc.1[i]?).getD none
  match x.op with
  | .sel s c => (acc.1.set s c, acc.2)
  | .driveOn m => (acc.1, acc.2 ++ of m)
  | .send m _ _ => (acc.1, acc.2 ++ of m)
  | _ => acc

/-- The channels that a program drives (R70). -/
def progDrives (ops : List ProgOp) : List Nat :=
  match unroll ops with
  | some t => (t.foldl driveStep ([none, none, none], [])).2
  | none => []

/-! ### Tenné (R122, R125) -/

/-- Bit period of a demodulator profile, in ticks (R97). -/
def bitPeriod (p : Nat) : Nat := if p = 1 then 4000 else 2000

/-- Bits of a frame format (R104, R108, R111, R115). -/
def formatBits (f : Nat) : Nat := match f with
  | 0 => 18
  | 1 => 88
  | _ => 216

/-- Records of a frame format (R121). -/
def formatRecords (f : Nat) : Nat := match f with
  | 0 => 1
  | 1 => 2
  | _ => 4

/-- Worst-case times of Tenné's instructions under a profile (R125). -/
def tenneTime (p ackBits : Nat) : ProgOp → Nat
  | .tnWaitLock t => 64 * t
  | .dcoc n => 16 * n + 1
  | .tnRxFrame f _ _ s => s + formatBits f * bitPeriod p + 1
  | .rssi n _ _ => 64 * n + 1
  | .tnTxOn _ _ => 1153
  | .tnTxFrame => ackBits * bitPeriod p + 1
  | _ => 1

/-- What R122 tracks through a run. -/
structure TenneCheck where
  locked : Bool := false
  entry : Nat := 0
  rx : Option Nat := none
  tx : Option Nat := none
  deriving DecidableEq, Repr

/-- Formats 0 and 1 need profile 0, formats 2 and 3 profile 1 or 2 (R121). -/
def formatFits (f p : Nat) : Bool := if f < 2 then p == 0 else p != 0

/-- One instruction against R122 and R191; `txOk`: the launching entry has TX = 1, `pwr` gives PWR_MAX by entry.
DESIGN CHOICE, log 189. -/
def tenneStep (txOk : Bool) (pwr : Nat → Nat) (c : TenneCheck) (op : ProgOp) : Option TenneCheck :=
  match op with
  | .tnSynth n => if c.rx.isSome || c.tx.isSome then none else some { c with locked := false, entry := n }
  | .tnWaitLock _ => some { c with locked := true }
  | .tnRxOn p => if c.locked && c.tx.isNone then some { c with rx := some p } else none
  | .tnTxOn p st => if c.locked && c.rx.isNone && txOk && st ≤ pwr c.entry then some { c with tx := some p } else none
  | .tnRxFrame f _ _ _ => match c.rx with
    | some p => if formatFits f p then some c else none
    | none => none
  | .rssi _ _ _ => if c.rx.isSome then some c else none
  | .dcoc _ => if c.rx.isSome then some c else none
  | .tnTxFrame => match c.tx with
    | some p => if formatFits 3 p then some c else none
    | none => none
  | .tnRxOff => some { c with rx := none }
  | .tnTxOff => some { c with tx := none }
  | _ => some c

/-- R plus the records less one plus the iteration index stays within 7 (R122). -/
def tenneRecOk (x : TraceOp) : Bool := match x.op with
  | .tnRxFrame f i r _ => r + formatRecords f - 1 + (if i then x.idx.getD 0 else 0) ≤ 7
  | .rssi _ i r => r + (if i then x.idx.getD 0 else 0) ≤ 7
  | _ => true

/-- The profile in force after an instruction of Tenné: that of the last RX_ON or TX_ON. -/
def tenneProfile (p : Nat) : ProgOp → Nat
  | .tnRxOn q => q
  | .tnTxOn q _ => q
  | _ => p

/-- Validation of a Tenné program (R53, R122, R191). DEDUCED, log 159. -/
def tenneProgOk (txOk : Bool) (pwr : Nat → Nat) (start : Nat) (ws : List Nat) : Bool :=
  match (decodeAll .tenne ws.length ws).bind unroll with
  | none => false
  | some t =>
    sharedOk .tenne tenneProfile (fun p => tenneTime p 120) 0 start ws && (foldCheck (tenneStep txOk pwr) {} t).isSome &&
      t.all tenneRecOk

/-- Whether a run contains TX_ON or LOOPBACK. -/
def progEmits (ops : List ProgOp) : Bool := ops.any fun o => match o with
  | .tnTxOn _ _ => true
  | .azTxOn _ _ => true
  | .loopback _ _ _ => true
  | _ => false

/-! ### Azure (R132, R147, R150) -/

/-- Word 0 of a PHY entry (R130). -/
def phyWord (p : AzPhy) : Nat :=
  p.chan.toNat + 2 * p.prf.toNat + 8 * p.code.toNat + 256 * p.psr.toNat + 2048 * p.sfd.toNat + 8192 * p.sp.toNat +
    32768 * p.stsLen.toNat + 131072 * p.stsSeg.toNat + 524288 * p.rate.toNat

/-- Preamble symbols of a PSR code, and SFD symbols (R130). -/
def psrSymbols (c : Nat) : Nat := [16, 24, 32, 48, 64, 96, 128, 256].getD c 0

def sfdSymbols (c : Nat) : Nat := [4, 8, 16, 32].getD c 0

/-- STS units of a STS_LEN code. -/
def stsUnits (c : Nat) : Nat := [32, 64, 128, 256].getD c 0

/-- Chips before the RMARKER (R132). -/
def chipsBefore (p : AzPhy) : Nat :=
  if p.prf = 0 then 508 * (psrSymbols p.psr.toNat + sfdSymbols p.sfd.toNat) else Config.hprfBefore (phyWord p)

/-- Chips after the RMARKER of a frame with SP `sp` and `n` PSDU octets (R132). -/
def chipsAfter (p : AzPhy) (sp n : Nat) : Nat :=
  if p.prf = 0 then
    (p.stsSeg.toNat + 1) * (512 * stsUnits p.stsLen.toNat + 512) + (if sp = 3 then 0 else 9728 + (8 * n + 48) * 64)
  else Config.hprfAfter (phyWord { p with sp := BitVec.ofNat 2 sp }) n

/-- Ticks, rounded up, before and after the RMARKER of POLL, RESP and FINAL, and after that of a REPORT. -/
def ticksBefore (p : AzPhy) : Nat := ceilDiv (chipsBefore p) 13

def ticksAfter (p : AzPhy) : Nat := ceilDiv (chipsAfter p p.sp.toNat 4) 13

def ticksAfterReport (p : AzPhy) : Nat := ceilDiv (chipsAfter p 1 18) 13

/-- Worst-case times of Azure's instructions under the PHY entry in force (R150). -/
def azureTime (p : AzPhy) : ProgOp → Nat
  | .azWaitLock t => 64 * t
  | .azRxOn _ _ => 193
  | .azTxOn _ _ => 769
  | .azTxFrame _ _ lead => lead + ticksAfter p + 1
  | .azRxFrame false _ s => s + ticksAfter p + 1
  | .azRxFrame true _ s => s + ticksAfterReport p + 1
  | .loopback _ _ _ => 12801
  | _ => 1

/-- What R147 tracks through a run. -/
structure AzureCheck where
  locked : Bool := false
  entry : Nat := 0
  rx : Option Nat := none
  tx : Option Nat := none
  lastPoll : Option Nat := none
  afterWait : Bool := false
  deriving DecidableEq, Repr

/-- What a program may use: ports populated, ports with TX allowed, the PHY entries, the launching entry's TX. -/
structure AzureTables where
  pop : Nat
  txAllowed : Nat
  phy : Nat → AzPhy
  txOk : Bool

/-- One instruction against R147. -/
def azureStep (t : AzureTables) (c : AzureCheck) (op : ProgOp) : Option AzureCheck :=
  let c' := { c with afterWait := false }
  match op with
  | .waitTb _ => some { c with afterWait := true }
  | .azPhy n => if c.rx.isSome || c.tx.isSome then none else some { c' with locked := false, entry := n }
  | .azWaitLock _ => some { c' with locked := true }
  | .azRxOn a b =>
    if c.locked && c.tx.isNone && a != b && bitAt t.pop a && (b == 7 || bitAt t.pop b) then some { c' with rx := some a } else none
  | .azTxOn p _ =>
    if c.locked && c.rx.isNone && bitAt t.pop p && bitAt t.txAllowed p && t.txOk then some { c' with tx := some p } else none
  | .azTxFrame final _ lead =>
    if c.afterWait && ticksBefore (t.phy c.entry) + 64 ≤ lead then
      some { c' with lastPoll := if final then c.lastPoll else c.tx }
    else none
  | .azRxFrame report _ _ =>
    if !report && c.lastPoll.isSome && c.rx != c.lastPoll then none else some c'
  | .loopback p q _ =>
    if c.rx.isSome || c.tx.isSome || !bitAt t.pop p || !bitAt t.pop q || !bitAt t.txAllowed p || !t.txOk then none else some c'
  | .azRxOff => some { c' with rx := none }
  | .azTxOff => some { c' with tx := none }
  | _ => some c'

/-- The PHY entry in force after an instruction of Azure. -/
def azureEntry (n : Nat) : ProgOp → Nat
  | .azPhy m => m
  | _ => n

/-- Validation of an Azure program (R53, R147). DEDUCED, log 159. -/
def azureProgOk (tb : AzureTables) (start : Nat) (ws : List Nat) : Bool :=
  match (decodeAll .azure ws.length ws).bind unroll with
  | none => false
  | some t =>
    sharedOk .azure azureEntry (fun n => azureTime (tb.phy n)) 0 start ws && (foldCheck (azureStep tb) {} t).isSome

/-- The ports that a program uses (R145). -/
def progPorts (ops : List ProgOp) : List Nat := (ops.flatMap fun o => match o with
  | .azRxOn a b => [a, b]
  | .azTxOn p _ => [p]
  | .loopback p q _ => [p, q]
  | _ => []).filter (· < 6)

end Sys2Proof.Machine
end

