-- ==== Sys2Proof/Machine/Bundle.lean ====
section
/-! DEFINITION. The configuration bundle's sections and the values that the device reads from them (R392). -/

namespace Sys2Proof.Machine

open Sys2Proof

/-- Sections of a bundle's plaintext after its header: TYPE, SLEN, body, zero-padded to a multiple of 4; none where
the structure breaks. -/
def parseSecs : Nat → Bytes → Option (List (Nat × Bytes))
  | 0, _ => none
  | k + 1, bs =>
    if bs.isEmpty then some []
    else
      let n := leAt bs 2 2
      let padded := ceilDiv n 4 * 4
      if bs.length < 4 + padded || !allZero (slice bs (4 + n) (padded - n)) then none
      else (parseSecs k (bs.drop (4 + padded))).map ((leAt bs 0 2, slice bs 4 n) :: ·)

/-- The bundle that a plaintext spells, structure only. -/
def parseBundle (bs : Bytes) : Option Bundle :=
  (parseSecs bs.length (bs.drop 32)).map fun l => { seq := BitVec.ofNat 32 (leAt bs 8 4), model := slice bs 16 16, secs := l }

/-- The first section of a type. -/
def secOfBundle (b : Bundle) (t : Nat) : Bytes := ((b.secs.find? fun p => p.1 == t).map (·.2)).getD []

/-- The first section of a type in the loaded bundle, empty without a bundle. -/
def secOf (s : State) (t : Nat) : Bytes :=
  match s.cmds.bundle with
  | some b => secOfBundle b t
  | none => []

/-- A byte of the GENERAL section, with the value that stands without a bundle. -/
def general (s : State) (i d : Nat) : Nat :=
  match s.cmds.bundle with
  | some b => byteAt (secOfBundle b 1) i
  | none => d

/-- VID (R392). -/
def vidOf (s : State) : Nat := leAt (secOf s 1) 0 2

/-- AQMOS_EN and AMBER_EN. -/
def aqmosEn (s : State) : Bool := bitAt (general s 4 0) 0

def amberEn (s : State) : Bool := bitAt (general s 4 0) 1

/-- PRESS_PROFILE, HF_RATE, HF_ROLE and HF_DOORS. -/
def pressProfile (s : State) : Nat := general s 5 1

/-- Ticks of one copy of a press telegram. -/
def copyTicks (profile : Nat) : Nat := if profile = 2 then 432000 else 864000

/-- Two copy lengths of the press profile (R193, R194). DEDUCED, log 139. -/
def searchTicks (s : State) : Nat := 2 * copyTicks (pressProfile s)

/-- The first channel-table entry with SNIFF set. DEDUCED, log 49. -/
def sniffEntry (s : State) : Nat :=
  (((List.finRange 8).find? fun i => (s.tn.chan[i]).sniff).map (·.val)).getD 0

def hfRate (s : State) : Nat := general s 6 0

def hfRoleEntry (s : State) : Bool := bitAt (general s 7 0) 0

def hfRoleStart (s : State) : Bool := bitAt (general s 7 0) 1

def hfDoors (s : State) : BitVec 4 := BitVec.ofNat 4 (general s 8 0)

/-- T_ENTRY in seconds, reference value 30 (R174). -/
def tEntry (s : State) : Nat := general s 9 30

/-- LOCKOUT_MIN and HF_LOCKOUT_MIN in minutes, reference value 5 (R176, R212). -/
def lockoutMin (s : State) : Nat := general s 10 5

def hfLockoutMin (s : State) : Nat := general s 11 5

/-- T_HF_LINGER in seconds, reference value 30 (R206). -/
def tHfLinger (s : State) : Nat := general s 12 30

/-- A handle-table entry: touch channel, near zone and door (R172); unused entries read none. -/
structure Handle where
  ch : Nat
  zone : Nat
  door : Nat
  deriving DecidableEq, Repr

/-- The handle table: the bundle's, or the defaults of R172. The ZONE byte is a zone number, no mask of zones.
DESIGN CHOICE, log 186. -/
def handles (s : State) : List (Nat × Handle) :=
  match s.cmds.bundle with
  | none => [(0, { ch := 0, zone := 1, door := 0 }), (1, { ch := 1, zone := 2, door := 1 })]
  | some b =>
    let h := secOfBundle b 9
    (List.range 4).filterMap fun i =>
      if byteAt h (4 * i) = 0xFF then none
      else some (i, { ch := byteAt h (4 * i), zone := byteAt h (4 * i + 1), door := byteAt h (4 * i + 2) })

/-- The handle-table entry that names a touch channel. -/
def handleOf (s : State) (ch : Nat) : Option (Nat × Handle) := (handles s).find? fun p => p.2.ch == ch

/-- Mask of the doors of every handle-table entry (R173). -/
def allDoors (s : State) : BitVec 4 :=
  (handles s).foldl (fun m p => m ||| BitVec.ofNat 4 (2 ^ p.2.door)) 0

/-- The substitutes that the bundle lists for an LF channel (R80). -/
def lfSubs (s : State) (c : Nat) : List Nat :=
  ([byteAt (secOf s 2) (4 + 2 * c), byteAt (secOf s 2) (5 + 2 * c)]).filter (· < 12)

/-- A UWB port record of the bundle, 20 bytes, and a pair record, 12 bytes (R392, UWB_PORTS). -/
def uwbPort (s : State) (p : Nat) : Bytes := slice (secOf s 5) (20 * p) 20

def uwbPair (s : State) (p : Nat) : Bytes := slice (secOf s 5) (120 + 12 * p) 12

/-- Ports with TX allowed. -/
def uwbTxAllowed (s : State) : Nat :=
  (List.range 6).foldl (fun m p => m + 2 ^ p * b2n (bitAt (byteAt (uwbPort s p) 16) 1)) 0

/-- Substitute ports of a port and substitute pairs of a pair. -/
def uwbPortSubs (s : State) (p : Nat) : List Nat :=
  ([byteAt (uwbPort s p) 17, byteAt (uwbPort s p) 18]).filter (· < 6)

/-- The configured pairs: index, chain A port and chain B port. -/
def uwbPairs (s : State) : List (Nat × Nat × Nat) :=
  (List.range 6).filterMap fun i =>
    let b := uwbPair s i
    if b.isEmpty || 6 ≤ byteAt b 0 || 6 ≤ byteAt b 1 then none else some (i, byteAt b 0, byteAt b 1)

end Sys2Proof.Machine
end

