-- ==== Sys2Proof/Machine/Time.lean ====
section
/-! DEFINITION. The passing of time: timebase, RTC, duty accounts and the model's own clock. -/

namespace Sys2Proof.Machine

open Sys2Proof

/-- The RTC after `n` ticks of 1/38.4 MHz: 32,768 periods are 38,400,000 ticks, 9,375 ⁄ 8 ticks a period (R31). The
answer's second part is the number of RTC periods that passed. -/
def rtcAdvance (r : Rtc) (n : Nat) : Rtc × Nat :=
  let acc := r.acc + 8 * n
  let periods := acc / 9375
  let f := r.frac.toNat + periods
  ({ r with acc := acc % 9375, frac := BitVec.ofNat 15 (f % 32768), secs := BitVec.ofNat 32 (r.secs.toNat + f / 32768) },
    periods)

/-- Units in which a duty account counts: 1 ⁄ (3,969 × 384) (R70). -/
def dutyUnit : Nat := 3969 * 384

/-- A duty account's capacity of 18,000 and its clearing level of 9,000. -/
def dutyCap : Nat := 18000 * dutyUnit

def dutyLow : Nat := 9000 * dutyUnit

/-- A duty account after `n` ticks at amplitude `amp` (none: not driven): it rises by (AMP ⁄ 63)² and falls by 0.1
each microsecond, down to 0 and up to its capacity (R70). -/
def dutyAfter (acc n : Nat) (amp : Option Nat) : Nat :=
  let rate : Int := (match amp with
    | some a => 10 * (a * a : Nat)
    | none => 0) - 3969
  let x : Int := (acc : Int) + rate * n
  Nat.min dutyCap x.toNat

/-- Bit `k` of a SEND: buffer bits go out most significant bit first from bit offset B (R86). -/
def sendBit (v : Vert) (sd : LfSend) (k : Nat) : Bool :=
  bitAt (memRead v.buf ((sd.first + k) / 8)).toNat (7 - (sd.first + k) % 8)

/-! ### The carrier (R68, R69, R73, R74) -/

/-- Carrier periods are counted in units of 1 ⁄ 1,600 of 2.5 Hz: TRIM moves the frequency in steps of 0.0625 % (R73). -/
def carrierUnit : Nat := 15360000 * 1600

/-- The slots that have a channel. -/
def slotsUsed (v : Vert) : Nat := (v.slot.toList.filter fun l => l.ch.isSome).length

/-- The frequency trim in force: that of the channel that S0 holds, after SET_FREQ with T = 1, while no other slot has a
channel (R73, R74, R83). DESIGN CHOICE, log 188. -/
def trimNow (v : Vert) : Int :=
  match (v.slot[(0 : Fin 3)]).ch with
  | some c => if v.freqTrim && slotsUsed v == 1 then (v.ch[c]).trim else 0
  | none => 0

/-- The carrier's frequency in units of 2.5 ⁄ 1,600 Hz. -/
def carrierRate (v : Vert) : Nat := v.freq.toNat * (1600 + trimNow v).toNat

/-- Ticks of `k` carrier periods, rounded up (R69). DEDUCED, log 33. -/
def carrierTicks (v : Vert) (k : Nat) : Nat := if carrierRate v = 0 then 0 else ceilDiv (k * carrierUnit) (carrierRate v)

/-- The first tick at or after `t` at which the NCO reference plus `ph` ⁄ 256 turn is a whole number of turns (`m` = 1)
or of half turns (`m` = 2), or the tick `more` such turns after it. The reference has phase 0 at `org` ⁄ 32 ticks: T_L with FINE
(R68), counted at the frequency in force, whatever SET_FREQ ran before. DEDUCED, log 33. DESIGN CHOICE, log 188. -/
def carrierAt (org rate ph m t : Nat) (more : Nat := 0) : Nat :=
  if rate = 0 then t
  else
    let d := 32 * carrierUnit
    let k := ceilDiv (m * ((32 * t - org) * rate * 256 + ph * d)) (256 * d) + more
    Nat.max t (ceilDiv (ceilDiv ((256 * k - m * ph) * d) (256 * m * rate) + org) 32)

/-- Amplitude and phase that act on a slot at tick `t` (R85). -/
def actAmp (l : LfSlot) (t : Nat) : Nat := if t < l.setAt then l.ampWas.toNat else l.amp.toNat

def actPh (l : LfSlot) (t : Nat) : Nat := if t < l.setAt then l.phWas.toNat else l.ph.toNat

/-- The phase of a slot's drive: its PH, less the channel's PH_COMP while FREQ equals F_LF (R73, R74). -/
def drivePh (v : Vert) (i : Fin 3) (t : Nat) : Nat :=
  let l := v.slot[i]
  match l.ch with
  | some c => if v.freq = v.nomFreq then (((actPh l t : Int) - (v.ch[c]).phComp) % 256).toNat else actPh l t
  | none => actPh l t

/-- A slot's carrier period boundary at or after tick `t` (R85, R86, R88), or the one `more` periods later. -/
def slotEdge (v : Vert) (i : Fin 3) (t : Nat) (more : Nat := 0) : Nat :=
  carrierAt v.nco (carrierRate v) (drivePh v i t) 1 t more

/-- A slot's next current zero crossing: the current follows the reference plus PH (R68, R85). DEDUCED, log 30. -/
def slotZero (v : Vert) (i : Fin 3) (t : Nat) : Nat := carrierAt v.nco (carrierRate v) (actPh v.slot[i] t) 2 t

/-! ### Which slots drive (R78, R85, R86) -/

/-- The tick at which the edge of half bit `j` of a SEND takes effect on a slot: the first carrier period boundary at or
after its nominal tick (R86). -/
def sendEdge (v : Vert) (sd : LfSend) (i : Fin 3) (j : Nat) : Nat := slotEdge v i (sd.wt + 2400 * j)

/-- The half bit of a SEND that acts on a slot at tick `t`; none before its first edge. -/
def sendHalf (v : Vert) (sd : LfSend) (i : Fin 3) (t : Nat) : Option Nat :=
  if t < sd.wt then none
  else
    let j := Nat.min ((t - sd.wt) / 2400) (2 * sd.n)
    if sendEdge v sd i j ≤ t then some j else if j = 0 then none else some (j - 1)

/-- Whether half bit `j` of a SEND drives: a 1 in the first half of its bit period, a 0 in the second, nothing after the
last bit (R86). -/
def halfDrives (v : Vert) (sd : LfSend) (j : Nat) : Bool :=
  decide (j < 2 * sd.n) && (sendBit v sd (j / 2) == decide (j % 2 = 0))

/-- Whether a channel may be driven: UNPOPULATED channels never are (R78). -/
def chDrivable (v : Vert) (c : Option (Fin 12)) : Bool :=
  match c with
  | some k => bitAt v.pop.toNat k.val
  | none => false

/-- The channel that the bridge of a slot drives at tick `t` by DRIVE_ON and DRIVE_OFF alone: the slot's own once driven, the
one it drove last until its bridge stops (R85). -/
def bridgeCh (l : LfSlot) (t : Nat) : Option (Fin 12) :=
  if l.driven && decide (l.onAt ≤ t) then l.ch else if t < l.offAt then l.tail else none

/-- The channel that slot `i` drives at tick `t`. -/
def slotDrives (v : Vert) (t : Nat) (i : Fin 3) : Option (Fin 12) :=
  let l := v.slot[i]
  let c := match v.send with
    | some sd =>
      if bitAt sd.mask.toNat i.val then
        match sendHalf v sd i t with
        | some j => if halfDrives v sd j then l.ch else none
        | none => bridgeCh l t
      else bridgeCh l t
    | none => bridgeCh l t
  if chDrivable v c then c else none

/-- Whether slot `i` drives a coil at tick `t`. -/
def slotOn (v : Vert) (t : Nat) (i : Fin 3) : Bool := (slotDrives v t i).isSome

/-- The slots that drive at tick `t`, in number. -/
def slotsOn (v : Vert) (t : Nat) : Nat := ((List.finRange 3).filter (slotOn v t)).length

/-- The amplitude at which a channel is driven at tick `t`: that of the slot that drives it. -/
def drivenAmp (v : Vert) (t : Nat) (c : Fin 12) : Option Nat :=
  (List.finRange 3).findSome? fun i => if slotDrives v t i = some c then some (actAmp v.slot[i] t) else none

/-- A burst that ends on a channel: it is measurable after 16 carrier periods, or where a MEASURE covered it (R72). Its first
and last edges stand at whole ticks, so that 16 periods may count a tick less. DEDUCED, log 33. -/
def endedBurst (v : Vert) (x : LfChannel) : LfBurst :=
  { amp := x.runAmp
    measurable := x.runCovered || decide (16 * carrierUnit ≤ (x.run + 1) * carrierRate v)
    coherent := x.runMulti, atNominal := decide (v.freq = v.nomFreq) }

/-- A channel after `n` > 0 ticks, driven at amplitude `amp` or idle: its duty account, its burst under way, and the
bursts driven on it (R70, R72, R93). DEDUCED, log 31. -/
def chElapse (v : Vert) (multi : Bool) (n : Nat) (amp : Option Nat) (x : LfChannel) : LfChannel :=
  let y := { x with duty := dutyAfter x.duty n amp }
  match amp with
  | some a =>
    { y with
      bursts := if x.run = 0 then satInc x.bursts else x.bursts
      run := x.run + n, runAmp := a, runMulti := multi || (x.runMulti && decide (x.run ≠ 0))
      runCovered := x.runCovered && decide (x.run ≠ 0) }
  | none =>
    if x.run = 0 then y
    else { y with run := 0, runMulti := false, runCovered := false, ended := some (endedBurst v x) }

/-- The channels after `n` ticks from tick `t`, with the drive of tick `t` throughout. -/
def dutySeg (v : Vert) (t n : Nat) : Vert :=
  if n = 0 then v
  else { v with ch := Vector.ofFn fun c => chElapse v (decide (2 ≤ slotsOn v t)) n (drivenAmp v t c) v.ch[c] }

/-- Ticks after which a slot's drive may change: its start and stop, a new amplitude, and a SEND's next edges. -/
def slotEvents (v : Vert) (t : Nat) (i : Fin 3) : List Nat :=
  let l := v.slot[i]
  [l.onAt, l.offAt, l.setAt] ++ match v.send with
    | some sd =>
      let j := (t - sd.wt) / 2400
      if !bitAt sd.mask.toNat i.val || decide (2 * sd.n < j) then [] else [sendEdge v sd i j, sendEdge v sd i (j + 1)]
    | none => []

/-- Ticks from `t` to the next change of the drive, at most `n`. -/
def segLen (v : Vert) (t n : Nat) : Nat :=
  ((List.finRange 3).flatMap (slotEvents v t)).foldl (fun m x => if t < x then Nat.min m (x - t) else m) n

/-- The channels after `n` ticks from tick `t`, from one change of the drive to the next. DEDUCED, log 30. -/
def dutyElapse : Nat → Vert → Nat → Nat → Vert
  | 0, v, t, n => dutySeg v t n
  | k + 1, v, t, n =>
    let m := segLen v t n
    if m < n then dutyElapse k (dutySeg v t m) (t + m) (n - m) else dutySeg v t n

/-- `n` ticks of real time pass: the timebase counts while Celeste's clock runs and is held otherwise (R30, R31),
the RTC counts, the duty accounts fall or rise. DESIGN CHOICE, log 2, 19, 168. -/
def elapse (s : State) (n : Nat) : State :=
  let (r, periods) := rtcAdvance s.rtc n
  { s with
    clock := s.clock + n
    rtc := r
    cel := if s.cel.tbRun then { s.cel with timebase := s.cel.timebase + n }
      else { s.cel with heldPeriods := s.cel.heldPeriods + periods }
    vert := dutyElapse 2000 s.vert (now s) n
    bg := if s.pwr.pstate = .chalk then { s.bg with pu := { s.bg.pu with chalkTicks := s.bg.pu.chalkTicks + n } } else s.bg }

/-- Time passes up to tick `t` of the timebase, not at all where it has passed already or the timebase is held. -/
def elapseTo (s : State) (t : Nat) : State :=
  if s.cel.tbRun && now s < t then elapse s (t - now s) else s

/-- Time passes up to `t` of the model's own clock. -/
def elapseToClock (s : State) (t : Nat) : State :=
  if s.clock < t then elapse s (t - s.clock) else s

/-- Ticks spent in Chalk, in which the background cadences count (R444, R448). DEDUCED, log 170. -/
def chalkNow (s : State) : Nat := s.bg.pu.chalkTicks

/-- Time passes in Chalk until a cadence is due. -/
def elapseChalk (s : State) (due : Nat) : State := if chalkNow s < due then elapse s (due - chalkNow s) else s

/-- A background pass that ends more than one full cadence after it was due is counted (R446, R450). -/
def countLate (s : State) (due cadence : Nat) : State :=
  if due + cadence < chalkNow s then { s with bg := { s.bg with pu := { s.bg.pu with bgOverrun := satInc s.bg.pu.bgOverrun } } } else s

/-- Ticks until the RTC reads second `t`, rounded up to whole periods. -/
def ticksToRtc (r : Rtc) (t : Nat) : Nat :=
  let have_ := r.secs.toNat * 32768 + r.frac.toNat
  let want := t * 32768
  if want ≤ have_ then 0 else ceilDiv ((want - have_) * 9375 - r.acc) 8

/-- Time passes until the RTC reads second `t`. -/
def elapseToRtc (s : State) (t : Nat) : State :=
  let n := ticksToRtc s.rtc t
  if n = 0 then s else elapse s n

/-- Celeste's clock stops: the timebase is held (R30). -/
def tbHold (s : State) : State :=
  if s.cel.tbRun then { s with cel := { s.cel with tbRun := false, tbSrc := .held, heldPeriods := 0 } } else s

/-- Celeste's clock restarts from a source, where its gate is open (R30, R406): the held count is first advanced by
ceil(n × 9,375 ⁄ 8) ticks for the n RTC periods that elapsed (R31). -/
def tbRestart (s : State) (src : TbSource) : State :=
  if !bitAt s.clk.gate.toNat 10 then s
  else if s.cel.tbRun then { s with cel := { s.cel with tbSrc := src } }
  else { s with cel := { s.cel with
      tbRun := true, tbSrc := src, heldPeriods := 0, timebase := now s + ceilDiv (s.cel.heldPeriods * 9375) 8 } }

end Sys2Proof.Machine
end

