-- ==== Sys2Proof/Machine/Links.lean ====
section
/-! DEFINITION. The barrier's lanes: short frames with their check under the epoch, bulk frames, credits, mailbox
records on their way to the posted-write buffer, and Argent's VSTATE (R338 to R348, R367 to R369). -/

namespace Sys2Proof.Machine

open Sys2Proof

/-! ### Short frames (R339 to R341) -/

/-- The end that sends on a lane, and the end that receives. -/
def senderEnd (b : Barrier) (toHost : Bool) : BarEnd := if toHost then b.fieldEnd else b.hostEnd

def receiverEnd (b : Barrier) (toHost : Bool) : BarEnd := if toHost then b.hostEnd else b.fieldEnd

/-- A change of one end. -/
def setEnd (b : Barrier) (host : Bool) (e : BarEnd) : Barrier :=
  if host then { b with hostEnd := e } else { b with fieldEnd := e }

def endOf (b : Barrier) (host : Bool) : BarEnd := if host then b.hostEnd else b.fieldEnd

/-- The priority lane of a direction. -/
def prioLane (b : Barrier) (toHost : Bool) : PrioLane := if toHost then b.toHost else b.toField

def setPrio (b : Barrier) (toHost : Bool) (l : PrioLane) : Barrier :=
  if toHost then { b with toHost := l } else { b with toField := l }

/-- Frame bits 1 to 21: KIND, SEQ, PAYLOAD (R339). -/
def shortBits (kind : Nat) (seq : Bool) (payload : BitVec 17) : List Bool :=
  natBits 3 kind ++ [seq] ++ natBits 17 payload.toNat

/-- CHECK: the register is fed the seed epoch, then frame bits 1 to 21; EPOCH frames use seed 0 (R341).
DEDUCED, log 99. -/
def shortCheck (epoch : W32) (kind : Nat) (seq : Bool) (payload : BitVec 17) : W16 :=
  BitVec.ofNat 16 (crc16Bits 0xFFFF (natBits 32 (if kind == 4 then 0 else epoch.toNat) ++ shortBits kind seq payload))

/-- The 38 bits of a frame, START in bit 0 (R339). -/
def shortImage (f : ShortFrame) : BitVec 38 :=
  BitVec.ofNat 38 (2 * f.kind.val + 16 * b2n f.seq + 32 * f.payload.toNat + 0x400000 * f.check.toNat)

/-- A verdict frame: VERDICT_ENTRY or VERDICT_START from the field die (R340). -/
def isVerdict (toHost : Bool) (kind : Nat) : Bool := toHost && (kind == 1 || kind == 2)

/-- SEQ alternates per frame of the lane direction: the frames not yet taken are numbered on from `seq`. -/
def renumber (epoch : W32) (seq : Bool) : List ShortFrame → List ShortFrame
  | [] => []
  | f :: fs =>
    { f with seq := seq, check := shortCheck epoch f.kind.val seq f.payload } :: renumber epoch (!seq) fs

/-- A short frame handed to the transmitter. A verdict goes before every frame that has not started: those beyond
the window of two (R343, R344). Nothing is sent while the link is DOWN. -/
def sendShort (s : State) (toHost : Bool) (kind : Fin 8) (payload : BitVec 17) : State :=
  if s.bar.link = .down then s
  else
    let l := prioLane s.bar toHost
    let ep := (senderEnd s.bar toHost).epoch
    let seqOf (fs : List ShortFrame) : Bool := match fs.getLast? with
      | some f => !f.seq
      | none => l.seq
    if isVerdict toHost kind.val then
      let k := Nat.max (Nat.min 2 l.frames.length)
        (l.frames.filter fun f => isVerdict toHost f.kind.val).length
      let pre := l.frames.take k
      let q := seqOf pre
      let f : ShortFrame := { kind := kind, seq := q, payload := payload, check := shortCheck ep kind.val q payload }
      { s with bar := setPrio s.bar toHost { l with frames := pre ++ [f] ++ renumber ep (!q) (l.frames.drop k) } }
    else
      let q := seqOf l.frames
      let f : ShortFrame := { kind := kind, seq := q, payload := payload, check := shortCheck ep kind.val q payload }
      { s with bar := setPrio s.bar toHost { l with frames := l.frames ++ [f] } }

/-- A new epoch of an end seeds the checks of the frames that it has not put on the wire yet (R341, R352). -/
def reseal (l : PrioLane) (toHost : Bool) (epoch : W32) : PrioLane :=
  { l with frames := l.frames.zipIdx.map fun p =>
      if p.2 < 2 || isVerdict toHost p.1.kind.val || p.1.taken then p.1
      else { p.1 with check := shortCheck epoch p.1.kind.val p.1.seq p.1.payload } }

/-- An end of the link loads an authority epoch (R352). -/
def loadEpoch (b : Barrier) (host : Bool) (v : W32) : Barrier :=
  let b1 := setEnd b host { (endOf b host) with epoch := v }
  setPrio b1 (!host) (reseal (prioLane b1 (!host)) (!host) v)

/-- The first frame that the receiver has not taken, with its position. DEDUCED, log 99. -/
def nextShort (l : PrioLane) : Option (Nat × ShortFrame) :=
  (l.frames.zipIdx.find? fun p => !p.1.taken).map fun p => (p.2, p.1)

/-- Whether the sender has put a frame on the wire: it lies in the window of two, or it is a verdict (R343, R344). -/
def onWire (toHost : Bool) (i : Nat) (f : ShortFrame) : Bool := i < 2 || isVerdict toHost f.kind.val

/-- A frame of the lane changed. -/
def modShort (l : PrioLane) (i : Nat) (f : ShortFrame → ShortFrame) : PrioLane :=
  { l with frames := l.frames.zipIdx.map fun p => if p.2 == i then f p.1 else p.1 }

/-- A frame removed from the lane: it was acknowledged, or the receiver discarded it. -/
def dropShort (l : PrioLane) (i : Nat) : PrioLane :=
  match l.frames[i]? with
  | some f => { l with frames := l.frames.eraseIdx i, seq := if l.frames.length == 1 then !f.seq else l.seq }
  | none => l

/-- What the receiver makes of the next frame: none on the wire of this kind; a copy that fails its check under the
receiver's epoch; or the frame, now taken. DEDUCED, log 99. -/
inductive Arrival where
  | nothing
  | bad (bits : BitVec 38)
  | frame (payload : BitVec 17)
  deriving DecidableEq, Repr

/-- What arrives when the next copy of a frame of `kind` reaches the receiver (R341, R343). DEDUCED, log 99. -/
def arrival (b : Barrier) (toHost : Bool) (kind : Fin 8) : Arrival :=
  match nextShort (prioLane b toHost) with
  | none => .nothing
  | some (i, f) =>
    if b.link = .up ∧ f.kind = kind ∧ onWire toHost i f = true then
      if f.check = shortCheck (receiverEnd b toHost).epoch f.kind.val f.seq f.payload then .frame f.payload
      else .bad (shortImage f)
    else .nothing

/-- The next frame of a lane marked as taken; its ACK is on the way. DEDUCED, log 99. -/
def takeShort (s : State) (toHost : Bool) : State :=
  match nextShort (prioLane s.bar toHost) with
  | none => s
  | some (i, _) => { s with bar := setPrio s.bar toHost (modShort (prioLane s.bar toHost) i fun f => { f with taken := true }) }

/-! ### Verdict frames (R272, R340, R354) -/

/-- GRANT 2 and 5 are start grants (R271). -/
def startGrant (g : Nat) : Bool := g == 2 || g == 5

/-- KIND and payload of a verdict: SRC by GRANT, CONTEXT, ZONE and, for an entry, DOORS (R340). -/
def verdictPayload (f : VerdictFrame) : BitVec 17 :=
  let src := match f.grant.toNat with
    | 1 => 1
    | 2 => 1
    | 3 => 2
    | 5 => 2
    | _ => 3
  BitVec.ofNat 17 (src + 4 * f.ctx.toNat + 1024 * (f.zone.toNat % 8) +
    (if startGrant f.grant.toNat then 0 else 8192 * f.doors.toNat))

/-- Whether the field die may send a verdict frame: the link is up, SYNCED, and the host die is heard (R354, R355).
DEDUCED, log 88. -/
def verdictsGo (s : State) : Bool := s.bar.link = .up && s.bar.fieldEnd.synced && !s.bar.fieldEnd.silent

/-- A latched verdict's frame goes out and awaits its RESULT. -/
def sendVerdict (s : State) (f : VerdictFrame) : State :=
  sendShort { s with bar := { s.bar with awaiting := s.bar.awaiting ++ [f] } } true (if startGrant f.grant.toNat then 2 else 1)
    (verdictPayload f)

/-- The latch stages the frame (R272); an entry verdict that may not be sent is held until SYNCED (R354). -/
def latchVerdict (s : State) (f : VerdictFrame) : State :=
  let s1 := { s with
    gq := { s.gq with latch := some f }
    bg := { s.bg with pu := { s.bg.pu with grants := satInc s.bg.pu.grants } } }
  if verdictsGo s then sendVerdict s1 f
  else { s1 with bar := { s1.bar with heldEntry := s1.bar.heldEntry ++ [(f, now s)] } }

/-! ### Bulk frames and credits (R342, R343, R345) -/

def bulkLane (b : Barrier) (toHost : Bool) : BulkLane := if toHost then b.bulkToHost else b.bulkToField

def setBulk (b : Barrier) (toHost : Bool) (l : BulkLane) : Barrier :=
  if toHost then { b with bulkToHost := l } else { b with bulkToField := l }

/-- TYPE of a bulk frame (R342). -/
def bulkTypeCode : BulkType → Nat
  | .write => 1
  | .read => 2
  | .completion => 3
  | .rcdResolve => 4

/-- Header and payload of a bulk frame; LEN of a READ is the number of bytes asked for, and it carries none (R342). -/
def bulkBytes (f : BulkFrame) : Bytes :=
  [byte (bulkTypeCode f.type), f.seq, byte f.data.length, byte f.tag.val] ++ leBytes 4 f.addr.toNat ++
    (if f.type = .read then [] else f.data)

/-- The CRC of a bulk frame: the parameters of R341, with no seed (R342). -/
def bulkCrc (bs : Bytes) : W16 := BitVec.ofNat 16 (crc16Bits 0xFFFF (bs.flatMap fun b => natBits 8 b.toNat))

/-- Whether a copy of a bulk frame passes its CRC with the bits of `noise` turned at its end: the CRC in the highest 16 bits, the
last bits before it below (R342, R343). DEDUCED, log 187. -/
def bulkPass (f : BulkFrame) (noise : BitVec 38) : Bool :=
  let body := bulkBytes f
  let n := 8 * body.length
  let turned := (natBits n (leNat body ^^^ (bitsOf noise 21 0) * 2 ^ (n - 22)))
  BitVec.ofNat 16 (crc16Bits 0xFFFF turned) == bulkCrc body ^^^ BitVec.ofNat 16 (bitsOf noise 37 22)

/-- Whether a bulk frame belongs to a command's staging: a CMD slot or the doorbell (R368). -/
def stageFrame (f : BulkFrame) : Bool := f.type = .write && f.addr.toNat < 0x1004

/-- A bulk frame appended to its lane with the next sequence number. -/
def sendBulk (s : State) (toHost : Bool) (type : BulkType) (tag : Fin 8) (addr : W32) (data : Bytes) : State :=
  let l := bulkLane s.bar toHost
  { s with bar := setBulk s.bar toHost { l with
      frames := l.frames ++ [{ type := type, seq := l.seq, tag := tag, addr := addr, data := data }], seq := l.seq + 1 } }

/-- The first bulk frame that the receiver has not taken, with its position. -/
def nextBulk (l : BulkLane) : Option (Nat × BulkFrame) :=
  (l.frames.zipIdx.find? fun p => !p.1.taken).map fun p => (p.2, p.1)

/-- WRITE frames that the receiver has not taken: each will use a P credit. -/
def waitingWrites (l : BulkLane) : Nat := (l.frames.filter fun f => !f.taken && f.type = .write).length

/-- The next bulk frame of a type, when it is within the window of 8 and a WRITE holds a credit (R343, R345). -/
def bulkArrival (b : Barrier) (toHost : Bool) (type : BulkType) : Option BulkFrame :=
  let l := bulkLane b toHost
  match nextBulk l with
  | none => none
  | some (i, f) =>
    if b.link = .up ∧ f.type = type ∧ i < 8 ∧ (type = .write → 0 < l.creditP) then some f else none

/-- The next bulk frame taken by the receiver; a WRITE uses one P credit. -/
def takeBulk (s : State) (toHost : Bool) : State :=
  let l := bulkLane s.bar toHost
  match nextBulk l with
  | none => s
  | some (i, f) =>
    { s with bar := setBulk s.bar toHost { l with
        frames := l.frames.zipIdx.map fun p => if p.2 == i then { p.1 with taken := true } else p.1
        creditP := if f.type = .write then l.creditP - 1 else l.creditP } }

/-- Credits returned by the receiver of a bulk lane: it counts them and sends the cumulative count (R345). -/
def returnCredit (s : State) (toHost : Bool) (poolN : Bool) (n : Nat) : State :=
  let l := bulkLane s.bar toHost
  let l' := if poolN then { l with sentN := l.sentN + BitVec.ofNat 12 n } else { l with sentP := l.sentP + BitVec.ofNat 12 n }
  let cum := if poolN then l'.sentN else l'.sentP
  sendShort { s with bar := setBulk s.bar toHost l' } (!toHost) 5 (BitVec.ofNat 17 (b2n poolN + 4 * cum.toNat))

/-! ### Mailbox records (R369) -/

/-- Units that a record with `len` payload bytes occupies. -/
def recordUnits (len : Nat) : Nat := ceilDiv (8 + len) 64

/-- The bytes of a record: header, then payload. -/
def recordBytes (p : Post) (seq : Byte) : Bytes :=
  [p.kind, p.slot] ++ leBytes 2 p.payload.length ++ leBytes 2 p.offset ++ [byte (b2n p.last), seq] ++ p.payload

/-- The WRITE frames of a record, one a unit, from unit `u` on, wrapping from unit 63 to unit 0. -/
def sendUnits (s : State) (u : Nat) (bs : Bytes) : Nat → State
  | 0 => s
  | n + 1 =>
    sendUnits (sendBulk s true .write 0 (BitVec.ofNat 32 (64 * (u % 64))) (bs.take 64)) (u + 1) (bs.drop 64) n

/-- A record posted: its WRITE frames join the bulk lane (R369). -/
def postRecordNow (s : State) (p : Post) : State :=
  let n := recordUnits p.payload.length
  let s1 := sendUnits s s.cmds.unitAt (recordBytes p s.ev.seq) n
  { s1 with
    ev := { s1.ev with seq := s1.ev.seq + 1 }
    cmds := { s1.cmds with unitAt := (s1.cmds.unitAt + n) % 64, posted := s1.cmds.posted ++ [(p, n)] } }

/-- Whether the posted-write buffer has room for `n` more units beyond those already on their way. -/
def roomFor (s : State) (n : Nat) : Bool := waitingWrites s.bar.bulkToHost + n ≤ s.bar.bulkToHost.creditP

/-- Records of the outbox posted in order while there is room; after a host-die reset they wait for SYNCED (R356). -/
def pumpOutbox : Nat → State → State
  | 0, s => s
  | k + 1, s =>
    match s.cmds.outbox with
    | [] => s
    | p :: ps =>
      if s.bar.link = .up ∧ s.cmds.repostWait = false ∧ roomFor s (recordUnits p.payload.length) = true then
        pumpOutbox k (postRecordNow { s with cmds := { s.cmds with outbox := ps } } p)
      else s

/-- The mailbox engine posts what it can. -/
def pump (s : State) : State := pumpOutbox s.cmds.outbox.length s

/-- A BULK frame of at most 4,096 bytes cut into records of at most 1,016 bytes (R369, R386). -/
def bulkSegs (fn : Byte) (off : Nat) (bs : Bytes) : Nat → List Post
  | 0 => []
  | k + 1 =>
    if bs.length ≤ 1016 then [{ kind := 3, slot := fn, payload := bs, offset := off, last := true }]
    else { kind := 3, slot := fn, payload := bs.take 1016, offset := off } :: bulkSegs fn (off + 1016) (bs.drop 1016) k

/-- A BULK frame handed to the mailbox engine; the answer's number is its frame number. -/
def postBulk (s : State) (bs : Bytes) : State :=
  { s with
    ev := { s.ev with bulkFn := s.ev.bulkFn + 1 }
    cmds := { s.cmds with outbox := s.cmds.outbox ++ bulkSegs s.ev.bulkFn 0 (bs.take 4096) 5 } }

/-! ### Argent's interrupts and VSTATE -/

/-- A bit of HST_IRQ set (R370). -/
def irqSet (s : State) (bit : Nat) : State :=
  { s with host := { s.host with irq := s.host.irq ||| BitVec.ofNat 16 (2 ^ bit) } }

/-- Debounced door levels as VSTATE and DOOR_STATUS give them; a disabled door reads closed (R370). -/
def doorsOpen (h : HostDie) : BitVec 4 := h.doors.debounced &&& h.doors.en

/-- The payload of a VSTATE frame (R340). -/
def vstatePayload (h : HostDie) : BitVec 17 :=
  BitVec.ofNat 17 ((doorsOpen h).toNat + 16 * b2n h.vs.engineRun + 32 * b2n h.vs.standstill + 64 * b2n h.vs.ignition +
    128 * b2n h.vs.valid + 65536 * b2n h.pmt.active)

/-- Argent sends VSTATE (R351); VS_STATE keeps the payload of the last frame sent. -/
def sendVState (s : State) : State :=
  if s.bar.link = .down then s
  else
    let p := vstatePayload s.host
    { sendShort s false 1 p with host := { s.host with vs := { s.host.vs with lastSent := p } } }

/-- Argent sends VSTATE when its content differs from the last one sent (R351). -/
def sendVStateIfChanged (s : State) : State :=
  if vstatePayload s.host = s.host.vs.lastSent then s else sendVState s

/-- An anomaly latched in BR_ANOM (R371). -/
def anomSet (s : State) (bit : Nat) : State :=
  { s with bg := { s.bg with anom := s.bg.anom ||| BitVec.ofNat 9 (2 ^ bit) } }

end Sys2Proof.Machine
end

