-- ==== Sys2Proof/Machine/PageBytes.lean ====
section
/-! DEFINITION. The bytes in which the record store keeps what R303 gives each partition, and the content read back from them.
The specification names the content of SYS, CAL, ROSTER, TELEM and LPEND and the pages that hold it, and no places within them:
the places are the model's. -/

namespace Sys2Proof.Machine

open Sys2Proof

/-! ### Fields -/

/-- A signed number in four bytes. -/
def i4 (x : Int) : Bytes := leBytes 4 (BitVec.ofInt 32 x).toNat

def i4At (b : Bytes) (off : Nat) : Int := (BitVec.ofNat 32 (leAt b off 4)).toInt

/-- A 32-bit field. -/
def w4At (b : Bytes) (off : Nat) : W32 := BitVec.ofNat 32 (leAt b off 4)

/-- A table of signed numbers. -/
def i4Table {n : Nat} (v : Vector Int n) : Bytes := v.toList.flatMap i4

def i4TableAt (n : Nat) (b : Bytes) (off : Nat) : Vector Int n := Vector.ofFn fun k => i4At b (off + 4 * k.val)

/-! ### The boot record (R438) -/

/-- Codes of ImageState. -/
def imageStateCode : ImageState → Nat
  | .empty => 0 | .valid => 1 | .active => 2 | .trial => 3 | .failed => 4

def imageStateOf : Nat → ImageState
  | 1 => .valid | 2 => .active | 3 => .trial | 4 => .failed | _ => .empty

/-- The boot record's page (R438). DESIGN CHOICE, log 194. -/
def bootBytes (r : BootRecord) : Bytes :=
  padTo 256 [byte r.active.val, match r.trialSlot with
      | some n => byte n.val
      | none => 0xFF,
    byte r.trialFails, byte (b2n r.trialPend + 2 * b2n r.actPend + 4 * r.restAfter.toNat), byte (imageStateCode r.stateA),
    byte (imageStateCode r.stateB)]

/-- The boot record read back. DESIGN CHOICE, log 194. -/
def bootOf (b : Bytes) : BootRecord :=
  { active := Fin.ofNat 2 (byteAt b 0), trialSlot := if byteAt b 1 < 2 then some (Fin.ofNat 2 (byteAt b 1)) else none
    trialFails := byteAt b 2, trialPend := bitAt (byteAt b 3) 0, actPend := bitAt (byteAt b 3) 1
    restAfter := BitVec.ofNat 2 (byteAt b 3 / 4), stateA := imageStateOf (byteAt b 4), stateB := imageStateOf (byteAt b 5) }

/-! ### SYS: page 0 the header and partitions 0 to 3, page 1 partitions 4 to 7 -/

/-- One entry of the native partition table, 36 bytes. DESIGN CHOICE, log 194. -/
def partEntry (x : Option NativePart) : Bytes :=
  match x with
  | none => zeros 36
  | some q =>
    [byte q.first, byte q.pages, byte (1 + 2 * b2n q.readPw.isSome + 4 * b2n q.writePw.isSome), 0] ++
      padTo 16 (q.readPw.getD []) ++ padTo 16 (q.writePw.getD [])

/-- The entry read back. DESIGN CHOICE, log 194. -/
def partOf (b : Bytes) : Option NativePart :=
  let f := byteAt b 2
  if bitAt f 0 then
    some { first := byteAt b 0, pages := byteAt b 1
           readPw := if bitAt f 1 then some (slice b 4 16) else none
           writePw := if bitAt f 2 then some (slice b 20 16) else none }
  else none

/-- SYS. DESIGN CHOICE, log 194. -/
def sysBytes (d : SysData) : Bytes :=
  padTo 256 (leBytes 2 d.layout.toNat ++ [byte (b2n d.digest.isEmpty), 0] ++ leBytes 4 d.ledgerAck.toNat ++ leBytes 4 d.bundleSeq.toNat ++
    padTo 32 d.digest ++ zeros 4 ++ (d.parts.toList.take 4).flatMap partEntry) ++
  padTo 256 ((d.parts.toList.drop 4).flatMap partEntry)

/-- SYS read back. DESIGN CHOICE, log 194. -/
def sysOf (b : Bytes) : SysData :=
  { layout := BitVec.ofNat 16 (leAt b 0 2), ledgerAck := w4At b 4, bundleSeq := w4At b 8
    digest := if bitAt (byteAt b 2) 0 then [] else slice b 12 32
    parts := Vector.ofFn fun k => partOf (slice b (if k.val < 4 then 48 + 36 * k.val else 256 + 36 * (k.val - 4)) 36) }

/-! ### CAL: page 2 LF, 3 field calibration, 4 UWB delays, 5 RTC drift coefficient, 6 UHF band cache, 7 profiles -/

/-- CAL. DESIGN CHOICE, log 194. -/
def calBytes (d : CalData) : Bytes :=
  padTo 256 (d.lf.toList.flatMap fun x => i4 x.1 ++ leBytes 4 x.2.1 ++ i4 x.2.2) ++
  padTo 256 (i4Table d.cal.gain ++ i4Table d.cal.phAdj ++ i4Table d.cal.triA ++ i4Table d.cal.triB) ++
  padTo 256 (d.uwb.toList.flatMap fun x => leBytes 2 x.1 ++ leBytes 2 x.2) ++
  padTo 256 (i4 d.coeff) ++
  padTo 256 ([byte d.cache.toNat, byte (b2n d.cacheTemp.isSome), 0, 0] ++ i4 (d.cacheTemp.getD 0)) ++
  padTo 256 (match d.profile with
    | none => []
    | some (x, y) => [byte (1 + 2 * b2n x + 4 * b2n y)])

/-- CAL read back. DESIGN CHOICE, log 194. -/
def calOfBytes (b : Bytes) : CalData :=
  { lf := Vector.ofFn fun k => (i4At b (12 * k.val), leAt b (12 * k.val + 4) 4, i4At b (12 * k.val + 8))
    cal := { gain := i4TableAt 12 b 256, phAdj := i4TableAt 12 b 304, triA := i4TableAt 16 b 352, triB := i4TableAt 16 b 416 }
    uwb := Vector.ofFn fun k => (leAt b (512 + 4 * k.val) 2, leAt b (514 + 4 * k.val) 2)
    coeff := i4At b 768
    cache := BitVec.ofNat 8 (byteAt b 1024)
    cacheTemp := if bitAt (byteAt b 1025) 0 then some (i4At b 1028) else none
    profile := if bitAt (byteAt b 1280) 0 then some (bitAt (byteAt b 1280) 1, bitAt (byteAt b 1280) 2) else none }

/-! ### ROSTER: page 58 mode, epoch and the Depot HF list, pages 59 to 73 160 contexts of 24 bytes -/

/-- ROSTER. DESIGN CHOICE, log 194. -/
def rosterBytes (d : RosterData) : Bytes :=
  let mask (k : Nat) : Byte := byte ((List.range 8).foldl (fun a i => a + 2 ^ i * b2n (d.hfMask.any fun c => c.val == 8 * k + i)) 0)
  padTo 256 ([1, byte (b2n d.depot)] ++ leBytes 2 d.count ++ leBytes 4 d.epoch.toNat ++ (List.range 20).map mask) ++
    d.ids.toList.flatMap fun x => [byte (b2n x.isSome)] ++ zeros 7 ++ leBytes 8 (x.getD 0).toNat ++ zeros 8

/-- ROSTER read back. DESIGN CHOICE, log 194. -/
def rosterOf (b : Bytes) : RosterData :=
  { depot := bitAt (byteAt b 1) 0, count := leAt b 2 2, epoch := w4At b 4
    ids := Vector.ofFn fun k =>
      if bitAt (byteAt b (256 + 24 * k.val)) 0 then some (BitVec.ofNat 64 (leAt b (264 + 24 * k.val) 8)) else none
    hfMask := (List.finRange 160).filter fun c => bitAt (byteAt b (8 + c.val / 8)) (c.val % 8) }

/-! ### TELEM: page 138 the header, pages 139 to 143 sixteen totals each -/

/-- TELEM. DESIGN CHOICE, log 194. -/
def telemBytes (d : TelemData) : Bytes :=
  padTo 256 (leBytes 4 d.foldS.toNat ++ leBytes 4 d.chalkS ++ leBytes 4 d.cold) ++
    d.totals.toList.flatMap fun x => leBytes 8 x.total.toNat ++ leBytes 4 x.base ++ [byte (b2n x.sat), 0, 0, 0]

/-- TELEM read back. DESIGN CHOICE, log 194. -/
def telemOf (b : Bytes) : TelemData :=
  { foldS := w4At b 0, chalkS := leAt b 4 4, cold := leAt b 8 4
    totals := Vector.ofFn fun k =>
      { total := BitVec.ofNat 64 (leAt b (256 + 16 * k.val) 8), base := leAt b (264 + 16 * k.val) 4
        sat := bitAt (byteAt b (268 + 16 * k.val)) 0 } }

/-! ### LPEND: sixteen entries of 64 bytes, four a page -/

/-- Bytes 0 to 39 of an event entry (R324). DEDUCED, log 97. -/
def entryHead (r : LedgerReq) (index : Nat) : Bytes :=
  [r.type, r.flags, r.slot, r.zone] ++ leBytes 4 index ++ leBytes 4 r.rtcS.toNat ++ leBytes 2 r.time.toNat ++
    leBytes 4 r.tb.toNat ++ padTo 8 r.tid ++ leBytes 4 r.odo.toNat ++ padTo 10 r.detail

/-- LPEND: entries with their INDEX unassigned (R330). DESIGN CHOICE, log 194. -/
def lpendBytes (l : List LedgerReq) : Bytes :=
  l.flatMap fun r => entryHead r 0xFFFFFFFF ++ List.replicate 24 0xFF

/-- An entry of LPEND read back; none where TYPE reads 0 or 0xFF. DESIGN CHOICE, log 194. -/
def lpendEntry (b : Bytes) : Option LedgerReq :=
  if byteAt b 0 == 0 || byteAt b 0 == 0xFF then none
  else
    some { type := byte (byteAt b 0), flags := byte (byteAt b 1), slot := byte (byteAt b 2), zone := byte (byteAt b 3)
           rtcS := w4At b 8, time := BitVec.ofNat 16 (leAt b 12 2), tb := w4At b 14, tid := slice b 18 8, odo := w4At b 26
           detail := slice b 30 10 }

/-- LPEND read back. DESIGN CHOICE, log 194. -/
def lpendOf (b : Bytes) : List LedgerReq := (List.range 16).filterMap fun k => lpendEntry (slice b (64 * k) 64)

end Sys2Proof.Machine
end

