-- ==== Sys2Proof/Machine/Store.lean ====
section
/-! DEFINITION. Or's record store: pages and their commit, rings, transactions, the legacy window's cells, and the
background rows that act on them (R295 to R323). -/

namespace Sys2Proof.Machine

open Sys2Proof

/-! ### What the pages hold -/

/-- First page of SYS (R303). -/
def pageSys : Fin 256 := 0

/-- First page of ROSTER. -/
def pageRoster : Fin 256 := 58

/-- First page of TELEM. -/
def pageTelem : Fin 256 := 138

/-- First page of LPEND. -/
def pageLpend : Fin 256 := 146

/-- The pages of CAL: LF trims, field calibration record, UWB delays, RTC drift coefficient, UHF band cache, profiles.
DESIGN CHOICE, log 194. -/
def calLf : Fin 256 := 2

/--. DESIGN CHOICE, log 194. -/
def calField : Fin 256 := 3

/--. DESIGN CHOICE, log 194. -/
def calUwb : Fin 256 := 4

/--. DESIGN CHOICE, log 194. -/
def calRtc : Fin 256 := 5

/--. DESIGN CHOICE, log 194. -/
def calBand : Fin 256 := 6

/--. DESIGN CHOICE, log 194. -/
def calProfile : Fin 256 := 7

/-- A page number of the record store. -/
def pageN (n : Nat) : Option (Fin 256) := if h : n < 256 then some ⟨n, h⟩ else none

/-- `n` pages from page `first` on. -/
def pageRun (first n : Nat) : List (Fin 256) := (List.range n).filterMap fun k => pageN (first + k)

/-- CAL as it stands in SRAM. -/
def calLive (s : State) : CalData :=
  { lf := s.vert.ch.map fun c => (c.trim, c.cap.toNat, c.phComp)
    cal := s.pres.cal
    uwb := s.az.ports.map fun a => (a.txDly.toNat, a.rxDly.toNat)
    coeff := s.rtc.coeff, cache := s.tn.cache, cacheTemp := s.tn.cacheTemp, profile := s.orr.profile }

/-- ROSTER as it stands in SRAM. -/
def rosterLive (s : State) : RosterData :=
  { depot := s.keys.depot, epoch := s.keys.rosterEpoch, count := s.keys.rosterCount
    ids := s.ctxs.map fun c => if c.valid then some c.id else none
    hfMask := s.keys.hfMask }

/-- Page `k` of a partition's bytes. -/
def partPage (b : Bytes) (k : Nat) : Bytes := padTo 256 (slice b (256 * k) 256)

/-- The 256 data bytes that a commit of page `p` takes from SRAM (R300 step 1, R303). -/
def pageImage (s : State) (p : Fin 256) : Bytes :=
  let n := p.val
  if n < 2 then partPage (sysBytes { s.orr.sys with ledgerAck := s.ledger.ack }) n
  else if n < 10 then partPage (calBytes (calLive s)) (n - 2)
  else if 58 ≤ n ∧ n < 74 then partPage (rosterBytes (rosterLive s)) (n - 58)
  else if 138 ≤ n ∧ n < 146 then partPage (telemBytes s.orr.telem) (n - 138)
  else if 146 ≤ n ∧ n < 150 then partPage (lpendBytes s.ledger.lpend) (n - 146)
  else memReadBytes (s.orr.pages[p]).shadow 0 256

/-! ### Copies and the commit of a page (R297 to R301) -/

/-- COMMIT of a copy, a slot or an entry that is committed (R297). -/
def commitWord : W32 := 0x9E3761C5

/-- The CRC word of a copy: over its data and trailer bytes 0 to 7 (R298). -/
def copyCrc (data : Bytes) (seq txn : W32) : W32 :=
  BitVec.ofNat 32 (crc32 (data ++ leBytes 4 seq.toNat ++ leBytes 4 txn.toNat))

/-- A copy programmed up to trailer byte 11, with COMMIT erased (R300 step 3). -/
def copyWritten (data : Bytes) (seq txn : W32) : NvCopy := { data := data, seq := seq, txn := txn, crc := copyCrc data seq txn }

/-- Whether a copy is erased: every byte reads 0xFF (R295). -/
def copyErased (c : NvCopy) : Bool :=
  c.data.all (· == 0xFF) && c.seq == 0xFFFFFFFF && c.txn == 0xFFFFFFFF && c.crc == 0xFFFFFFFF && c.commit == 0xFFFFFFFF

/-- A copy is valid when COMMIT is set, its CRC is correct and no group is uncorrectable (R298). -/
def copyValid (c : NvCopy) : Bool := c.commit == commitWord && !c.ue && c.crc == copyCrc c.data c.seq c.txn

/-- Which copy is current: false copy 0, true copy 1; copies of one PAGE_SEQ are twins, of which the one without a
correction wins, then copy 0 (R299, R308). -/
def currentBank (g : NvPage) : Option Bool :=
  match copyValid g.c0, copyValid g.c1 with
  | false, false => none
  | true, false => some false
  | false, true => some true
  | true, true =>
    some (decide (g.c0.seq.toNat < g.c1.seq.toNat) || (g.c0.seq == g.c1.seq && g.c0.fixed && !g.c1.fixed))

/-- The current copy of a page. -/
def currentCopy (g : NvPage) : Option NvCopy :=
  (currentBank g).map fun b => if b then g.c1 else g.c0

/-- The copy that the next commit programs: the non-current one, copy 0 where there is no current copy. -/
def targetBank (g : NvPage) : Bool :=
  match currentBank g with
  | some b => !b
  | none => false

/-- A page with one copy replaced. -/
def setCopy (g : NvPage) (bank : Bool) (c : NvCopy) : NvPage :=
  if bank then { g with c1 := c } else { g with c0 := c }

/-- PAGE_SEQ of the next commit of a page (R298). -/
def nextSeq (g : NvPage) : W32 := match currentCopy g with
  | some c => c.seq + 1
  | none => 1

/-- Steps 2 and 3 of R300: the non-current copy is erased and programmed, its COMMIT not yet. -/
def nvProgram (g : NvPage) (data : Bytes) (txn : W32) : NvPage :=
  setCopy g (targetBank g) (copyWritten data (nextSeq g) txn)

/-- Step 5 of R300: COMMIT programmed; the new copy is current from here on. -/
def nvCommit (g : NvPage) (data : Bytes) (txn : W32) : NvPage :=
  setCopy g (targetBank g) { copyWritten data (nextSeq g) txn with commit := commitWord }

/-- Erases of a commit whose read-back fails `k` times: that of step 2, and that of a repeat (R300). -/
def commitErases (g : NvPage) (k : Nat) : Nat :=
  (if copyErased (if targetBank g then g.c1 else g.c0) then 0 else 1) + Nat.min 1 k

/-- How many of up to `k` read-backs in a row from number `n` on find a mismatch (R300, R306).
DESIGN CHOICE, log 195. -/
def mismatches (n : Nat) : Nat → Nat
  | 0 => 0
  | k + 1 => if Config.nvMismatch n then 1 + mismatches (n + 1) k else 0

/-- Erases counted (R334). -/
def addErases (o : Store) (n : Nat) : Store := { o with nErases := Nat.min 0xFFFFFFFF (o.nErases + n) }

/-- A commit under R300, steps 1 to 5, of the page that `get` names and `set` writes back; `k`: failed read-backs, of which a
second one leaves the old copy current and marks the page WORN. DEDUCED, log 156. -/
def commitNv (g : NvPage) (data : Bytes) (txn : W32) (k : Nat) (o : Store) : NvPage × Store × Bool :=
  let o1 := { (addErases o (commitErases g k)) with tries := o.tries + k + 1 }
  if k < 2 then (nvCommit g data txn, { o1 with nCommits := satInc o1.nCommits }, true)
  else ({ nvProgram g data txn with worn := true }, o1, false)

/-- One page commit under R300 with data `data`. The answer's Bool says that the commit took place; otherwise EVT_STORE reports
WORN, the old copy stays current, the page stays dirty and the commit ends with RETRY. -/
def commitData (s : State) (p : Fin 256) (data : Bytes) (txn : W32) (k : Nat) : State × Bool :=
  let g := s.orr.pages[p]
  let r := commitNv g.nv data txn k s.orr
  let s1 := { s with orr := { r.2.1 with pages := vset s.orr.pages p { g with nv := r.1 } } }
  if r.2.2 then (s1, true) else (evtStore s1 3 (if targetBank g.nv then 2 else 1) p.val .ok, false)

/-- The dirty mark of a page as a commit leaves it. -/
def settleDirty (s : State) (p : Fin 256) (ok : Bool) : State :=
  { s with orr := { s.orr with pages := vmod s.orr.pages p fun g =>
      { g with dirty := if ok then none else some (g.dirty.getD (now s)) } } }

/-- A commit of a page from SRAM with `k` failed read-backs. -/
def commitPage (s : State) (p : Fin 256) (txn : W32) (k : Nat) : State × Bool :=
  let r := commitData s p (pageImage s p) txn k
  (settleDirty r.1 p r.2, r.2)

/-- Failed read-backs of the next commit: drawn, or two where `bad` says that it fails and fewer where it does not.
DESIGN CHOICE, log 195. -/
def readBacks (s : State) : Option Bool → Nat
  | none => mismatches s.orr.tries 2
  | some true => 2
  | some false => mismatches s.orr.tries 1

/-- A synchronous commit (R302), and whether it took place. -/
def commitTry (s : State) (p : Fin 256) : State × Bool := commitPage s p 0 (readBacks s none)

def commitSync (s : State) (p : Fin 256) : State := (commitTry s p).1

/-- Whether SRAM holds of a page something other than its current copy, or than the zeros it reads as without one (R299). -/
def pageChanged (s : State) (p : Fin 256) : Bool :=
  match currentCopy (s.orr.pages[p]).nv with
  | some c => c.data != pageImage s p
  | none => !allZero (pageImage s p)

/-- The changed pages of a partition committed synchronously. -/
def commitPart (s : State) (ps : List (Fin 256)) : State := ps.foldl (fun t p => if pageChanged t p then commitSync t p else t) s

/-- The pages of ROSTER, TELEM and LPEND. -/
def rosterPages : List (Fin 256) := pageRun 58 16

def telemPages : List (Fin 256) := pageRun 138 8

def lpendPages : List (Fin 256) := pageRun 146 4

/-- The SYS pages, which a transaction on the partition table commits (R316). -/
def sysPages : List (Fin 256) := pageRun 0 2

/-- The dirty pages with the tick of their first change. -/
def dirtyPages (s : State) : List (Fin 256 × Nat) :=
  (List.finRange 256).filterMap fun p => (s.orr.pages[p]).dirty.map fun t => (p, t)

/-- The page that has been dirty longest. -/
def oldestDirty (s : State) : Option (Fin 256) :=
  (dirtyPages s).foldl (fun acc x => match acc with
    | none => some x
    | some y => if x.2 < y.2 then some x else some y) none |>.map (·.1)

/-- A change of a page's SRAM marks it dirty; a seventeenth dirty page first commits the oldest (R302). -/
def markDirty (s : State) (p : Fin 256) : State :=
  if (s.orr.pages[p]).dirty.isSome then s
  else
    let s1 := if (dirtyPages s).length < 16 then s
      else match oldestDirty s with
        | some q => commitSync s q
        | none => s
    { s1 with orr := { s1.orr with pages := vmod s1.orr.pages p fun g => { g with dirty := some (now s) } } }

/-- The superseded copy of a page erased (R300 step 6). -/
def eraseOld (s : State) (p : Fin 256) : State :=
  let g := s.orr.pages[p]
  match currentBank g.nv with
  | none => s
  | some b =>
    if copyErased (if b then g.nv.c0 else g.nv.c1) then s
    else { s with orr := { (addErases s.orr 1) with pages := vset s.orr.pages p { g with nv := setCopy g.nv (!b) {} } } }

/-! ### Rings (R304 to R310) -/

/-- Geometry of a ring: slots per page, ring pages, record identifiers from and up to. -/
structure RingGeo where
  spp : Nat
  pages : Nat
  ridLo : Nat
  ridHi : Nat
  deriving DecidableEq, Repr

/-- RING_CTR: 32-byte slots, pages 74 to 105 of both banks. -/
def geoCtr : RingGeo := { spp := 8, pages := 64, ridLo := 0, ridHi := 159 }

/-- RING_SEC: 64-byte slots, pages 106 to 121 of both banks. -/
def geoSec : RingGeo := { spp := 4, pages := 32, ridLo := 1, ridHi := 4 }

/-- JOURNAL: 64-byte slots, pages 122 to 137 of both banks. -/
def geoJournal : RingGeo := { spp := 4, pages := 32, ridLo := 0, ridHi := 255 }

/-- Payload bytes of a slot (R305). -/
def payloadLen (g : RingGeo) : Nat := 256 / g.spp - 16

/-- Bytes 0 to 7 + P of a slot (R305). -/
def slotBytes (x : RingSlot) : Bytes :=
  leBytes 4 x.seq.toNat ++ leBytes 2 x.rid.toNat ++ [byte x.len, byte (b2n x.copy)] ++ x.payload

/-- The CRC word of a slot (R305). -/
def slotCrc (x : RingSlot) : W32 := BitVec.ofNat 32 (crc32 (slotBytes x))

/-- A slot as it is programmed for a record, its place not yet given: payload cut to P and zero-padded, CRC, COMMIT. -/
def newSlot (g : RingGeo) (seq : W32) (rid : Nat) (payload : Bytes) : RingSlot :=
  let x : RingSlot :=
    { addr := 0, seq := seq, rid := BitVec.ofNat 16 rid, len := Nat.min (payloadLen g) payload.length
      payload := padTo (payloadLen g) payload, crc := 0 }
  { x with crc := slotCrc x }

/-- A slot is valid when COMMIT is set, the CRC is correct and no group is uncorrectable (R305). -/
def slotValid (x : RingSlot) : Bool := x.commit == 0x9E3761C5 && !x.ue && x.crc == slotCrc x

/-- The current record of a RID: its valid slot with the highest SEQ (R305). -/
def ringSlot (r : Ring) (rid : Nat) : Option RingSlot :=
  (r.slots.filter fun x => x.rid.toNat == rid && slotValid x).foldl (fun acc x => match acc with
    | none => some x
    | some y => if y.seq.toNat ≤ x.seq.toNat then some x else some y) none

/-- The payload of the current record of a RID; none for a tombstone (R309). -/
def ringRead (r : Ring) (rid : Nat) : Option Bytes :=
  match ringSlot r rid with
  | some x => if x.len = 0 then none else some (x.payload.take x.len)
  | none => none

/-- The ring page of a slot number. -/
def pageOfSlot (g : RingGeo) (a : Nat) : Nat := a / g.spp

/-- Ring pages that hold no programmed slot. -/
def erasedRingPages (g : RingGeo) (r : Ring) : Nat :=
  ((List.range g.pages).filter fun p => !(r.slots.any fun x => pageOfSlot g x.addr == p)).length

/-- Whether a reclaim copies a slot of page `p`: the current record of its RID; a tombstone only while an older
record of its RID survives elsewhere in the ring (R307). -/
def reclaimCopies (g : RingGeo) (r : Ring) (p : Nat) (x : RingSlot) : Bool :=
  slotValid x && (match ringSlot r x.rid.toNat with
    | some y => y.addr == x.addr
    | none => false) &&
  (x.len != 0 ||
    r.slots.any fun y => y.rid == x.rid && y.addr != x.addr && slotValid y && pageOfSlot g y.addr != p)

/-- One slot programmed at the write point. -/
def ringPut (g : RingGeo) (r : Ring) (x : RingSlot) : Ring :=
  { r with slots := r.slots ++ [{ x with addr := r.wp }], wp := (r.wp + 1) % (g.spp * g.pages) }

/-- A slot as reclaim writes it: COPY set. -/
def asCopy (x : RingSlot) : RingSlot :=
  let y := { x with copy := true }
  { y with crc := slotCrc y }

/-- The page of the oldest slot. -/
def oldestPage (g : RingGeo) (r : Ring) : Option Nat := r.slots.head?.map fun x => pageOfSlot g x.addr

/-- Step 1 of R307: the live records of the oldest page are copied to the write point. -/
def reclaimCopy (g : RingGeo) (r : Ring) : Ring :=
  match oldestPage g r with
  | none => r
  | some p =>
    let live := r.slots.filter fun y => pageOfSlot g y.addr == p && reclaimCopies g r p y
    { (live.foldl (fun q y => ringPut g q (asCopy y)) r) with reclaim := true }

/-- Step 2 of R307: the oldest page is erased. -/
def reclaimErase (g : RingGeo) (r : Ring) : Ring :=
  match oldestPage g r with
  | none => { r with reclaim := false }
  | some p => { r with reclaim := false, slots := r.slots.filter fun y => pageOfSlot g y.addr != p }

/-- The oldest page reclaimed, or a reclaim in progress brought to its end (R307). -/
def ringReclaim (g : RingGeo) (r : Ring) : Ring := reclaimErase g (if r.reclaim then r else reclaimCopy g r)

/-- Whether an append waits for a reclaim: one runs, or fewer than two pages are erased (R307). -/
def reclaimDue (g : RingGeo) (r : Ring) : Bool := r.reclaim || decide (erasedRingPages g r < 2)

/-- Reclaims until two pages are erased ahead of the write point, at most `k`; and how many ran (R307). -/
def ringRoom (g : RingGeo) : Nat → Ring → Ring × Nat
  | 0, r => (r, 0)
  | k + 1, r => if reclaimDue g r then ((ringRoom g k (ringReclaim g r)).1, (ringRoom g k (ringReclaim g r)).2 + 1) else (r, 0)

/-- Slots that read back wrong, with COMMIT programmed to 0 (R306). -/
def putFailed (g : RingGeo) (x : RingSlot) : Nat → Ring → Ring
  | 0, r => r
  | k + 1, r => putFailed g x k (ringPut g r { x with commit := 0 })

/-- SEQ of the next append (R306, R308). -/
def appendSeq (r : Ring) : Nat := r.seq.toNat + (if r.twin then 2 else 1)

/-- An append (R306, R309); `bad` slots mismatch at their read-back, each of which sends the record to the next slot with the same
SEQ. An append that finds fewer than two pages erased waits for the reclaims. DEDUCED, log 156. -/
def ringAppend (g : RingGeo) (r0 : Ring) (rid : Nat) (payload : Bytes) (bad : Nat) : Ring × Status :=
  if rid < g.ridLo || g.ridHi < rid then (r0, .paramRange)
  else if 0xFFFFFFF0 < appendSeq r0 then (r0, .storeFull)
  else
    let x := newSlot g (BitVec.ofNat 32 (appendSeq r0)) rid payload
    ({ ringPut g (putFailed g x bad (ringRoom g g.pages r0).1) x with seq := x.seq, twin := false }, .ok)

/-- Failed read-backs of the next append, at most three in a row. DESIGN CHOICE, log 195. -/
def appendFails (o : Store) : Nat := mismatches o.tries 3

/-- Or's counters after an append: the append itself, and the erases of the reclaims that it waited for (R307, R334).
DEDUCED, log 156. -/
def countAppend (g : RingGeo) (r : Ring) (o : Store) : Store :=
  { (addErases o (ringRoom g g.pages r).2) with nCommits := satInc o.nCommits, tries := o.tries + appendFails o + 1 }

/-- A press-counter record appended (R113, R310): L, candidate CTR and candidate RTC seconds. DEDUCED, log 156. -/
def appendCtr (s : State) (ctx : Fin 160) (l cand candS : Nat) : State :=
  let (r, st) := ringAppend geoCtr s.orr.ringCtr ctx.val (leBytes 4 l ++ leBytes 4 cand ++ leBytes 4 candS ++ zeros 4) (appendFails s.orr)
  if st = .ok then { s with orr := { countAppend geoCtr s.orr.ringCtr s.orr with ringCtr := r } } else s

/-- A tombstone of a context's press counter. -/
def dropCtr (s : State) (ctx : Fin 160) : State :=
  let (r, st) := ringAppend geoCtr s.orr.ringCtr ctx.val [] (appendFails s.orr)
  if st = .ok then { s with orr := { countAppend geoCtr s.orr.ringCtr s.orr with ringCtr := r } } else s

/-- A RING_SEC record appended. DEDUCED, log 156. -/
def appendSec (s : State) (rid : Nat) (payload : Bytes) : State :=
  let (r, st) := ringAppend geoSec s.orr.ringSec rid payload (appendFails s.orr)
  if st = .ok then { s with orr := { countAppend geoSec s.orr.ringSec s.orr with ringSec := r } } else s

/-- The payload of a failure list: up to five failure times, then the lock-out end (R310). -/
def lockoutPayload (l : Lockout) : Bytes :=
  padTo 20 (l.fails.flatMap (leBytes 4)) ++ leBytes 4 l.endAt

/-- A failure list read back from its record. -/
def lockoutOf (b : Option Bytes) : Lockout :=
  match b with
  | none => {}
  | some p =>
    { fails := ((List.range 5).map fun i => leAt p (4 * i) 4).filter (· != 0), endAt := leAt p 20 4 }

/-- The last issued and last completed TXN as RID 0x0004 holds them. -/
def appendTxn (s : State) : State :=
  appendSec s 4 (leBytes 4 s.orr.txnDone.toNat ++ leBytes 4 s.orr.txnIssued.toNat)

/-- The pages of a transaction committed in turn; stops at the first that ends with RETRY. DEDUCED, log 156. -/
def commitEach (s : State) (txn : W32) (bad : Option Bool) : List (Fin 256) → State × Bool
  | [] => (s, true)
  | p :: ps =>
    let (s1, ok) := commitPage s p txn (readBacks s bad)
    if ok then commitEach s1 txn bad ps else (s1, false)

/-- A transaction of up to 8 shadowed pages (R311); `bad`: whether a page commit of it ends with RETRY, drawn where nothing says
it, and the transaction then stays incomplete for the rollback at S5. DEDUCED, log 156. -/
def transaction (s : State) (ps : List (Fin 256)) (bad : Option Bool) : State × Bool :=
  let s1 := appendTxn { s with orr := { s.orr with txnIssued := s.orr.txnIssued + 1 } }
  let (s2, ok) := commitEach s1 s1.orr.txnIssued bad ps
  if ok then
    let s3 := appendTxn { s2 with orr := { s2.orr with txnDone := s2.orr.txnIssued } }
    (ps.foldl eraseOld s3, true)
  else (s2, false)

/-! ### The boot journal (R433 to R435) -/

/-- IMAGE of a journal record (R433). -/
def imageCode : Running → Nat
  | .slotA => 0 | .slotB => 1 | .recovery => 2 | .none => 0xFF

/-- Whether the image that runs is on trial (R439). -/
def onTrial (b : Boot) : Bool :=
  match b.running, b.record.trialSlot with
  | .slotA, some n => n == 0
  | .slotB, some n => n == 1
  | _, _ => false

/-- An outcome of a step with the times of now (R433). -/
def outcomeNow (s : State) (step kind : Nat) (st : W16) (attempt : Nat) (detail : Bytes) : StepOutcome :=
  { step := byte step, kind := byte kind, status := st, attempt := byte attempt, detail := detail
    us := (s.clock - s.boot.startAt) * 10 / 384, rtcS := s.rtc.secs, time := timeField s }

/-- A journal record of 48 bytes (R433); FLAGS are TRIAL, FALLBACK (an alternate has been taken in this start) and
BUFFERED. -/
def journalBytes (s : State) (j : W32) (x : StepOutcome) (buffered : Bool) : Bytes :=
  leBytes 4 j.toNat ++ leBytes 2 (s.boot.count % 65536) ++ [x.step, x.kind] ++ leBytes 2 x.status.toNat ++
    [x.attempt, byte (imageCode s.boot.running)] ++ leBytes 4 x.rtcS.toNat ++ leBytes 2 x.time.toNat ++
    leBytes 4 (Nat.min 0xFFFFFFFF x.us) ++
    [byte (b2n (onTrial s.boot) + 2 * b2n (s.boot.fallStep.isSome || s.clk.fallback) + 4 * b2n buffered), 0] ++ padTo 24 x.detail

/-- A record appended to the journal, synchronously (R435). DEDUCED, log 156. -/
def journalPut (s : State) (x : StepOutcome) (buffered : Bool) : State :=
  let j := s.boot.jseq + 1
  let (r, a) := ringAppend geoJournal s.orr.journal (j.toNat % 64) (journalBytes s j x buffered) (appendFails s.orr)
  if a = .ok then
    { s with boot := { s.boot with jseq := j }, orr := { countAppend geoJournal s.orr.journal s.orr with journal := r } }
  else s

/-- A record of an outcome as it occurs. -/
def journalAdd (s : State) (step kind : Nat) (st : W16) (attempt : Nat) (detail : Bytes) : State :=
  journalPut s (outcomeNow s step kind st attempt detail) false

/-! ### Background rows -/

/-- LAZY_COMMIT (R300, R302): a dirty page is committed; `bad`: its copy mismatches twice, the page is WORN. -/
def doLazyCommit (p : Fin 256) (bad : Bool) (s : State) : State :=
  if (s.orr.pages[p]).dirty.isSome && !s.orr.ash then (commitPage s p 0 (readBacks s (some bad))).1 else s

/-- OLD_COPY_ERASE (R300 step 6): not for pages of an open transaction (R311). -/
def doOldCopyErase (p : Fin 256) (s : State) : State :=
  match currentCopy (s.orr.pages[p]).nv with
  | some c => if s.orr.txnDone.toNat < c.txn.toNat || s.orr.ash then s else eraseOld s p
  | none => s

/-- One step of a reclaim and the page erases it makes: the copies, then the erase (R307). -/
def reclaimStep (g : RingGeo) (r : Ring) : Ring × Nat :=
  if r.reclaim then (reclaimErase g r, 1)
  else if erasedRingPages g r < 2 then (reclaimCopy g r, 0)
  else (r, 0)

/-- RING_RECLAIM (R307): the next step of a ring's reclaim; 0 RING_CTR, 1 RING_SEC, 2 JOURNAL. -/
def doRingReclaim (ring : Fin 3) (s : State) : State :=
  if s.orr.ash then s
  else if ring.val == 0 then
    let r := reclaimStep geoCtr s.orr.ringCtr
    { s with orr := { (addErases s.orr r.2) with ringCtr := r.1 } }
  else if ring.val == 1 then
    let r := reclaimStep geoSec s.orr.ringSec
    { s with orr := { (addErases s.orr r.2) with ringSec := r.1 } }
  else
    let r := reclaimStep geoJournal s.orr.journal
    { s with orr := { (addErases s.orr r.2) with journal := r.1 } }

/-- Whether a NATIVE page belongs to a partition (R316). -/
def pageOwned (s : State) (a : Nat) : Bool :=
  s.orr.sys.parts.toList.any fun x => match x with
    | some q => decide (q.first ≤ a) && decide (a < q.first + q.pages)
    | none => false

/-- Whether both copies of a page are erased. -/
def pageErased (s : State) (a : Nat) : Bool :=
  let g := (vgetN s.orr.pages a {}).nv
  copyErased g.c0 && copyErased g.c1

/-- NATIVE_PARTITION_ERASE (R316): Or erases the next page that a deleted partition has left, both copies and its shadow; not
during the Ash store (R313). -/
def doNativePartitionErase (s : State) : State :=
  if s.orr.ash then s
  else match (List.range 80).find? fun i => !pageOwned s (150 + i) && !pageErased s (150 + i) with
    | none => s
    | some i =>
      { s with orr := { (addErases s.orr 1) with pages := vmodN s.orr.pages (150 + i) fun g => { nv := { worn := g.nv.worn } } } }

/-- PASSWORD_IDLE_EXPIRY (R317): 10 minutes after the last access under them, the rights of a partition lapse. -/
def doPasswordIdleExpiry (part : Fin 8) (s : State) : State :=
  let r := s.orr.rights[part]
  if r.read || r.write then
    let s1 := elapseTo s (r.access + 600 * ticksPerSec)
    { s1 with orr := { s1.orr with rights := vmod s1.orr.rights part fun q => { q with read := false, write := false } } }
  else s

/-- PASSWORD_BLOCK_EXPIRY (R317): the 60 s block of a partition's passwords ends. -/
def doPasswordBlockExpiry (part : Fin 8) (s : State) : State :=
  match (s.orr.rights[part]).blocked with
  | some t =>
    let s1 := elapseTo s t
    { s1 with orr := { s1.orr with rights := vmod s1.orr.rights part fun q => { q with blocked := none } } }
  | none => s

/-! ### The legacy window (R319 to R323) -/

/-- BP as the status page retains it (R320). DESIGN CHOICE, log 194. -/
def lwBp (o : Store) : BitVec 2 := match currentCopy o.lwStatus with
  | some c => BitVec.ofNat 2 (byteAt c.data 0)
  | none => 0

/-- Whether BP protects a window address (R322). DEDUCED, log 154. -/
def lwProtected (bp : BitVec 2) (a : Nat) : Bool :=
  match bp.toNat with
  | 0 => false
  | 1 => 0x1800 ≤ a
  | 2 => 0x1000 ≤ a
  | _ => true

/-- A page of the window as its current copy holds it; zeros without one (R299). -/
def lwPage (o : Store) (p : Nat) : Bytes := match currentCopy (vgetN o.lw p {}) with
  | some c => c.data
  | none => zeros 32

/-- The page image that a WRITE of `data` at address `a` leaves: bytes wrap within the page, the last 32 sent are
written, bytes not reached keep their content (R319). -/
def lwPageImage (o : Store) (a : Nat) (data : Bytes) : Bytes :=
  let skip := data.length - 32
  let start := (a % 32 + skip) % 32
  let d := data.drop skip
  (List.range 32).map fun i =>
    let k := (i + 32 - start) % 32
    if k < d.length then d.getD k 0 else (lwPage o (a / 32)).getD i 0

/-- The bytes that a READ of `n` bytes delivers, wrapping from 0x1FFF to 0x0000 (R319). -/
def lwRead (o : Store) (a n : Nat) : Bytes :=
  (List.range n).map fun i => (lwPage o ((a + i) % 8192 / 32)).getD ((a + i) % 32) 0

/-- The end of a write cycle, or of one that ended with RETRY: WIP and WEL clear (R320). -/
def cycleOver (o : Store) : Store := { o with cycle := none, wel := false, nLwWrites := satInc o.nLwWrites }

/-- LW_WRITE_CYCLE_END (R300, R320, R321): the cycle commits its page or the status page; a second mismatch at the read-back leaves
the page WORN with its old content. -/
def doLwWriteCycleEnd (s : State) : State :=
  let k := readBacks s none
  match s.orr.cycle with
  | none => s
  | some (.page p data) =>
    let g := vgetN s.orr.lw p {}
    let r := commitNv g data 0 k s.orr
    let s1 := { s with orr := cycleOver { r.2.1 with lw := vmodN s.orr.lw p fun _ => r.1 } }
    if r.2.2 then s1 else evtStore s1 3 4 p .ok
  | some (.status b) =>
    let r := commitNv s.orr.lwStatus (padTo 32 [byte b.toNat]) 0 k s.orr
    let s1 := { s with orr := cycleOver { r.2.1 with lwStatus := r.1 } }
    if r.2.2 then s1 else evtStore s1 3 4 256 .ok

/-! ### The commands of this file -/

/-- LAZY_COMMIT (R302). -/
def execLazyCommit (p : Fin 256) (bad : Bool) (s : State) : Host.Outcome State Fault Refusal :=
  done s (doLazyCommit p bad s)

/-- OLD_COPY_ERASE (R300). -/
def execOldCopyErase (p : Fin 256) (s : State) : Host.Outcome State Fault Refusal :=
  done s (doOldCopyErase p s)

/-- RING_RECLAIM (R307). -/
def execRingReclaim (ring : Fin 3) (s : State) : Host.Outcome State Fault Refusal :=
  done s (doRingReclaim ring s)

/-- LW_WRITE_CYCLE_END (R321). -/
def execLwWriteCycleEnd (s : State) : Host.Outcome State Fault Refusal :=
  done s (doLwWriteCycleEnd s)

/-- PASSWORD_IDLE_EXPIRY (R317). -/
def execPasswordIdleExpiry (part : Fin 8) (s : State) : Host.Outcome State Fault Refusal :=
  done s (doPasswordIdleExpiry part s)

/-- PASSWORD_BLOCK_EXPIRY (R317). -/
def execPasswordBlockExpiry (part : Fin 8) (s : State) : Host.Outcome State Fault Refusal :=
  done s (doPasswordBlockExpiry part s)

/-- NATIVE_PARTITION_ERASE (R316). -/
def execNativePartitionErase (s : State) : Host.Outcome State Fault Refusal :=
  done s (doNativePartitionErase s)

end Sys2Proof.Machine
end

