-- ==== Sys2Proof/Machine/Sessions.lean ====
section
/-! DEFINITION. Session ends, pending starts, lock-outs and the permit output's stop: what many families bring about
(R173 to R178, R354, R355, R374). -/

namespace Sys2Proof.Machine

open Sys2Proof

/-! ### The permit output (R374) -/

/-- Argent enters the not-permitted pattern: LAST_END, PERMIT_END and VSTATE follow (R370, R374). -/
def permitStop (s : State) (lastEnd : Nat) : State :=
  if s.host.pmt.active then
    let s1 := irqSet { s with host := { s.host with pmt := { s.host.pmt with
      active := false, lastEnd := BitVec.ofNat 4 lastEnd } } } 6
    sendVStateIfChanged s1
  else s

/-- CONTROL from the host die: PERMIT_ENDED with a reason (R340). -/
def sendPermitEnded (s : State) (reason : Nat) : State := sendShort s false 7 (BitVec.ofNat 17 (1 + 16 * reason))

/-- Argent ends a running start itself and tells the field die why (R355). -/
def permitEndedByHost (s : State) (lastEnd reason : Nat) : State :=
  if s.host.pmt.active then sendPermitEnded (permitStop s lastEnd) reason else s

/-- CONTROL from the field die: PERMIT_STOP with a reason (R340). -/
def sendPermitStop (s : State) (reason : Nat) : State := sendShort s true 7 (BitVec.ofNat 17 (1 + 16 * reason))

/-! ### Sessions (R174, R175) -/

/-- EVT_SESSION_END (R395). -/
def evtSessionEnd (s : State) (kind reason relock : Nat) (doors : BitVec 4) (session : Nat) : State :=
  postEvent s 5 .ok ([byte kind, byte reason, byte relock, byte doors.toNat] ++ leBytes 2 session)

/-- An open entry session ends (R174). -/
def endEntry (s : State) (reason relock : Nat) : State :=
  match s.pres.entry with
  | none => s
  | some e => evtSessionEnd { s with pres := { s.pres with entry := none } } 0 reason relock e.doors e.id.toNat

/-- An open start session ends (R175). -/
def endStart (s : State) (reason : Nat) : State :=
  match s.pres.start with
  | none => s
  | some t => evtSessionEnd { s with pres := { s.pres with start := none } } 1 reason 0 0 t.id.toNat

/-- An open start session that the steward ends: PERMIT_STOP goes to Argent first. `stopReason` is the code of R340. -/
def stopStart (s : State) (reason stopReason : Nat) : State :=
  if s.pres.start.isSome then endStart (sendPermitStop s stopReason) reason else s

/-- The next session number: from 1, wrapping from 0xFFFF to 1 (R395). -/
def sessionAfter (n : W16) : W16 := if n = 0xFFFF then 1 else n + 1

/-! ### A pending start request (R213, R385, R395) -/

/-- EVT_GRANT_START: on refusal CONTEXT 0xFF and the reason in DETAIL; the fields that a refusal leaves unnamed
carry 0, the position 0x8000 (R395). -/
def evtStartRefused (s : State) (ctag : Nat) (st : Status) (detail : Nat) : State :=
  postEvent s 4 st (leBytes 2 ctag ++ [0xFF, 0, 0, 0] ++ leBytes 2 0 ++ posBytes none ++ [byte detail])

/-- The pending start request ends without a grant: one EVT_GRANT_START for its PRES_START. -/
def endStartReq (s : State) (st : Status) (detail : Nat) : State :=
  match s.pres.startReq with
  | none => s
  | some _ =>
    let s1 := { s with
      pres := { s.pres with startReq := none }
      cmds := { s.cmds with startCtag := none } }
    match s.cmds.startCtag with
    | none => s1
    | some c => evtStartRefused s1 c.toNat st detail

/-! ### Lock-outs (R176 to R178, R212, R238) -/

def lockOf (s : State) : LockPath → Lockout
  | .passive => s.pres.passive
  | .hf => s.pres.hf
  | .credential => s.creds.lock

def setLock (s : State) (p : LockPath) (l : Lockout) : State :=
  match p with
  | .passive => { s with pres := { s.pres with passive := l } }
  | .hf => { s with pres := { s.pres with hf := l } }
  | .credential => { s with creds := { s.creds with lock := l } }

/-- PATH of EVT_LOCKOUT and of a LOCKOUT entry. -/
def lockCode : LockPath → Nat
  | .passive => 0 | .hf => 1 | .credential => 2

/-- RID of the path's RING_SEC record (R310). -/
def lockRid : LockPath → Nat
  | .passive => 1 | .hf => 2 | .credential => 3

/-- Full duration in seconds: LOCKOUT_MIN, HF_LOCKOUT_MIN, or the 10 minutes of R238. -/
def lockSecs (s : State) : LockPath → Nat
  | .passive => 60 * lockoutMin s
  | .hf => 60 * hfLockoutMin s
  | .credential => 600

/-- Seconds after which a failure leaves the list (R176, R212, R238). -/
def lockWindow : LockPath → Nat
  | .passive => 120 | .hf => 120 | .credential => 600

/-- Whether a path is locked out. -/
def lockedOut (s : State) (p : LockPath) : Bool := (lockOf s p).endAt != 0

/-- A list and its end written to RING_SEC (R177). -/
def saveLock (s : State) (p : LockPath) : State := appendSec s (lockRid p) (lockoutPayload (lockOf s p))

/-- EVT_LOCKOUT (R395). -/
def evtLockout (s : State) (p : LockPath) (phase endAt : Nat) : State :=
  postEvent s 6 .ok ([byte (lockCode p), byte phase, 0, 0] ++ leBytes 4 endAt)

/-- The failures of a list that have not aged out. DEDUCED, log 72. -/
def freshFails (s : State) (p : LockPath) : List Nat :=
  (lockOf s p).fails.filter fun t => rtcNow s < t + lockWindow p + 1

/-- A lock-out begins: end time, cleared list, EVT_LOCKOUT, and a LOCKOUT entry for the passive and HF paths (R176). -/
def enterLockout (s : State) (p : LockPath) : State :=
  let e := rtcNow s + lockSecs s p
  let s1 := saveLock (setLock s p { fails := [], endAt := e }) p
  let s2 := evtLockout s1 p 0 e
  match p with
  | .credential => s2
  | _ => ledgerAdd s2 7 0 0 none ([byte (lockCode p), 0] ++ leBytes 4 e)

/-- A failure of a path: persisted, and at the fifth in the list the lock-out (R176, R177). -/
def addFailure (s : State) (p : LockPath) : State :=
  let fs := freshFails s p ++ [rtcNow s]
  if 5 ≤ fs.length then enterLockout s p
  else saveLock (setLock s p { (lockOf s p) with fails := fs }) p

/-- A lock-out ends: the stored end is written as 0 before EVT_LOCKOUT with the end flag (R177). -/
def endLockout (s : State) (p : LockPath) : State :=
  if lockedOut s p then
    evtLockout (saveLock (setLock s p { (lockOf s p) with endAt := 0 }) p) p 1 0
  else s

/-! ### The press window (R194) -/

/-- An entry that cannot be rewritten: ARMED, POSTED or RUNNING (R39). -/
def entryActive (e : LaunchEntry) : Bool := e.state = .armed || e.state = .posted || e.state = .running

/-- A program that receives press telegrams, format 2 (R110, R121). -/
def pressProgram (ops : List ProgOp) : Bool := ops.any fun o => match o with
  | .tnRxFrame 2 _ _ _ => true
  | _ => false

/-- A Tenné entry, not a press window's own, that runs or is due within two copy lengths (R194); one that waits for its parent
counts, since its parent may complete in that time. DESIGN CHOICE, log 191. -/
def tenneDue (s : State) (e : LaunchEntry) : Bool :=
  e.island.toNat == 2 && entryActive e && !((programAt s .tenne e.arg.toNat).any pressProgram) &&
  (e.state = .running || e.waiting || decide (e.due ≤ now s + searchTicks s))

/-- The steward keeps a press window of format 2 on the SNIFF entry in Chalk while no other Tenné entry is due within two copy
lengths (R194). DEDUCED, log 49. -/
def windowKept (s : State) : Bool :=
  s.pwr.pstate = .chalk && s.boot.step == 16 && !(s.cel.entries.toList.any (tenneDue s))

/-! ### The retained region (R452) -/

/-- What a scheduler pass leaves for a restart. -/
def retainedOf (s : State) : Retained :=
  { pres := s.pres, ctxs := s.ctxs, ev := s.ev, queue := s.cmds.queue, startCtag := s.cmds.startCtag
    telem := s.orr.telem, credLock := s.creds.lock, times := s.bg.times }

/-- The copy that a restart takes: the valid one with the higher generation (R452). -/
def retainedCopy (b : Background) : Option RetCopy :=
  match b.ret0.valid, b.ret1.valid with
  | false, false => none
  | true, false => some b.ret0
  | false, true => some b.ret1
  | true, true => if b.ret0.gen < b.ret1.gen then some b.ret1 else some b.ret0

/-! ### Back to the XO (R403, R405) -/

/-- Whether any entry is active: a request to leave Chalk is then refused (R50). -/
def launchActive (s : State) : Bool := s.cel.entries.toList.any entryActive

/-- REF has changed: the data islands fed by PLL_C and PLL_L stop and count again, Purpure and Gules run from RC16
directly, both PLLs relock (R401, R405). -/
def refRelock (s : State) : State :=
  { s with clk := { s.clk with
      pllcLock := false, plllLock := false, onRc16 := true, ready := s.clk.ready &&& ~~~(0x69 : BitVec 7) } }

/-- REF is the XO again (R405). -/
def leaveFallback (s : State) : State :=
  refRelock { s with
    clk := { s.clk with fallback := false, refRc16 := false, backWaits := false, divPurpure := 8 }
    cel := if s.cel.tbRun then { s.cel with tbSrc := .xo } else s.cel }

/-- The switch back to the XO once no entry is active (R403, R405). -/
def xoBack (s : State) : State :=
  if !s.clk.fallback || !s.clk.xoRdy then s
  else if launchActive s then { s with clk := { s.clk with backWaits := true } }
  else leaveFallback s

/-! ### The end of a scheduler pass (R351, R416, R452) -/

/-- The conditions of R416, except their ten seconds. DEDUCED, log 139. -/
def idleCond (s : State) : Bool :=
  (match s.pres.run with
    | some r => r.kind == .tracking || r.stage == .wake
    | none => true) &&
  s.pres.entry.isNone && s.pres.start.isNone && s.pres.startReq.isNone && s.pres.heldTouch.isNone && s.cmds.longs.isEmpty && s.cmds.queue.isEmpty &&
  (match s.hf.lingerUntil with
    | some t => decide (t ≤ now s)
    | none => true) &&
  !(s.bar.vstate.valid && s.bar.vstate.engineRun) && s.tn.utx.phase == .idle

/-- The second since which R416's conditions have held, kept at each pass. DEDUCED, log 139. -/
def idleNote (s : State) : State :=
  if idleCond s then (if s.pwr.idle then s else { s with pwr := { s.pwr with idle := true, idleSince := rtcNow s } })
  else if s.pwr.idle then { s with pwr := { s.pwr with idle := false } } else s

/-- The end of a scheduler pass: records go out, ALIVE advances, the watchdog is kicked, a switch back to the XO that
waited for the launch table is made, and a pass that changed the retained content writes the older copy with the next
generation (R351, R405, R451, R452). -/
def passEnd (s0 : State) : State :=
  let s1 := idleNote (pump s0)
  let s := if s1.clk.backWaits then xoBack s1 else s1
  let d := retainedOf s
  let old1 := decide (s.bg.ret0.gen ≤ s.bg.ret1.gen)
  let c : RetCopy := { gen := Nat.max s.bg.ret0.gen s.bg.ret1.gen + 1, valid := true, data := d }
  let same := match retainedCopy s.bg with
    | some r => decide (r.data = d)
    | none => false
  { s with
    bar := { s.bar with fieldEnd := { s.bar.fieldEnd with alive := s.bar.fieldEnd.alive + 1 } }
    bg := { s.bg with
      kickAt := now s
      ret0 := if same || !old1 then s.bg.ret0 else c
      ret1 := if same || old1 then s.bg.ret1 else c } }

end Sys2Proof.Machine
end

