-- ==== Sys2Proof/Machine/Engines.lean ====
section
/-! DEFINITION. The three sequence engines: what their instructions share, what returns drivers and radios to idle,
and how a program ends (R49, R51, R52, R85, R88, R123, R138, R148, R477). -/

namespace Sys2Proof.Machine

open Sys2Proof

/-! ### Sequencer state -/

/-- The sequencer of an engine. -/
def seqOf (s : State) : SeqId → Sequencer
  | .vert => s.seqs.vert
  | .azure => s.seqs.azure
  | .tenne => s.seqs.tenne

/-- The sequencer of an engine replaced. -/
def setSeq (s : State) (e : SeqId) (q : Sequencer) : State :=
  { s with seqs := match e with
    | .vert => { s.seqs with vert := q }
    | .azure => { s.seqs with azure := q }
    | .tenne => { s.seqs with tenne := q } }

/-- A program runs on the engine. -/
def seqRuns (s : State) (e : SeqId) : Bool := (seqOf s e).entry.isSome

/-- A program runs and its next instruction may execute. -/
def seqReady (s : State) (e : SeqId) : Bool := seqRuns s e && decide ((seqOf s e).wait = .ready)

/-- Execution moves past an instruction of `n` words and waits as `w` says. -/
def seqPast (s : State) (e : SeqId) (n : Nat) (w : SeqWait) : State :=
  setSeq s e { seqOf s e with pc := (seqOf s e).pc + n, wait := w }

/-- An operation in progress has ended: the next instruction may execute. -/
def seqResume (s : State) (e : SeqId) : State := setSeq s e { seqOf s e with wait := .ready }

/-- The innermost iteration index, 0 outside a loop. -/
def loopIdx (s : State) (e : SeqId) : Nat :=
  match (seqOf s e).loops with
  | [] => 0
  | f :: _ => f.i

/-! ### The instruction at hand (R51) -/

/-- The words of the program memory of an engine from its pc on, at most two. -/
def wordsAtPc (s : State) (e : SeqId) : List Nat :=
  let pc := (seqOf s e).pc
  let w (i : Nat) : Nat := (memRead (progMem s e) (2 * i)).toNat + 256 * (memRead (progMem s e) (2 * i + 1)).toNat
  if pc + 1 < progWords e then [w pc, w (pc + 1)] else if pc < progWords e then [w pc] else []

/-- Whether the word or words at an engine's pc are the instruction `op` of `n` words (R51). -/
def atOp (s : State) (e : SeqId) (op : ProgOp) (n : Nat) : Bool := decide (decodeOp e (wordsAtPc s e) = some (op, n))

/-- A program runs on the engine, its next instruction may execute, and that instruction is `op`. -/
def seqAt (s : State) (e : SeqId) (op : ProgOp) (n : Nat) : Bool := seqReady s e && atOp s e op n

/-! ### Completions (R46) -/

/-- Firings that an island counts by their status: Vert's OK, ANTENNA_FAULT and BUSY (R93). -/
def countFiring (s : State) (n : Fin 128) (st : W16) : State :=
  if (s.cel.entries[n]).island = 0 then
    if st = statusCode .ok then { s with vert := { s.vert with nProgs := satInc s.vert.nProgs } }
    else if st = statusCode .antennaFault then { s with vert := { s.vert with nFaults := satInc s.vert.nFaults } }
    else if st = statusCode .busy then { s with vert := { s.vert with nDuty := satInc s.vert.nDuty } }
    else s
  else s

/-- An island reports a firing's status, completion tick and actual tick to Celeste (R43, R46). -/
def complete (s : State) (n : Fin 128) (st : Status) : State :=
  { s with cel := { s.cel with completions := s.cel.completions ++
      [{ entry := n, status := statusCode st, tick := now s, act := (s.cel.entries[n]).firedAt }] } }

/-! ### Vert idle -/

/-- The word of a VERT_RES record that a window writes for a slot as it stood when the window opened: amplitude 0
records a current of 0; slots outside the mask, and channels that are never measured, hold no measurement (R78, R88,
R92). -/
def resWord (v : Vert) (w : LfWindow) (i : Fin 3) (m : BitVec 12 × Byte) (cut : Bool) : LfRes :=
  let sl := w.slots[i]
  match sl.ch with
  | some c =>
    if bitAt w.mask.toNat i.val && bitAt v.pop.toNat c.val then
      { iMeas := if actAmp sl w.start = 0 then 0 else m.1, ph := m.2, ch := BitVec.ofNat 4 c.val, valid := true
        uncomp := w.uncomp, cut := cut }
    else {}
  | none => {}

/-- A window's record written with the given measurements of the three slots. -/
def writeRes (v : Vert) (w : LfWindow) (m : Fin 3 → BitVec 12 × Byte) (cut : Bool) : Vert :=
  let x : LfResult :=
    { s0 := resWord v w 0 (m 0) cut, s1 := resWord v w 1 (m 1) cut, s2 := resWord v w 2 (m 2) cut
      winTick := BitVec.ofNat 32 w.start }
  { v with res := vset v.res w.rcd x }

/-- Measurements that the specification leaves open: the partial result of a cut window (R88).
DESIGN CHOICE, log 28. -/
def freeMeas (n : Nat) (i : Fin 3) : BitVec 12 × Byte :=
  (BitVec.ofNat 12 (Config.freeNat (n + 2 * i.val)), BitVec.ofNat 8 (Config.freeNat (n + 2 * i.val + 1)))

/-- Windows cut one after another: each writes its record with CUT. -/
def cutWindows : List LfWindow → State → State
  | [], s => s
  | w :: ws, s =>
    cutWindows ws { s with
      vert := writeRes { s.vert with windows := s.vert.windows.filter (· ≠ w) } w (freeMeas s.freeCtr) true
      freeCtr := s.freeCtr + 6 }

/-- The windows on any slot of a mask that have not run to their end are cut (R88). DEDUCED, log 32. -/
def cutMask (s : State) (mask : Nat) : State :=
  cutWindows (s.vert.windows.filter fun w => w.mask.toNat &&& mask != 0 && decide (now s < w.stop)) s

/-- One slot returns to idle at tick `t`: its bridge stops at the next current zero crossing, or never started (R85). -/
def slotStop (v : Vert) (t : Nat) (i : Fin 3) : LfSlot :=
  { v.slot[i] with driven := false, tail := slotDrives v t i, offAt := if slotOn v t i then slotZero v i t else 0 }

/-- The slots of a mask return to idle at tick `t` (R85). -/
def slotsOff (v : Vert) (t mask : Nat) : Vert :=
  { v with slot := Vector.ofFn fun i : Fin 3 => if bitAt mask i.val then slotStop v t i else v.slot[i] }

/-- The slots that hold a channel, or whose bridge still drives it. -/
def slotHolds (c : Fin 12) (l : LfSlot) : Bool := decide (l.ch = some c) || decide (l.tail = some c)

/-- A slot mask without the slots that `p` names. -/
def maskWithout (v : Vert) (p : LfSlot → Bool) (m : BitVec 3) : BitVec 3 :=
  (List.finRange 3).foldl (fun m i => if p (v.slot[i]) then m &&& ~~~(BitVec.ofNat 3 (2 ^ i.val)) else m) m

/-- Every bridge of the slots that `p` names turns off at once, in a SEND too (R70, R71, R78). -/
def slotsCut (v : Vert) (p : LfSlot → Bool) : Vert :=
  { v with
    slot := vmap v.slot fun l => if p l then { l with driven := false, onAt := 0, tail := none, offAt := 0 } else l
    send := v.send.map fun sd => { sd with mask := maskWithout v p sd.mask } }

/-- Every slot returns to idle: windows are cut, a SEND ends (R85, R88). DEDUCED, log 30. -/
def vertIdle (s : State) : State :=
  let s1 := cutMask s 7
  { s1 with vert := { slotsOff s1.vert (now s1) 7 with send := none, trackDue := 0xFFF } }

/-- The tick at which a stop takes hold of Vert: the next bit boundary of a running SEND (R87, R477). -/
def vertStopTick (s : State) : Nat :=
  match s.vert.send with
  | none => now s
  | some sd => Nat.min (sd.wt + 4800 * sd.n) (sd.wt + 4800 * ceilDiv (now s - sd.wt) 4800)

/-! ### Tenné idle -/

/-- Bytes of a receive record: the payload after six header bytes, in 8-byte records (R121, R124). -/
def rxRecordLen (f : Nat) : Nat := 8 * formatRecords f

/-- Bytes stored in the 64-byte receive buffer, none beyond its end. -/
def putRxBytes (m : Mem) (a : Nat) (d : Bytes) : Mem := memWriteBytes m a (d.take (64 - a))

/-- The payload bits of a frame after SYNC, padded with 0: 10 bits of a hail reply, 10 bytes of a Prove reply, 23 bytes of a
press telegram (R104, R108, R110, R124). -/
def payloadBits (f : Nat) (p : Bytes) : Bytes :=
  match f with
  | 0 => padTo 1 p ++ [(p.getD 1 0) &&& 0x03]
  | 1 => padTo 10 p
  | _ => padTo 23 p

/-- A receive record written at record `r`; TAIL_RSSI (byte 3) stays as RSSI left it (R124). -/
def putRx (m : Mem) (r f : Nat) (b0 rssi weak : Byte) (t0 : Nat) (payload : Bytes) : Mem :=
  putRxBytes (putRxBytes m (8 * r) [b0, rssi, weak]) (8 * r + 4)
    (leBytes 2 (t0 % 65536) ++ padTo (rxRecordLen f - 6) (payloadBits f payload))

/-- A receive record of a CLASS counted (R202). -/
def countRx (t : Tenne) (cls : Nat) : Tenne :=
  { t with
    nDecoded := if cls = 1 then satInc t.nDecoded else t.nDecoded
    nCollided := if cls = 2 then satInc t.nCollided else t.nCollided
    nEmpty := if cls = 0 then satInc t.nEmpty else t.nEmpty }

/-- An RX_FRAME in progress ends at once: its record has CUT set, its other fields are open, and the record counts in its class;
CHECK_OK is 0 for format 1 (R124, R202, R477). DESIGN CHOICE, log 28. -/
def cutRx (s : State) : State :=
  match s.tn.rxFrame with
  | none => s
  | some x =>
    let b := Config.freeBytes s.freeCtr 40
    let check := x.format.val ≠ 1 ∧ bitAt (b.headD 0).toNat 7
    let b0 : Byte := byte ((b.headD 0).toNat % 3 + 4 * b2n check + 8)
    { s with
      freeCtr := s.freeCtr + 1
      tn := { countRx s.tn ((b.headD 0).toNat % 3) with
        rxFrame := none
        rxbuf := putRx s.tn.rxbuf x.rcd x.format.val b0 (b.getD 1 0) (b.getD 2 0) (leAt b 3 2)
          (slice b 6 (rxRecordLen x.format.val - 6)) } }

/-- HALT and every stop turn the receiver, the transmitter and the synthesiser off (R123). DEDUCED, log 27. -/
def tenneIdle (s : State) : State :=
  let s1 := cutRx s
  { s1 with tn := { s1.tn with rxOn := false, txOn := false, synth := { s1.tn.synth with on := false, locked := false } } }

/-! ### Azure idle -/

/-- A 12-byte timestamp record (R149). -/
def tsRecord (ts : Nat) (cls : Nat) (tx orphan cut nlos : Bool) (stsq rssi : Byte) (pdoa cfo : W16) : Bytes :=
  leBytes 5 (ts % 2 ^ 40) ++
    [byte (cls + 4 * b2n tx + 8 * b2n orphan + 16 * b2n cut + 32 * b2n nlos), stsq, rssi] ++
    leBytes 2 pdoa.toNat ++ leBytes 2 cfo.toNat

/-- A record written; it belongs to the exchange in flight. -/
def putTs (a : Azure) (r : Fin 4) (rcd : Bytes) : Azure :=
  { a with tsbuf := memWriteBytes a.tsbuf (12 * r.val) rcd, recsUsed := a.recsUsed ||| BitVec.ofNat 4 (2 ^ r.val) }

/-- A record that ended early: CUT set, the rest open (R149, R477). DESIGN CHOICE, log 28. -/
def cutTs (s : State) (r : Fin 4) : State :=
  let b := Config.freeBytes s.freeCtr 12
  let pdoa := if s.az.rxB.isSome then slice b 8 2 else [0, 0]
  let rcd := b.take 5 ++ [(b.getD 5 0 &&& 0x23) ||| 0x10] ++ slice b 6 2 ++ pdoa ++ slice b 10 2
  { s with freeCtr := s.freeCtr + 1, az := putTs s.az r rcd }

/-- A LOOPBACK in progress ends at once with CUT (R48, R148). -/
def cutLoop (s : State) : State :=
  match s.az.loop with
  | none => s
  | some l => { cutTs s l.rcd with az := { (cutTs s l.rcd).az with loop := none } }

/-- An RX_FRAME in progress ends at once with CUT. -/
def cutAzRx (s : State) : State :=
  match s.az.rxFrame with
  | none => s
  | some x => { cutTs s x.rcd with az := { (cutTs s x.rcd).az with rxFrame := none } }

/-- The STS key port zeroised and VALID cleared (R137). -/
def zeroiseSts (s : State) : State :=
  { s with az := { s.az with key := { s.az.key with port := [], valid := false, orphanPend := false, parent := none } } }

/-- ORPHAN set in the records of the exchange in flight (R138). DEDUCED, log 55. -/
def markOrphan (a : Azure) : Azure :=
  { a with tsbuf := (List.range 4).foldl (fun m r =>
      if bitAt a.recsUsed.toNat r then memWrite m (12 * r + 5) (memRead m (12 * r + 5) ||| 0x08) else m) a.tsbuf }

/-- An exchange boundary: with ORPHAN_PEND set the port is zeroised and the exchange in flight is marked (R138).
DEDUCED, log 55. -/
def azBoundary (s : State) : State :=
  if s.az.key.orphanPend then
    let s1 := zeroiseSts s
    if s.az.recsUsed = 0 then s1
    else { s1 with az := { markOrphan s1.az with nOrphan := satInc s1.az.nOrphan, recsUsed := 0 } }
  else { s with az := { s.az with recsUsed := 0 } }

/-- HALT and every stop turn both radios and PLL_U's synthesiser off (R148); HALT is an exchange boundary (R138).
DEDUCED, log 27. -/
def azureIdle (s : State) : State :=
  let s1 := cutAzRx (cutLoop s)
  azBoundary { s1 with
    az := { s1.az with rxA := none, rxB := none, txPort := none, synthOn := false, locked := false }
    clk := { s1.clk with plluLock := false } }

/-! ### Instructions that last a stated time (R125, R150, R477) -/

/-- What an instruction leaves at its end: the offset estimate of DCOC, the median of RSSI, the record of TX_FRAME. Quality,
power and carrier offset of a transmitted frame's record are open (R149). DEDUCED, log 51. -/
def finishTimed (s : State) (e : SeqId) (w : TimedOp) : State :=
  match e, w with
  | .tenne, .dcoc n => { s with tn := { s.tn with dcocAt := some (now s, n) } }
  | .tenne, .rssi k v => { s with tn := { s.tn with rxbuf := putRxBytes s.tn.rxbuf (8 * k + 3) [v] } }
  | .azure, .azTx r mark =>
    let b := Config.freeBytes s.freeCtr 4
    let dly := match s.az.txPort with
      | some p => (s.az.ports[p]).txDly.toNat
      | none => 0
    let rcd := tsRecord (mark * 1664 + s.seqs.azure.fine + dly) 1 true false false false (b.headD 0) (b.getD 1 0) 0
      (BitVec.ofNat 16 (leAt b 2 2))
    { s with freeCtr := s.freeCtr + 1, az := putTs s.az r rcd }
  | _, _ => s

/-- Time passes to the end of an instruction that lasts a stated time, and what it leaves follows. -/
def settleSeq (s : State) (e : SeqId) : State :=
  match (seqOf s e).wait with
  | .til t k =>
    let s1 := elapseTo s t
    if t ≤ now s1 then finishTimed (seqResume s1 e) e k else s1
  | _ => s

/-- An instruction that lasts a stated time ends where its tick has come; before that a stop abandons it (R477). -/
def settleDueSeq (s : State) (e : SeqId) : State :=
  match (seqOf s e).wait with
  | .til t _ => if t ≤ now s then settleSeq s e else s
  | _ => s

/-! ### The end of a program -/

/-- The drivers or radios of an engine return to idle. -/
def engineIdle (s : State) : SeqId → State
  | .vert => vertIdle s
  | .azure => azureIdle s
  | .tenne => tenneIdle s

/-- A running program ends: drivers or radios idle, and the firing completes with a status (R51, R52). -/
def endProgram (s : State) (e : SeqId) (st : Status) : State :=
  match (seqOf s e).entry with
  | none => s
  | some n => complete (setSeq (engineIdle s e) e {}) n st

/-- A running program is stopped at its next instruction boundary (R477). -/
def stopProgram (s : State) (e : SeqId) (st : Status) : State :=
  match e with
  | .vert => endProgram (elapseTo s (vertStopTick s)) .vert st
  | _ => endProgram (settleDueSeq s e) e st

end Sys2Proof.Machine
end

