-- ==== Sys2Proof/Machine/RunOps.lean ====
section
/-! DEFINITION. Runs of the presence pipeline: their tokens and challenges, lost replies, the tracked set, the start
path, and how a run ends (R29, R118, R167 to R172, R178, R198, R478). -/

namespace Sys2Proof.Machine

open Sys2Proof

/-! ### Events (R395, the placement record of the presence group) -/

/-- The 24-byte placement record; `v` is the verdict code, 0xFF when no Weigh was made. DEDUCED, log 67. -/
def placementRecord (c : Fin 160) (p : Placement) (v : Nat) : Bytes :=
  let fl := b2n p.zoneConf + 2 * b2n p.noRange + 4 * (p.angles % 4) + 16 * b2n p.nlos + 32 * b2n p.degraded +
    64 * b2n p.inconsistent
  [byte c.val, byte p.zone.val] ++ leBytes 2 fl ++ posBytes p.pos ++ leBytes 2 p.sigma ++ leBytes 2 p.range ++
    leBytes 4 p.pollTick ++ [byte v] ++ zeros 5

/-- EVT_PRESENCE: source 0 placement, 1 press, 2 departure. -/
def evtPresence (s : State) (c : Fin 160) (p : Placement) (v source btn tflags ctr : Nat) : State :=
  postEvent s 2 .ok (placementRecord c p v ++ [byte source, byte btn, byte tflags, 0] ++ leBytes 4 ctr)

/-- EVT_COEX: pair and activity (0 hail, 1 Prove, 2 acknowledgement, 3 UWB). -/
def evtCoex (s : State) (pair activity : Nat) : State := postEvent s 10 .coexDenied [byte pair, byte activity]

/-! ### Runs and their tokens -/

def modRun (s : State) (f : Run → Run) : State :=
  { s with pres := { s.pres with run := s.pres.run.map f } }

def modTok (s : State) (c : Fin 160) (f : TokenRun → TokenRun) : State :=
  modRun s fun r => { r with toks := r.toks.map fun t => if t.ctx = c then f t else t }

def findTok (r : Run) (c : Fin 160) : Option TokenRun := r.toks.find? fun t => t.ctx == c

/-- The token of a context in the run. -/
def tokOf (s : State) (c : Fin 160) : Option TokenRun := s.pres.run.bind fun r => findTok r c

/-- The loaded STS key was derived from a context's K_T. -/
def stsOf (s : State) (c : Fin 160) : Bool := s.az.key.parent.any fun p => p.val == c.val

/-- The Range stage of a token is over: the steward writes CLR where the loaded key is the token's (R137). -/
def clearSts (s : State) (c : Fin 160) : State := if stsOf s c then zeroiseSts s else s

/-- The token whose Range comes next: exchanges run in the order of the verified Proves (R156). -/
def rangeNext (r : Run) : Option TokenRun :=
  (r.toks.filter fun t => !t.ended && t.proven.isSome && t.range.isNone).foldl (fun a t => match a with
    | none => some t
    | some u => if t.provenAt < u.provenAt then some t else some u) none

/-- The run has ended for a token. -/
def endTok (s : State) (c : Fin 160) : State := clearSts (modTok s c fun t => { t with ended := true }) c

/-- Card detection starts, in Chalk outside service-lock: the baseline is learned anew (R205, R261). -/
def lpcdStart (s : State) : State :=
  if s.pwr.pstate = .chalk && !s.keys.svcLock then
    { s with hf := { s.hf with lpcd := true, learned := 0, baseAmp := 0, basePh := 0, pingAt := now s } }
  else s

/-- The HF linger starts or restarts, with card detection running (R206). DEDUCED, log 73, 140. -/
def startLinger (s : State) (secs : Nat) : State :=
  let s1 := if s.hf.lpcd then s else lpcdStart s
  { s1 with hf := { s1.hf with lingerUntil := some (now s + secs * ticksPerSec) } }

/-- The tracked tokens of a tracking round that brought no proof: their next exchange is due a cadence from now (R169). -/
def noteTries (s : State) (r : Run) : List Tracked :=
  s.pres.tracked.map fun t =>
    if r.kind = .tracking && r.toks.any fun x => x.ctx == t.ctx && x.proven.isNone then { t with lastTry := now s } else t

/-- A run ends: its placements stay for the RESULTs on their way, card detection resumes, the STS key of a Range that stands is
cleared, and after a touch wake the HF linger is counted from here (R29, R137, R206). -/
def endRun (s0 : State) : State :=
  match s0.pres.run with
  | none => s0
  | some r =>
    let s := r.toks.foldl (fun t x => clearSts t x.ctx) s0
    let s1 := { s with
      pres := { s.pres with run := none, lastRun := some r, tracked := noteTries s r }
      hf := { s.hf with suspended := false } }
    if r.touchWake then startLinger s1 (tHfLinger s) else s1

/-- TFLAGS of EVT_PRESENCE from a telegram's FLAGS. -/
def pressFlags (flags : Byte) (pending : Bool) : Nat :=
  b2n (bitAt flags.toNat 2) + 2 * b2n pending + 4 * b2n (bitAt flags.toNat 0) + 8 * b2n (bitAt flags.toNat 1)

/-- EVT_PRESENCE of an accepted press (R114, R173). -/
def evtPress (s : State) (h : HeldPress) (pending : Bool) : State :=
  evtPresence s h.ctx {} 0xFF 1 h.btn.toNat (pressFlags h.flags pending) h.ctr.toNat

/-- A run is discarded with no grant (tamper alarm, life-cycle change): the accepted presses that waited for Grant are
reported and have no other effect. DEDUCED, log 50. -/
def abortRun (s : State) : State :=
  let s1 := s.pres.heldPress.foldl (fun t h => evtPress t h false) (endRun s)
  { s1 with pres := { s1.pres with lastRun := none, heldPress := [], heldTouch := none } }

/-! ### The tracked set (R169, R170) -/

def modTracked (s : State) (c : Fin 160) (f : Tracked → Tracked) : State :=
  { s with pres := { s.pres with tracked := s.pres.tracked.map fun t => if t.ctx = c then f t else t } }

/-- A token leaves the tracked set: EVT_PRESENCE with zone 0 (R170). DEDUCED, log 67. -/
def departTracked (s : State) (c : Fin 160) : State :=
  if s.pres.tracked.any fun t => t.ctx == c then
    evtPresence { s with pres := { s.pres with tracked := s.pres.tracked.filter fun t => t.ctx ≠ c } } c {} 0xFF 2 0 0 0
  else s

/-- The tracked set is cleared (R170). -/
def clearTracked (s : State) : State := (s.pres.tracked.map (·.ctx)).foldl departTracked s

/-- A tracking exchange was lost; the second in a row ends tracking of the token (R170). -/
def trackLost (s : State) (c : Fin 160) : State :=
  let s1 := modTracked s c fun t => { t with lost := t.lost + 1 }
  if s1.pres.tracked.any fun t => t.ctx == c && decide (2 ≤ t.lost) then departTracked s1 c else s1

/-! ### Lost replies (R26, R91, R118, R198) -/

/-- One lost reply of a token: the second ends the run for it (R118). DEDUCED, log 60. -/
def loseTok (s : State) (c : Fin 160) : State :=
  match s.pres.run, tokOf s c with
  | some r, some t =>
    if t.ended then s
    else
    let s1 := modTok s c fun x => { x with lost := x.lost + 1, ended := x.ended || decide (1 ≤ t.lost) }
    if r.kind = .tracking ∧ 1 ≤ t.lost then trackLost s1 c else s1
  | _, _ => s

/-- A token has had its first challenge, or its run has ended. -/
def chalBegun (r : Run) (u : TokenRun) : Bool :=
  u.ended || u.proven.isSome || decide (0 < u.lost) || r.chals.any fun x => x.cands.contains u.ctx

/-- A challenge is over. -/
def dropChal (s : State) (ch : Challenge) : State := modRun s fun r => { r with chals := r.chals.filter fun x => x ≠ ch }

/-- The reply to a challenge is lost. -/
def loseReply (s : State) (ch : Challenge) : State := ch.cands.foldl loseTok (dropChal s ch)

/-- A challenge whose frame never went out: it is planned again, with no reply lost (R80). -/
def unsent (s : State) (n : Fin 128) : State :=
  modRun s fun r => { r with
    hailPlan := r.hailPlan.filter fun p => p.1 != n
    chals := r.chals.filter fun c => c.frame != n || c.answer.isSome }

/-- R91 and R198: a firing that failed so that no reply can come. The challenge of a frame that did not go out, or of
a denied reply window, counts as a lost reply; its repeat starts 3,840 ticks after the record, or has PRIO 3. A hail frame that
did not go out is planned again; a denied hail window repeats the round once, with PRIO 3, and at the second denial the
approach ends without a grant. DEDUCED, log 45. -/
def replanFailed (s : State) (n : Fin 128) (denied : Bool) : State :=
  match s.pres.run with
  | none => s
  | some r =>
    match r.chals.find? fun c => (c.frame == n || (denied && c.reply == n)) && c.answer.isNone with
    | some ch =>
      let s1 := ch.cands.foldl (fun t c => modTok t c fun x =>
        if denied then { x with urgent := true } else { x with repeatAt := some (now s + 3840) }) (loseReply s ch)
      if denied && ch.cands.any (fun c => (tokOf s1 c).any (·.ended)) then evtCoex s1 0 1 else s1
    | none =>
      if !denied then unsent s n
      else if (match r.hailPlan with
          | some p => p.1 == n || p.2 == n
          | none => false) then
        if 1 ≤ r.denied then evtCoex (endRun s) 0 0
        else modRun s fun x => { x with denied := x.denied + 1, hailPlan := none, stage := .hail }
      else s

/-! ### Beginning a run (R24, R167, R172, R178, R403, R478) -/

/-- Whether an image may emit and grant: not in service-lock, not the recovery image (R261, R439).
DEDUCED, log 65, 140. -/
def mayEmit (s : State) : Bool := !s.keys.svcLock && s.boot.running != .recovery

/-- Whether the passive path may run: Aqmos enabled, not locked out, not in the XO fallback, emissions allowed, and a
life-cycle state in which a grant can follow. DEDUCED, log 65. -/
def passiveRuns (s : State) : Bool :=
  mayEmit s && aqmosEn s && !lockedOut s .passive && !s.clk.fallback && (lcOf s = .provisioned || lcOf s = .fielded)

/-- Whether a token's passive path is ignored after a RELAY verdict (R167). -/
def relayIgnored (s : State) (c : Fin 160) : Bool :=
  match (s.ctxs[c]).relayUntil with
  | some t => decide (now s < t)
  | none => false

/-- A tracked token as it enters a run. -/
def tokOfTracked (t : Tracked) : TokenRun :=
  { ctx := t.ctx, hailAlias := t.hailAlias, nH := t.nH, tracked := true }

/-- Insertion into a list that rises by a key. -/
def insertBy {α : Type} (key : α → Nat) (x : α) : List α → List α
  | [] => [x]
  | y :: ys => if key x < key y then x :: y :: ys else y :: insertBy key x ys

/-- A list in rising order of a key, equal keys in their old order. -/
def sortBy {α : Type} (key : α → Nat) (l : List α) : List α := l.foldl (fun acc x => insertBy key x acc) []

/-- |p|², of an unknown position more than of any other. -/
def normSq (p : Option Pos) : Nat :=
  match p with
  | none => 10 ^ 12
  | some q => (q.x * q.x + q.y * q.y + q.z * q.z).toNat

/-- A run begins; an approach suspends card detection until its Grant (R29, R205). -/
def beginRun (s : State) (r : Run) : State :=
  { s with
    pres := { s.pres with run := some r }
    hf := { s.hf with suspended := r.kind = .approach } }

/-- A hail round from the start, with the profiles in force. DEDUCED, log 64. -/
def hailRun (s : State) (k : RunKind) (path : Nat) (touched : BitVec 4) (wake : Bool) : Run :=
  { kind := k, stage := .hail, deep := s.pres.deep, double := s.pres.double, touched := touched, touchWake := wake, path := path }

/-- A run over tracked tokens. -/
def trackedRun (s : State) (k : RunKind) (path : Nat) (touched : BitVec 4) (wake : Bool) (ts : List Tracked) : Run :=
  { hailRun s k path touched wake with
    stage := .prove, toks := (ts.filter fun t => !relayIgnored s t.ctx).map tokOfTracked }

/-- The tracked tokens of step 1 of R478, last placed in zone 3, nearest first. -/
def pathZone3 (s : State) : List Tracked :=
  sortBy (fun t => normSq t.placement.pos) (s.pres.tracked.filter fun t => t.placement.zone = 3)

/-- The tokens of step 2: every tracked token that step 1 did not challenge, most recent last exchange first. -/
def pathRest (s : State) (did : List (Fin 160)) : List Tracked :=
  sortBy (fun t => now s - t.lastExchange) (s.pres.tracked.filter fun t => !did.contains t.ctx)

/-- The start path from a step of R478 on, step 1 having challenged the tokens `did`: steps without a token are passed over;
after step 3 the run has ended. -/
def pathFrom (s : State) (step : Nat) (did : List (Fin 160)) : State :=
  if !passiveRuns s then endRun s
  else if step ≤ 1 ∧ pathZone3 s ≠ [] then beginRun s (trackedRun s .start 1 0 false (pathZone3 s))
  else if step ≤ 2 ∧ pathRest s did ≠ [] then beginRun s (trackedRun s .start 2 0 false (pathRest s did))
  else if step ≤ 3 then beginRun s (hailRun s .start 3 0 false)
  else endRun s

/-- An approach begins (R24, R182): tracked tokens are challenged first, as on the start path; otherwise, and where none
of them is granted, it hails. Where none can run, the linger of a touch wake is counted from here (R206).
DEDUCED, log 62, 64. -/
def beginApproach (s0 : State) (touched : BitVec 4) (wake : Bool) : State :=
  let s := { s0 with pres := { s0.pres with deep := s0.pres.nextDeep, double := s0.pres.nextDouble } }
  if !passiveRuns s then (if wake then startLinger s (tHfLinger s) else s)
  else if s.pres.tracked.isEmpty then beginRun s (hailRun s .approach 3 touched wake)
  else beginRun s (trackedRun s .approach 1 touched wake s.pres.tracked)

/-- An HF exchange is past detection (R214). DEDUCED, log 119. -/
def hfBusy (s : State) : Bool := s.hf.field && s.hf.phase != .idle

/-- A touch or an approach's wake waits. DEDUCED, log 63, 119. -/
def holdTouch (s : State) (touched : BitVec 4) (wake : Bool) : State :=
  let h := s.pres.heldTouch.getD (0, false)
  { s with pres := { s.pres with heldTouch := some (h.1 ||| touched, h.2 || wake) } }

/-- A wake begins an approach; an HF exchange that is past detection completes first (R214). DEDUCED, log 119. -/
def wakeApproach (s : State) (touched : BitVec 4) (wake : Bool) : State :=
  if hfBusy s then holdTouch s touched wake else beginApproach s touched wake

/-- The approach of a wake that waited, once no run and no HF exchange is going on (R29, R214).
DEDUCED, log 63, 119. -/
def releaseTouch (s : State) : State :=
  match s.pres.heldTouch with
  | none => s
  | some h =>
    if hfBusy s || s.pres.run.isSome then s
    else beginApproach { s with pres := { s.pres with heldTouch := none } } h.1 h.2

end Sys2Proof.Machine
end

