-- ==== Sys2Proof/Machine/Celeste.lean ====
section
/-! DEFINITION. Celeste: the launch table, posting, firing, completion and cancellation of launches, moves, the launch
log, the timebase latch and the snapshot banks (R30 to R65, R477). -/

namespace Sys2Proof.Machine

open Sys2Proof

/-! ### Launch-table entries (R37, R38) -/

/-- Entry `n` of the launch table. -/
def entryOf (s : State) (n : Fin 128) : LaunchEntry := s.cel.entries[n]

/-- Entry `n` changed. -/
def modEntry (s : State) (n : Fin 128) (f : LaunchEntry → LaunchEntry) : State :=
  { s with cel := { s.cel with entries := vmod s.cel.entries n f } }

/-- TICK of an entry. -/
def tickOf (e : LaunchEntry) : Nat := e.tickLo.toNat + 4294967296 * e.tickHi.toNat

/-- The delay after the parent's completion, TICK[23:0]. -/
def delayOf (e : LaunchEntry) : Nat := e.tickLo.toNat % 16777216

/-- An entry that waits to fire: ARMED or POSTED. -/
def entryWaits (e : LaunchEntry) : Bool := e.state = .armed || e.state = .posted

/-- The engine of a sequencer island. -/
def engineOf (island : Nat) : Option SeqId :=
  match island with
  | 0 => some .vert
  | 1 => some .azure
  | 2 => some .tenne
  | _ => none

/-- Defined combinations of ISLAND and ACTION (R38). -/
def actionOk (island action : Nat) : Bool :=
  if island < 3 then action == 1 || action == 2
  else if island == 3 then action == 4
  else if island == 4 then action == 7 || action == 8
  else false

/-- ARG within the target's program memory, job tags, descriptor table or event numbers; a STOP's ARG is 0 (R38, R40). -/
def argOk (island action arg : Nat) : Bool :=
  match engineOf island, action with
  | some e, 1 => decide (arg < progWords e)
  | some _, _ => arg == 0
  | none, 4 => decide (arg < 48)
  | none, 7 => decide (arg < 32)
  | none, _ => decide (arg < 64)

/-- FINE within the island's range (R36). -/
def fineOk (island fine : Nat) : Bool :=
  match island with
  | 0 => decide (fine < 32)
  | 1 => decide (fine < 1664)
  | 2 => decide (fine < 8)
  | _ => fine == 0

/-- t_LEAD, t_POST, t_PRE and t_SNAP (R65). -/
def tLead : Nat := 128

def tPost : Nat := 4096

def tPre : Nat := 4

def tSnap : Nat := 16

/-- The third check of R40: what gives PARAM_RANGE. DEDUCED, log 22. -/
def entryRangeBad (s : State) (n : Fin 128) (e : LaunchEntry) : Bool :=
  let island := e.island.toNat
  let action := e.action.toNat
  !actionOk island action || e.coex.toNat == 3 || !argOk island action e.arg.toNat || !fineOk island e.fine.toNat ||
  (decide (1 < e.count.toNat) && decide (e.period.toNat < 64)) ||
  (e.tx && e.lateOk) ||
  (!e.trig && (e.link != 0 || decide (now s + 2 ^ 31 < tickOf e))) ||
  (e.trig && (e.tickHi != 0 || decide (16777216 ≤ e.tickLo.toNat) || e.link.toNat == n.val ||
    !(match vgetN s.cel.entries e.link.toNat {} with
      | p => entryActive p)))

/-- The tables that R147 checks an Azure program against, with the launching entry's TX. -/
def azTables (s : State) (txOk : Bool) : AzureTables :=
  { pop := s.az.pop.toNat, txAllowed := uwbTxAllowed s, phy := fun n => vgetN s.az.phy n {}, txOk := txOk }

/-- PWR_MAX of a channel-table entry. -/
def pwrMaxOf (s : State) (n : Nat) : Nat := (vgetN s.tn.chan n {}).pwrMax.toNat

/-- The channel 9 alternate that the bundle names for a PHY entry (R156, R392). -/
def azAlt (s : State) (n : Nat) : Option Nat :=
  let a := byteAt (secOf s 5) (192 + n)
  if a < 8 then some a else none

/-- PHY entries that a program loads. -/
def progPhys (ops : List ProgOp) : List Nat := ops.filterMap fun o => match o with
  | .azPhy n => some n
  | _ => none

/-- A program that sends a POLL. -/
def progPolls (ops : List ProgOp) : Bool := ops.any fun o => match o with
  | .azTxFrame false _ _ => true
  | _ => false

/-- COEX of an Azure entry: 2 on channel 5 where the bundle enables pair 1, else 0 (R156). -/
def azCoexOk (s : State) (e : LaunchEntry) (n : Nat) : Bool :=
  e.coex.toNat == (if (vgetN s.az.phy n {}).chan = 0 ∧ (s.tn.coex[(1 : Fin 2)]).enabled = true then 2 else 0)

/-- PRIO of a ranging entry: 3 in a start path and in a re-plan after a denial (R196). -/
def azPrioOk (s : State) (e : LaunchEntry) : Bool :=
  match s.pres.run with
  | some r => (r.kind != .start && !r.rangeDenied) || e.prio == 3
  | none => true

/-- Whether a run ranges a token in Double (R24, R27). -/
def rangesDouble (s : State) (r : Run) (t : TokenRun) : Bool := r.double || (s.ctxs[t.ctx]).firstUse

/-- The RMARKERs of the frames that a run of a program sends, from its START, FINAL or POLL. -/
def sentFrames (t : List TraceOp) : List (Bool × Nat) :=
  (t.foldl (fun (a : Nat × List (Bool × Nat)) x => match x.op with
    | .waitTb o => (o + x.off, a.2)
    | .azTxFrame f _ lead => (a.1, a.2 ++ [(f, a.1 + lead)])
    | _ => a) (0, [])).2

/-- POLL 19,200 ticks after START and, in Double only, FINAL 15,360 ticks after the nominal RESP, which comes 15,360 ticks after
POLL (R139). DEDUCED, log 178. -/
def rangeFrames (s : State) (ops : List ProgOp) : Bool :=
  let single : List (Bool × Nat) := [(false, 19200)]
  let double : List (Bool × Nat) := [(false, 19200), (true, 49920)]
  match (unroll ops).map sentFrames, s.pres.run.bind fun r => (rangeNext r).map (rangesDouble s r) with
  | some l, some d => decide (l = if d then double else single)
  | some l, none => decide (l = single) || decide (l = double)
  | none, _ => false

/-- A START tick of a ranging program (R139): a token's second exchange starts 57,600 or 72,960 ticks after its first one; a
first one places its POLL 19,200 to 576,000 ticks after the nominal end of a Prove reply of the run.
DEDUCED, log 178. -/
def rangeWhen (s : State) (e : LaunchEntry) : Bool :=
  match s.pres.run with
  | none => true
  | some r =>
    let fits (x : Nat) : Bool := decide (x ≤ tickOf e) && decide (tickOf e + 19200 ≤ x + 576000)
    match r.rangeStart, rangeNext r with
    | some t0, some t => tickOf e == t0 + (if rangesDouble s r t then 72960 else 57600) && fits t.replyEnd
    | _, some t => fits t.replyEnd
    | _, none => r.chals.any fun c => fits c.replyEnd

/-- A MOVE to the STS key port that comes before an entry's START. -/
def keyComes (s : State) (e : LaunchEntry) : Bool :=
  s.cel.entries.toList.any fun m => entryActive m && m.island.toNat == 4 && m.action.toNat == 7 &&
    (vgetN s.cel.moves m.arg.toNat {}).dst.toNat == 5 && (m.trig || e.trig || decide (m.due ≤ tickOf e))

/-- An exchange runs under a key with an exchange unused, the token's own in its turn, moved before its START (R136, R156).
DEDUCED, log 178. -/
def keyPlanned (s : State) (e : LaunchEntry) : Bool :=
  keyComes s e || match s.pres.run.bind rangeNext with
    | some t => s.az.key.valid && s.az.key.used != 2 && stsOf s t.ctx
    | none => !(s.az.key.valid && s.az.key.used == 2)

/-- What the steward keeps to when it arms a ranging program: its COEX and PRIO, ports in service, the times of R139, a key of
its own with an exchange unused, and a repeat on the channel 9 alternate after a denial (R136, R139, R145, R156, R196).
DEDUCED, log 178. -/
def azPlanOk (s : State) (e : LaunchEntry) (ops : List ProgOp) : Bool :=
  !progPolls ops ||
  ((progPhys ops).all (azCoexOk s e) && azPrioOk s e && (progPorts ops).all (bitAt s.az.svc.toNat) &&
    rangeFrames s ops && (e.trig || rangeWhen s e) && keyPlanned s e &&
    match s.pres.run.bind (·.rangeAlt) with
    | some k => (progPhys ops).all (· == k)
    | none => true)

/-- What the steward keeps to when it arms a press window: the SNIFF entry at the press profile, with no other Tenné entry
due within two copy lengths (R194). DEDUCED, log 178. -/
def pressPlanOk (s : State) (ops : List ProgOp) : Bool :=
  !pressProgram ops ||
  (!(s.cel.entries.toList.any (tenneDue s)) && ops.all fun o => match o with
    | .tnSynth n => n == sniffEntry s
    | .tnRxOn p => p == pressProfile s
    | _ => true)

/-- The steward arms a coexistence entry at least 4,224 ticks before its TICK (R196). DEDUCED, log 178. -/
def coexLeadOk (s : State) (e : LaunchEntry) : Bool :=
  e.coex.toNat == 0 || e.trig || decide (now s + 4224 ≤ tickOf e)

/-- Whether the steward refuses to arm a START: a Tenné or Azure program fails R122 or R147 (the launching entry's TX
counts), or the entry is none that it plans. DEDUCED, log 21. -/
def startRefused (s : State) (e : LaunchEntry) : Bool :=
  let start := e.arg.toNat
  let ws (q : SeqId) := runWords q (progWords q) (wordsFrom (progMem s q) (progWords q) start)
  if e.action.toNat != 1 then false
  else if s.keys.svcLock then true
  else if !coexLeadOk s e then true
  else match engineOf e.island.toNat with
    | some .tenne => match ws .tenne with
      | some w => !tenneProgOk e.tx (pwrMaxOf s) start w || !((decodeAll .tenne w.length w).any (pressPlanOk s))
      | none => true
    | some .azure => match ws .azure with
      | some w => !azureProgOk (azTables s e.tx) start w || !((decodeAll .azure w.length w).any (azPlanOk s e))
      | none => true
    | _ => false

/-- CEL_CMD_RESULT.DONE: no operation is in progress (R61, R62). -/
def cmdDone (s : State) : Bool := decide (s.cel.cmdDoneAt ≤ now s)

/-- CEL_CMD_RESULT (R61). -/
def celCmdResult (s : State) : Nat :=
  (statusCode s.cel.cmdStatus).toNat + 65536 * s.cel.cmdEntry.toNat + 2147483648 * b2n (cmdDone s)

/-- An operation on CEL_CMD: ignored while another is in progress; DONE shows again a free number of ticks after the
write, at most `top`, whatever the engines still need to stop (R62). DESIGN CHOICE, log 171. -/
def celOp (top : Nat) (f : State → State) (s : State) : State :=
  if cmdDone s then
    let t := f s
    { t with freeCtr := t.freeCtr + 1, cel := { t.cel with cmdDoneAt := now s + Config.freeNat t.freeCtr % (top + 1) } }
  else s

/-- CEL_CMD_RESULT's outcome after an operation (R61, R62). -/
def cmdResult (s : State) (n : Fin 128) (st : Status) : State :=
  { s with cel := { s.cel with cmdStatus := st, cmdEntry := BitVec.ofNat 7 n.val } }

/-- An ARM operation refused: N_REFUSED counts it (R61). -/
def armRefused (s : State) (n : Fin 128) (st : Status) : State :=
  let s1 := cmdResult s n st
  { s1 with cel := { s1.cel with nRefused := satInc s1.cel.nRefused } }

/-- ARM (R40, R122, R147): the checks in order, stopping at the first that decides; without a bundle the steward arms no launch
(R441), in the XO fallback no Azure entry (R410). DEDUCED, log 21. -/
def armEntry (n : Fin 128) (s : State) : State :=
  let e := entryOf s n
  if entryActive e then armRefused s n .busy
  else if e.count = 0 then cmdResult (modEntry s n fun x => { x with state := .disabled }) n .ok
  else if entryRangeBad s n e then armRefused (modEntry s n fun x => { x with state := .idle }) n .paramRange
  else if s.boot.noBundle || (s.clk.fallback && e.island.toNat == 1) || startRefused s e then s
  else if !e.trig && decide (tickOf e < now s + tLead) && !e.lateOk then
    armRefused (modEntry s n fun x => { x with state := .idle }) n .launchLate
  else
    cmdResult (modEntry s n fun x =>
      { x with state := .armed, doneCnt := 0, due := tickOf x, waiting := x.trig, late := false, cancelAfter := false
               atOnce := !x.trig && decide (tickOf x < now s + tLead) }) n .ok

/-- ARM of CEL_CMD (R40, R62). -/
def doArm (n : Fin 128) (s : State) : State := celOp 8 (armEntry n) s

/-! ### The launch log (R61, R63) -/

/-- A record appended, with an interrupt to the steward; a full log overwrites the oldest unread record. -/
def logAdd (s : State) (n : Fin 128) (tick : Nat) (st : W16) : State :=
  let r : LogRecord := { tick := BitVec.ofNat 32 tick, status := st, entry := n, island := (entryOf s n).island }
  let c : Celeste := { s.cel with logIrq := true }
  if c.log.length < 32 then { s with cel := { c with log := c.log ++ [r] } }
  else { s with cel := { c with log := c.log.drop 1 ++ [r], logLost := satTo 255 c.logLost } }

/-- CEL_LOG_NEXT: the oldest unread record is discarded (R61); the steward has served its interrupt (R63).
DESIGN CHOICE, log 171. -/
def doCelLogNext (s : State) : State := { s with cel := { s.cel with log := s.cel.log.drop 1, logIrq := false } }

/-- CEL_TB_LO_READ: timebase [31:0]; [63:32] is latched into CEL_TB_HI (R61). DESIGN CHOICE, log 168. -/
def doCelTbLoRead (s : State) : State :=
  { s with
    lastRead := leBytes 4 (now s % 4294967296)
    cel := { s.cel with tbHiLatch := BitVec.ofNat 32 (now s / 4294967296) } }

/-- CEL_STATUS (R61). -/
def celStatus (s : State) : Nat :=
  b2n s.cel.tbRun + 2 * (match s.cel.tbSrc with
    | .xo => 0
    | .rc16 => 1
    | .held => 2) + 8 * b2n s.cel.entryWe + 16 * b2n (!s.cel.log.isEmpty) + 32 * s.cel.logLost

/-- LOG_LOST_READ: the steward reads CEL_STATUS, which clears LOG_LOST (R61). -/
def doLogLostRead (s : State) : State :=
  { s with lastRead := leBytes 4 (celStatus s), cel := { s.cel with logLost := 0 } }

/-! ### Coexistence requests (R195, R196) -/

/-- An entry that holds a coexistence request: posted or firing. -/
def coexHolds (p : Nat) (e : LaunchEntry) : Bool :=
  (e.state = .posted || e.state = .running) && e.coex.toNat == p + 1

/-- Whether a DIAG_UHF_TEST is running: it requests pair 0 with PRI. -/
def uhfTesting (s : State) : Bool :=
  s.cmds.longs.any fun l => match l.work with
    | .uhfTest _ _ _ => true
    | _ => false

/-- REQ and PRI of a pair as the field side raises them now. -/
def coexWant (s : State) (p : Fin 2) : Bool × Bool :=
  let es := s.cel.entries.toList.filter (coexHolds p.val)
  let utx := p.val == 0 && s.tn.utx.coex = 1 && s.tn.utx.phase != .idle
  let test := p.val == 0 && uhfTesting s
  if (s.tn.coex[p]).enabled then (!es.isEmpty || utx || test, es.any (fun e => e.prio = 3) || (utx && s.tn.utx.pri) || test)
  else (false, false)

/-- The payload of the COEX frame to the host die (R340). -/
def coexPayload (s : State) : BitVec 17 :=
  BitVec.ofNat 17 (b2n (s.tn.coex[0]).req + 2 * b2n (s.tn.coex[1]).req + 4 * b2n (s.tn.coex[0]).pri + 8 * b2n (s.tn.coex[1]).pri)

/-- Requests raised or released; a change goes to the host die. -/
def coexUpdate (s : State) : State :=
  let c := Vector.ofFn fun p : Fin 2 => { s.tn.coex[p] with req := (coexWant s p).1, pri := (coexWant s p).2 }
  if c = s.tn.coex then s
  else
    let s1 := { s with tn := { s.tn with coex := c } }
    sendShort s1 true 6 (coexPayload s1)

/-- Whether the field side takes a pair as granted: a disabled pair always; with the link down COEX_FAILOPEN decides, and
TRAINING out of DOWN counts as down, while a retrain keeps the grant last heard (R197, R199).
DESIGN CHOICE, log 182. -/
def coexGranted (s : State) (p : Fin 2) : Bool :=
  let c := s.tn.coex[p]
  if !c.enabled then true
  else if s.bar.link = .up ∨ s.bar.retrain = true then c.gnt
  else c.failOpen

/-! ### Clock requests (R42, R406) -/

/-- Bits of CLK_GATE that a node needs: the node and its parents, by CLK_SEL.REF (R406). -/
def gatePath (s : State) (node : Nat) : List Nat :=
  let ref := if s.clk.refRc16 then 1 else 0
  match node with
  | 0 => [0] | 1 => [1]
  | 2 => [2, ref]
  | 3 => [3, 2, ref] | 4 => [4, 2, ref] | 5 => [5, 2, ref]
  | 6 => [6, ref]
  | 7 => [7, 6, ref] | 11 => [11, 6, ref]
  | 8 => [8, 0]
  | 9 => [9, 8, 0]
  | _ => [10, ref]

/-- A node enabled, its parents first. -/
def gateOn (s : State) (node : Nat) : State :=
  { s with clk := { s.clk with gate := s.clk.gate ||| BitVec.ofNat 12 ((gatePath s node).foldl (fun m b => m ||| 2 ^ b) 0) } }

/-- CLK_GATE bit and ready bit of a launch island. -/
def islandNode (island : Nat) : Nat := [7, 9, 11, 4, 3].getD island 3

def islandReadyBit (island : Nat) : Nat := [3, 4, 5, 2, 1].getD island 1

/-- Whether an island has been granted ready (R401) and its clock is enabled. -/
def islandReady (s : State) (island : Nat) : Bool :=
  bitAt s.clk.ready.toNat (islandReadyBit island) && bitAt s.clk.gate.toNat (islandNode island)

/-! ### Posting (R41, R42, R48, R196, R200) -/

/-- Compare point of a firing: four ticks before its tick on a coherent island (R35). -/
def comparePoint (e : LaunchEntry) : Nat := if e.island.toNat < 3 then e.due - tPre else e.due

/-- Whether an armed entry waits for no parent. -/
def postable (e : LaunchEntry) : Bool := e.state = .armed && !e.waiting

/-- Whether another postable entry of the island is due earlier (R41). -/
def earlierDue (s : State) (n : Fin 128) (e : LaunchEntry) : Bool :=
  (List.finRange 128).any fun m =>
    let x := entryOf s m
    postable x && x.island = e.island && (decide (x.due < e.due) || (x.due == e.due && decide (m.val < n.val)))

/-- A VCO calibration is in progress (R189, R201). -/
def vcalRuns (s : State) : Bool := s.tn.vcal.any fun x => decide (now s < x.1)

/-- A calibration that has reached its end has filled every entry of the cache (R189). -/
def vcalSettle (s : State) : State :=
  match s.tn.vcal with
  | some (t, temp) =>
    if t ≤ now s then
      markDirty { s with tn := { s.tn with vcal := none, refill := false, cache := 0xFF, cacheTemp := some temp } } calBand
    else s
  | none => s

/-- Background work on an island ends for a posting, and an untimed transmit returns to waiting (R48, R190, R200). -/
def yieldFor (s : State) (island : Nat) : State :=
  match island with
  | 1 =>
    let s0 := { s with az := { s.az with calUntil := Nat.min s.az.calUntil (now s) } }
    if s0.az.loop.isSome then
      let s1 := cutLoop s0
      if seqRuns s1 .azure then seqResume s1 .azure else s1
    else s0
  | 2 =>
    let s0 := vcalSettle s
    let s1 := { s0 with tn := { s0.tn with vcal := none } }
    if s1.tn.utx.phase = .synth then
      { s1 with tn := { s1.tn with utx := { s1.tn.utx with phase := .waiting }
                                   synth := { s1.tn.synth with on := false, locked := false } } }
    else s1
  | _ => s

/-- LAUNCH_POST (R41): once its due tick is within t_POST, and a port place is free, an armed entry is posted. -/
def doLaunchPost (n : Fin 128) (s0 : State) : State :=
  if !postable (entryOf s0 n) then s0
  else
    let s := elapseTo s0 ((entryOf s0 n).due - tPost)
    let e := entryOf s n
    let port := vgetN s.cel.ports e.island.toNat []
    if decide (5 ≤ e.island.toNat) || decide (4 ≤ port.length) || earlierDue s n e || decide (now s + tPost < e.due) then s
    else
      let s1 := modEntry s n fun x =>
        { x with state := .posted, late := x.atOnce || decide (comparePoint x < now s), atOnce := false }
      let s2 := { s1 with cel := { s1.cel with ports := vmodN s1.cel.ports e.island.toNat (· ++ [n]) } }
      coexUpdate (yieldFor (gateOn s2 (islandNode e.island.toNat)) e.island.toNat)

/-! ### Moves (R54 to R57) -/

/-- Size of a buffer; none for an undefined identifier (R55). -/
def bufSize (id : Nat) : Option Nat :=
  match id with
  | 1 => some 64 | 2 => some 64 | 3 => some 32 | 4 => some 64 | 5 => some 32 | 6 => some 256 | 7 => some 256 | 8 => some 4096
  | _ => none

/-- Buffers that a MOVE may read, and those it may write. -/
def bufSource (id : Nat) : Bool := id == 1 || id == 4 || id == 7 || id == 8

def bufDest (id : Nat) : Bool := id == 2 || id == 3 || id == 5 || id == 6 || id == 8

/-- Whether a Gules port is one end of a MOVE: OFFSET[7:0] is then its job tag (R54). -/
def usesGules (m : MoveDesc) : Bool := m.src.toNat == 7 || m.dst.toNat == 6

/-- Whether the output of a job tag is key-class (R56, R292). -/
def tagKeyClass (s : State) (tag : Nat) : Bool :=
  match vgetN s.gq.jobs tag none with
  | some j => j.keyClass
  | none => false

/-- Whether the output of a job tag was zeroed by the invalidation of its slot before a MOVE took it (R252). -/
def tagOrphaned (s : State) (tag : Nat) : Bool :=
  match vgetN s.gq.jobs tag none with
  | some j => j.orphaned && j.phase = .done
  | none => false

/-- The conditions of R56 that give PARAM_RANGE; a Gules tag that does not exist counts as beyond the buffer, and so
does a buffer identifier outside R55. DEDUCED, log 24. DESIGN CHOICE, log 172. -/
def moveRangeBad (m : MoveDesc) : Bool :=
  match bufSize m.src.toNat, bufSize m.dst.toNat with
  | some a, some b =>
    !bufSource m.src.toNat || !bufDest m.dst.toNat || decide (a < m.len.toNat) || decide (b < m.len.toNat) ||
    ((m.src.toNat == 8 || m.dst.toNat == 8) && decide (4096 < m.offset.toNat + m.len.toNat)) ||
    (m.dst.toNat == 3 && decide (32 < m.offset.toNat + m.len.toNat)) ||
    (usesGules m && decide (48 ≤ m.offset.toNat))
  | _, _ => true

/-- The bytes that a MOVE reads. -/
def moveData (s : State) (m : MoveDesc) : Bytes :=
  let n := m.len.toNat
  match m.src.toNat with
  | 1 => memReadBytes s.tn.rxbuf 0 n
  | 4 => memReadBytes s.az.tsbuf 0 n
  | 7 => memReadBytes s.gq.outBuf (256 * m.offset.toNat) n
  | _ => memReadBytes s.cel.win m.offset.toNat n

/-- The bytes of a MOVE stored at its destination; a MOVE to the STS key port loads the key and sets VALID (R137). -/
def moveStore (s : State) (m : MoveDesc) (d : Bytes) : State :=
  match m.dst.toNat with
  | 2 => { s with tn := { s.tn with txbuf := memWriteBytes s.tn.txbuf 0 d } }
  | 3 => { s with vert := { s.vert with buf := memWriteBytes s.vert.buf m.offset.toNat d } }
  | 5 =>
    let slot := match vgetN s.gq.jobs m.offset.toNat none with
      | some j => if h : j.w.slot.toNat < 224 then some ⟨j.w.slot.toNat, h⟩ else none
      | none => none
    { s with az := { s.az with key := { port := memWriteBytes [] 0 d, valid := true, loadedAt := now s, parent := slot } } }
  | 6 => { s with gq := { s.gq with inBuf := memWriteBytes s.gq.inBuf (256 * m.offset.toNat) d } }
  | _ => { s with cel := { s.cel with win := memWriteBytes s.cel.win m.offset.toNat d } }

/-- An output that a MOVE takes from Gules is delivered (R252). -/
def moveTakes (s : State) (m : MoveDesc) : State :=
  if m.src.toNat == 7 then
    { s with gq := { s.gq with jobs := vmodN s.gq.jobs m.offset.toNat fun j => j.map fun x => { x with delivered := true } } }
  else s

/-- A MOVE (R54 to R57): its status, and the state with the data landed. DEDUCED, log 24. -/
def runMove (s : State) (m : MoveDesc) : State × Status :=
  if m.len = 0 then (s, .ok)
  else if moveRangeBad m then (s, .paramRange)
  else
    let key := m.src.toNat == 7 && tagKeyClass s m.offset.toNat
    if m.src.toNat == 7 && tagOrphaned s m.offset.toNat then (s, .keyOrphaned)
    else if (key && m.dst.toNat != 5) || (m.dst.toNat == 5 && !key) then (s, .policyDenied)
    else if (m.dst.toNat == 5 && seqRuns s .azure) || (m.dst.toNat == 3 && seqRuns s .vert) then (s, .busy)
    else (moveTakes (moveStore s m (moveData s m)) m, .ok)

/-! ### Firing (R43, R44, R47) -/

/-- An engine is busy with an earlier START. -/
def islandBusy (s : State) (island : Nat) : Bool :=
  match engineOf island with
  | some e => seqRuns s e
  | none => false

/-- A late firing that may act later still waits: its island is not ready, or a START meets an earlier START. -/
def firingWaits (s : State) (e : LaunchEntry) : Bool :=
  e.late && e.lateOk && (!islandReady s e.island.toNat || (e.action.toNat == 1 && islandBusy s e.island.toNat) ||
    (e.island.toNat == 2 && s.tn.utx.phase = .sending))

/-- The tick from which a posted entry may fire: its compare point, or at once where it was posted late or armed to act
as soon as it is posted (R40, R43). -/
def fireAt (e : LaunchEntry) : Nat := if e.late then 0 else comparePoint e

/-- Order of firings in a port: the tick from which they may fire, higher PRIO, earlier TICK + FINE, lower index (R40,
R43, R47). -/
def firesBefore (a b : Fin 128 × LaunchEntry) : Bool :=
  let ka := fireAt a.2
  let kb := fireAt b.2
  if ka ≠ kb then decide (ka < kb)
  else if a.2.prio ≠ b.2.prio then decide (b.2.prio.toNat < a.2.prio.toNat)
  else if (a.2.due, a.2.fine) ≠ (b.2.due, b.2.fine) then
    decide (a.2.due < b.2.due) || (a.2.due == b.2.due && decide (a.2.fine.toNat < b.2.fine.toNat))
  else decide (a.1.val < b.1.val)

/-- The posted entry that fires next on an island. -/
def nextFiring (s : State) (island : Nat) : Option (Fin 128) :=
  (((vgetN s.cel.ports island []).map fun n => (n, entryOf s n)).filter fun p => !firingWaits s p.2).foldl
    (fun acc p => match acc with
      | none => some p
      | some q => if firesBefore p q then some p else some q) none |>.map (·.1)

/-- The entry leaves its port and its firing runs. -/
def unport (s : State) (n : Fin 128) (st : EntryState) : State :=
  let i := (entryOf s n).island.toNat
  modEntry { s with cel := { s.cel with ports := vmodN s.cel.ports i fun l => l.filter (· ≠ n) } } n fun x => { x with state := st }

/-- A firing of a ranging program: the START of a token's first exchange is kept, from which that of its second counts (R139). -/
def noteRange (s : State) (e : LaunchEntry) : State :=
  if e.island = 1 ∧ e.action = 1 ∧ (programAt s .azure e.arg.toNat).any progPolls then
    modRun s fun r => { r with rangeStart := r.rangeStart <|> some e.due }
  else s

/-- The actual tick of a firing or failure is now (R43, R61). -/
def firedNow (s : State) (n : Fin 128) : State :=
  noteRange (modEntry s n fun x => { x with firedAt := now s }) (entryOf s n)

/-- The entry leaves its port and its firing acts. -/
def beginFiring (s : State) (n : Fin 128) : State := firedNow (unport s n .running) n

/-- A firing that ends without acting. -/
def failFiring (s : State) (n : Fin 128) (st : Status) : State := complete (firedNow (unport s n .running) n) n st

/-- A channel's duty account counts as full (R70). -/
def dutyFull (v : Vert) (c : Nat) : Bool :=
  if h : c < 12 then
    decide (dutyCap ≤ (v.ch[c]).duty) || (v.dutyHold && decide (dutyLow ≤ (v.ch[c]).duty))
  else false

/-- The loaded program drives a channel with a full account. -/
def startDutyFull (s : State) (start : Nat) : Bool :=
  match programAt s .vert start with
  | some ops => (progDrives ops).any (dutyFull s.vert)
  | none => false

/-- Firings that fail with BUSY: Vert's under OVERTEMP, a full duty account or F_VLF below V_LFUV, and TX firings of
Vert and Tenné while F_VBAT lies outside its range (R70, R71, R424, R476). -/
def firingBusy (s : State) (e : LaunchEntry) : Bool :=
  let start := e.action.toNat == 1
  let vert := e.island.toNat == 0
  (vert && start && (s.vert.overtemp || s.vert.vlfUv || startDutyFull s e.arg.toNat)) ||
  (start && e.tx && (vert || e.island.toNat == 2) && (s.pwr.vbatLow || s.pwr.vbatOvp))

/-- Whether the island's synthesiser is ready for a TX firing: locked, or idle; Tenné also with neither a VCO
calibration nor an untimed transmit in progress (R44, R190); Azure's idle synthesiser counts as ready in the same way.
DESIGN CHOICE, log 172. -/
def synthReady (s : State) (island : Nat) : Bool :=
  match island with
  | 1 => s.az.locked || !s.az.synthOn
  | 2 => s.tn.synth.locked || (!s.tn.synth.on && !vcalRuns s && (s.tn.utx.phase == .idle || s.tn.utx.phase == .waiting))
  | _ => true

/-- The coexistence grant that a firing asks for. DEDUCED, log 25. -/
def firingGranted (s : State) (e : LaunchEntry) : Bool :=
  match e.coex.toNat with
  | 1 => coexGranted s 0
  | 2 => coexGranted s 1
  | _ => true

/-- FINE of a firing: none for one that acts late, and none in the start-up fallback, where fine re-timing is
unavailable (R33, R36). -/
def fineOf (s : State) (x : LaunchEntry) (late : Bool) : Nat :=
  if late || decide (s.cel.tbSrc = .rc16) then 0 else x.fine.toNat

/-- A START takes its sequencer; slots of an earlier program hold no channel any more, and Vert's NCO reference has
phase 0 at T_L with FINE (R68). DEDUCED, log 20. -/
def startProgram (s : State) (n : Fin 128) (e : SeqId) (late : Bool) : State :=
  let x := entryOf s n
  let fine := fineOf s x late
  let s1 := setSeq (beginFiring s n) e { entry := some n, pc := x.arg.toNat, tL := now s, fine := fine }
  match e with
  | .vert => { s1 with vert := { slotsCut s1.vert (fun _ => true) with
      slot := vmap (slotsCut s1.vert (fun _ => true)).slot fun l => { l with ch := none, setAt := 0 }
      nco := 32 * now s + fine } }
  | _ => s1

/-- The action of a firing (R38). A START that a STOP firing stops completes with OK; a RELEASE whose tag holds no held
job fails with WRONG_STATE (R294). The status OK of the stopped START: DESIGN CHOICE, log 172. -/
def actFiring (s : State) (n : Fin 128) (late : Bool) : State :=
  let e := entryOf s n
  match engineOf e.island.toNat, e.action.toNat with
  | some q, 1 => startProgram s n q late
  | some q, _ => complete (stopProgram (beginFiring s n) q .ok) n .ok
  | none, 4 =>
    let tag := e.arg.toNat
    match vgetN s.gq.jobs tag none with
    | some j =>
      if j.phase = .held then
        let s1 := beginFiring s n
        { s1 with gq := { s1.gq with jobs := vmodN s1.gq.jobs tag fun _ => some { j with phase := .ready, entry := some n } } }
      else failFiring s n .wrongState
    | none => failFiring s n .wrongState
  | none, 7 =>
    let (s1, st) := runMove (beginFiring s n) (vgetN s.cel.moves e.arg.toNat {})
    complete s1 n st
  | none, _ =>
    let s1 := beginFiring s n
    let ev : Fin 64 := ⟨e.arg.toNat % 64, Nat.mod_lt _ (by decide)⟩
    complete { s1 with pres := { s1.pres with schedEvents := s1.pres.schedEvents ++ [ev] } } n .ok

/-- A firing is late: posted after its compare point, its island not ready, or busy with an earlier START or an untimed
frame (R42, R43, R200). -/
def firingLate (s : State) (e : LaunchEntry) : Bool :=
  e.late || !islandReady s e.island.toNat || (e.action.toNat == 1 && islandBusy s e.island.toNat) ||
    (e.island.toNat == 2 && s.tn.utx.phase = .sending)

/-- A firing whose time has come acts later all the same: it is late, may act late, and its island cannot take it yet. -/
def firingHeld (s : State) (e : LaunchEntry) : Bool := firingLate s e && firingWaits s { e with late := true }

/-- What happens to a firing whose compare point is reached: late, refused by a gate of R44, or acting at its tick.
DEDUCED, log 25. -/
def decideFiring (s : State) (n : Fin 128) : State :=
  let e := entryOf s n
  let island := e.island.toNat
  let late := firingLate s e
  if late && !e.lateOk then failFiring s n .launchLate
  else if firingHeld s e then modEntry s n fun x => { x with late := true }
  else if firingBusy s e then failFiring s n .busy
  else if e.tx && !synthReady s island then failFiring s n .launchLate
  else if !firingGranted s e then failFiring s n .coexDenied
  else actFiring (if late then s else elapseTo s e.due) n late

/-- The number of a launch port (R41). -/
def islandIx : Island → Nat
  | .vert => 0
  | .azure => 1
  | .tenne => 2
  | .gules => 3
  | .purpure => 4

/-- LAUNCH_FIRE (R43, R44, R47): the posted entry of an island that is next in order reaches its compare point. -/
def doLaunchFire (island : Island) (s : State) : State :=
  match nextFiring s (islandIx island) with
  | none => s
  | some n =>
    let s1 := elapseTo s (fireAt (entryOf s n))
    if fireAt (entryOf s n) ≤ now s1 then decideFiring s1 n else s1

/-! ### Completion and cancellation (R45, R46, R49) -/

/-- Entries that wait for a completion of `n`. -/
def waitingOn (s : State) (n : Fin 128) : List (Fin 128) :=
  (List.finRange 128).filter fun m =>
    let x := entryOf s m
    x.state = .armed && x.waiting && x.link.toNat == n.val

/-- Triggered entries are cancelled with their parent, and theirs with them; each log record carries the status
(R45). -/
def cancelChildren : Nat → State → Fin 128 → W16 → State
  | 0, s, _, _ => s
  | k + 1, s, n, st =>
    (waitingOn s n).foldl (fun t m =>
      cancelChildren k (logAdd (modEntry t m fun x => { x with state := .cancelled, waiting := false }) m (now t) st) m st) s

/-- Children of an entry that was cancelled: the specification names no status for their records (R45); it is one of
R13's, left open. DESIGN CHOICE, log 23. -/
def cancelOrphans (s : State) (n : Fin 128) : State :=
  if (waitingOn s n).isEmpty then s
  else cancelChildren 128 { s with freeCtr := s.freeCtr + 1 } n (statusCode (freeStatus s.freeCtr))

/-- An entry that has not fired becomes CANCELLED; a posted one is retracted from its port. -/
def retract (s : State) (n : Fin 128) : State := coexUpdate (unport s n .cancelled)

/-- Whether the port fires a posted entry in this cycle: it is next in order, its compare point has come, and it does not
wait for its island (R49). -/
def firesNow (s : State) (n : Fin 128) : Bool :=
  decide (nextFiring s (entryOf s n).island.toNat = some n) && decide (fireAt (entryOf s n) ≤ now s) &&
    !firingHeld s (entryOf s n)

/-- CANCEL of R49: the state and the result. -/
def cancelEntry (s : State) (n : Fin 128) : State × Status :=
  match (entryOf s n).state with
  | .armed => (cancelOrphans (retract s n) n, .ok)
  | .posted => if firesNow s n then (decideFiring s n, .wrongState) else (cancelOrphans (retract s n) n, .ok)
  | .running => (modEntry s n fun x => { x with cancelAfter := true }, .ok)
  | _ => (s, .wrongState)

/-- The engine on which an entry's program runs. -/
def runsOn (s : State) (n : Fin 128) : Option SeqId :=
  [SeqId.vert, SeqId.azure, SeqId.tenne].find? fun e => decide ((seqOf s e).entry = some n)

/-- CANCEL_STOP of R49: as CANCEL, and a running program is stopped, its firing logged with `st`. -/
def cancelStopEntry (s : State) (n : Fin 128) (st : Status) : State × Status :=
  let c := cancelEntry s n
  match runsOn c.1 n with
  | some q => (stopProgram c.1 q st, c.2)
  | none => c

/-- One entry of CANCEL_ALL that waits to fire: it becomes CANCELLED, and where R50 has the operation logged its record
carries `st`; one that its port fires in this cycle runs (R49), and its program is stopped with the other running ones.
DEDUCED, log 173. -/
def cancelIdle (st : Status) (log : Bool) (s : State) (n : Fin 128) : State :=
  let waits (s : State) : State :=
    let t := retract s n
    if log then logAdd t n (now t) (statusCode st) else t
  match (entryOf s n).state with
  | .armed => waits s
  | .posted => if firesNow s n then decideFiring s n else waits s
  | _ => s

/-- One running entry of CANCEL_ALL: its program is stopped with `st`; a firing without a program runs to completion,
its record with `st` written now where R50 has the operation logged. DEDUCED, log 173. -/
def cancelRunning (st : Status) (log : Bool) (s : State) (n : Fin 128) : State :=
  if (entryOf s n).state = .running then
    let t := modEntry s n fun x => { x with cancelAfter := true }
    match runsOn t n with
    | some q => stopProgram t q st
    | none => if log then logAdd t n (now t) (statusCode st) else t
  else s

/-- CANCEL_ALL: CANCEL_STOP on every entry in one operation; with `log`, R50 logs every affected entry with `st`.
DEDUCED, log 173. -/
def cancelAll (s : State) (st : Status) (log : Bool) : State :=
  (List.finRange 128).foldl (cancelRunning st log) ((List.finRange 128).foldl (cancelIdle st log) s)

/-- CANCEL (R49). -/
def doCancel (n : Fin 128) (s : State) : State :=
  celOp 8 (fun s => cmdResult (cancelEntry s n).1 n (cancelEntry s n).2) s

/-- CANCEL_STOP (R49, R477). -/
def doCancelStop (n : Fin 128) (s : State) : State :=
  celOp 8 (fun s => cmdResult (cancelStopEntry s n .launchLate).1 n (cancelStopEntry s n .launchLate).2) s

/-- CANCEL_ALL (R49, R477). DESIGN CHOICE, log 23. -/
def doCancelAll (s : State) : State := celOp 64 (fun s => cmdResult (cancelAll s .launchLate false) 0 .ok) s

/-- A write of CEL_CMD (R61): OP 1 ARM, 2 CANCEL, 3 CANCEL_STOP, or CANCEL_ALL with ALL; ALL must be 0 with any other OP,
and OP 0 is no operation. DESIGN CHOICE, log 171. -/
def celCmdWrite (v : W32) (s : State) : State :=
  let n : Fin 128 := ⟨bitsOf v 6 0 % 128, Nat.mod_lt _ (by decide)⟩
  match bitsOf v 9 8, bitAt v.toNat 10 with
  | 1, false => doArm n s
  | 2, false => doCancel n s
  | 3, false => doCancelStop n s
  | 3, true => doCancelAll s
  | _, _ => s

/-- STATE and counters after a firing's completion (R46). DEDUCED, log 43. -/
def finishFiring (s : State) (c : Completion) : State :=
  let e := entryOf s c.entry
  let done := e.doneCnt + 1
  let st : EntryState :=
    if e.cancelAfter then .cancelled
    else if done < e.count.toNat then .armed
    else if c.status = statusCode .ok then .done
    else .failed
  let s1 := modEntry s c.entry fun x =>
    { x with doneCnt := done, state := st, due := x.due + x.period.toNat, waiting := x.trig && decide (st = .armed)
             late := false, cancelAfter := false }
  let s2 := if c.status = statusCode .launchLate then anomSet s1 7 else if c.status = statusCode .coexDenied then anomSet s1 8 else s1
  let k := s1.cel
  let denied0 := decide (c.status = statusCode .coexDenied) && e.coex.toNat == 1
  { s2 with
    tn := { s1.tn with nCoex0 := if denied0 then satInc s1.tn.nCoex0 else s1.tn.nCoex0 }
    cel := { k with
      nFired := if c.status = statusCode .ok then satInc k.nFired else k.nFired
      nLate := if c.status = statusCode .launchLate then satInc k.nLate else k.nLate
      nCoex := if c.status = statusCode .coexDenied then satInc k.nCoex else k.nCoex } }

/-- Children of a completed firing: on OK each is due at the completion plus its delay; otherwise each is cancelled. -/
def triggerChildren (s : State) (c : Completion) (cancelled : Bool) : State :=
  if cancelled then cancelOrphans s c.entry
  else if c.status = statusCode .ok then
    (waitingOn s c.entry).foldl (fun t m => modEntry t m fun x => { x with waiting := false, due := c.tick + delayOf x }) s
  else cancelChildren 128 s c.entry c.status

/-- A frame that did not reach the token: its reply window and what depends on it are cancelled (R91), and the
exchange is planned again (R26, R198). DEDUCED, log 45. -/
def frameLost (s : State) (c : Completion) : State :=
  if c.status = statusCode .antennaFault ∨ c.status = statusCode .busy ∨ c.status = statusCode .launchLate then
    match s.pres.run with
    | some r =>
      replanFailed ((r.plans.filter fun p => p.1 = c.entry).foldl (fun t p =>
        if entryActive (entryOf t p.2) then (cancelStopEntry t p.2 .launchLate).1 else t) s) c.entry false
    | none => s
  else if c.status = statusCode .coexDenied then
    let e := entryOf s c.entry
    let alt := if e.island.toNat = 1 then (programAt s .azure e.arg.toNat).bind fun ops => (progPhys ops).head?.bind (azAlt s) else none
    replanFailed (modRun s fun r => { r with
      rangeAlt := alt <|> r.rangeAlt, rangeDenied := r.rangeDenied || decide (e.island.toNat = 1) }) c.entry true
  else s

/-- LAUNCH_COMPLETE (R45, R46): the oldest completion on its way reaches Celeste. -/
def doLaunchComplete (s : State) : State :=
  match s.cel.completions with
  | [] => s
  | c :: cs =>
    let cancelled := (entryOf s c.entry).cancelAfter
    let s1 := finishFiring { s with cel := { s.cel with completions := cs } } c
    let s2 := logAdd (countFiring s1 c.entry c.status) c.entry c.act c.status
    frameLost (coexUpdate (triggerChildren s2 c cancelled)) c

/-! ### Snapshot banks (R59 to R61, R64) -/

/-- A snapshot bank: H is the host's, S the steward's. -/
def snapOf (s : State) (bankS : Bool) : SnapBank := if bankS then s.cel.snapS else s.cel.snapH

def setSnap (s : State) (bankS : Bool) (b : SnapBank) : State :=
  { s with cel := if bankS then { s.cel with snapS := b } else { s.cel with snapH := b } }

/-- The counters of a group in register order (R61, R93, R158, R202, R229, R293, R334, R450). -/
def groupCounters (s : State) (g : Nat) : List Nat :=
  match g with
  | 0 => [s.cel.nFired, s.cel.nLate, s.cel.nRefused, s.cel.nCoex]
  | 1 => (s.vert.ch.toList.map fun c => c.bursts) ++ [s.vert.nProgs, s.vert.nFaults, s.vert.nDuty, s.vert.nRetune]
  | 2 => [s.az.nXchg, s.az.nValid, s.az.nStsFail, s.az.nLost, s.az.nMacFail, s.az.nOrphan, s.az.nPortFault, s.az.nLoopback]
  | 3 => [s.tn.nDecoded, s.tn.nCollided, s.tn.nEmpty, s.tn.nSniffHit, s.tn.nSniffFalse, s.tn.nUtxSent, s.tn.nUtxAbandon,
      s.tn.nCoex0, s.hf.nDetect, s.hf.nFalse, s.hf.nAccept, s.hf.nFail, s.tag.cSession, s.tag.cAuthOk, s.tag.cAuthFail, s.tag.cBusy]
  | 4 => [s.gq.nJobs, s.gq.nPaired, s.gq.nAuthFail, s.gq.nOrphan, s.gq.nMismatch, s.gq.nFull, s.gq.nTrng, s.gq.nNblock]
  | 5 => [s.orr.nCommits, s.orr.nErases, s.orr.nEccCe, s.orr.nEccUe, s.orr.nTwins, s.orr.nLedger, s.orr.nLwWrites, s.orr.nAsh]
  | _ =>
    let p := s.bg.pu
    [p.restart, p.noise, p.proveFail, p.pressRej, p.relay, p.wMismatch, p.noFix, p.dropped, p.touch, p.stuck, p.vDiscard,
      p.grants, p.suspectFi, p.bgOverrun, p.scrub,
      Nat.min 0xFFFFFFFF (p.chalkTicks / ticksPerSec)]

/-- SNAP_TRIGGER (R59, R64): T_S is set 16 ticks ahead; ignored while the bank is busy. DEDUCED, log 26. -/
def doSnapTrigger (bankS : Bool) (groups : BitVec 7) (s : State) : State :=
  let b := snapOf s bankS
  if b.busy || groups = 0 then s
  else setSnap s bankS { b with busy := true, pendTs := now s + tSnap, pend := groups }

/-- SNAPSHOT_CAPTURE (R59): an island captures its group at T_S, group 0 with the timebase at T_S; the last one ends the
capture, whose T_S then shows (R61). DEDUCED, log 26. -/
def doSnapshotCapture (bankS : Bool) (group : Fin 7) (s0 : State) : State :=
  if !(snapOf s0 bankS).busy || !bitAt (snapOf s0 bankS).pend.toNat group.val then s0
  else
    let s := elapseTo s0 (snapOf s0 bankS).pendTs
    let b := snapOf s bankS
    let pend := b.pend &&& ~~~(BitVec.ofNat 7 (2 ^ group.val))
    setSnap s bankS { b with
      cap := vset b.cap group (groupCounters s group.val)
      tb := if group.val = 0 then b.pendTs else b.tb
      ts := if pend = 0 then b.pendTs else b.ts
      pend := pend
      busy := decide (pend ≠ 0)
      seq := if pend = 0 then b.seq + 1 else b.seq }

/-! ### The commands of this file -/

/-- ARM (R40). -/
def execArm (n : Fin 128) (s : State) : Host.Outcome State Fault Refusal :=
  done s (doArm n s)

/-- CANCEL (R49). -/
def execCancel (n : Fin 128) (s : State) : Host.Outcome State Fault Refusal :=
  done s (doCancel n s)

/-- CANCEL_STOP (R49). -/
def execCancelStop (n : Fin 128) (s : State) : Host.Outcome State Fault Refusal :=
  done s (doCancelStop n s)

/-- CANCEL_ALL (R49). -/
def execCancelAll (s : State) : Host.Outcome State Fault Refusal :=
  done s (doCancelAll s)

/-- LAUNCH_POST (R41). -/
def execLaunchPost (n : Fin 128) (s : State) : Host.Outcome State Fault Refusal :=
  done s (doLaunchPost n s)

/-- LAUNCH_FIRE (R43). -/
def execLaunchFire (island : Island) (s : State) : Host.Outcome State Fault Refusal :=
  done s (doLaunchFire island s)

/-- LAUNCH_COMPLETE (R46). -/
def execLaunchComplete (s : State) : Host.Outcome State Fault Refusal :=
  done s (doLaunchComplete s)

/-- CEL_LOG_NEXT (R61). -/
def execCelLogNext (s : State) : Host.Outcome State Fault Refusal :=
  done s (doCelLogNext s)

/-- CEL_TB_LO_READ (R61). -/
def execCelTbLoRead (s : State) : Host.Outcome State Fault Refusal :=
  done s (doCelTbLoRead s)

/-- LOG_LOST_READ (R7). -/
def execLogLostRead (s : State) : Host.Outcome State Fault Refusal :=
  done s (doLogLostRead s)

/-- SNAP_TRIGGER (R59). -/
def execSnapTrigger (bankS : Bool) (groups : BitVec 7) (s : State) : Host.Outcome State Fault Refusal :=
  done s (doSnapTrigger bankS groups s)

/-- SNAPSHOT_CAPTURE (R59). -/
def execSnapshotCapture (bankS : Bool) (group : Fin 7) (s : State) : Host.Outcome State Fault Refusal :=
  done s (doSnapshotCapture bankS group s)

end Sys2Proof.Machine
end

