-- ==== Sys2Proof/Machine/Sequencer.lean ====
section
/-! DEFINITION. The instructions that the three sequence engines share (R51, R52). An instruction executes only while a
program runs on its engine and nothing is waited for; each takes the time that the engine's chapter gives it. -/

namespace Sys2Proof.Machine

open Sys2Proof

/-- An instruction executes where the word or words at the pc are `op` of `n` words: an earlier instruction's time has
passed, its own time passes, execution moves on, and its effect follows. DEDUCED, log 29. -/
def runInstr (s0 : State) (e : SeqId) (op : ProgOp) (ticks n : Nat) (f : State → State) : State :=
  let s := settleSeq s0 e
  if seqAt s e op n then f (seqPast (elapse s ticks) e n .ready) else s

/-- An instruction begins that ends by its own event or at a stated tick: the program waits as `w` says. -/
def startInstr (s0 : State) (e : SeqId) (op : ProgOp) (n : Nat) (w : State → SeqWait) (f : State → State) : State :=
  let s := settleSeq s0 e
  if seqAt s e op n then f (seqPast s e n (w s)) else s

/-- HALT (R51): the program ends with OK, drivers or radios return to idle. -/
def doHalt (e : SeqId) (s : State) : State := runInstr s e .halt 1 1 fun t => endProgram t e .ok

/-- NOP (R51): one instruction cycle. -/
def doNop (e : SeqId) (s : State) : State := runInstr s e .nop 1 1 fun t => t

/-- The tick that WAIT_TB names: T_L + OFFSET + the sum of i × STRIDE over the open loops (R51). -/
def waitTick (q : Sequencer) (off : Nat) : Nat := q.tL + off + (q.loops.map fun f => f.i * f.stride).sum

/-- WAIT_TB (R51, R52): reached after its tick it ends the program with LAUNCH_LATE. DEDUCED, log 29. -/
def doWaitTb (e : SeqId) (off : BitVec 28) (s0 : State) : State :=
  let s := settleSeq s0 e
  if seqAt s e (.waitTb off.toNat) 2 then
    let t := waitTick (seqOf s e) off.toNat
    if t < now s then endProgram s e .launchLate else seqPast s e 2 (.tb t)
  else s

/-- The tick of the WAIT_TB that an engine's next SEND or TX_FRAME counts from. -/
def setLastTb (s : State) (e : SeqId) (t : Nat) : State :=
  match e with
  | .vert => { s with vert := { s.vert with lastTb := t } }
  | .azure => { s with az := { s.az with lastTb := t } }
  | .tenne => s

/-- WAIT_TB_RELEASE (R51): the timebase reaches the point. DEDUCED, log 29. -/
def doWaitTbRelease (e : SeqId) (s : State) : State :=
  match (seqOf s e).entry, (seqOf s e).wait with
  | some _, .tb t =>
    let s1 := elapseTo s t
    if t ≤ now s1 then setLastTb (seqResume s1 e) e t else s1
  | _, _ => s

/-- STRIDE of a LOOP_START in ticks: counted in ticks, or in units of 64 ticks (R51). -/
def strideTicks (stride : W16) (x64 : Bool) : Nat := if x64 then 64 * stride.toNat else stride.toNat

/-- LOOP_START (R51). -/
def doLoopStart (e : SeqId) (n : Byte) (stride : W16) (x64 : Bool) (s : State) : State :=
  runInstr s e (.loopStart n.toNat (strideTicks stride x64)) 1 2 fun t =>
    let q := seqOf t e
    let f : LoopFrame := { reps := n.toNat, i := 0, stride := strideTicks stride x64, body := q.pc }
    setSeq t e { q with loops := f :: q.loops }

/-- LOOP_END (R51): the innermost body repeats, or the loop ends. -/
def doLoopEnd (e : SeqId) (s : State) : State :=
  runInstr s e .loopEnd 1 1 fun t =>
    let q := seqOf t e
    match q.loops with
    | [] => t
    | f :: fs =>
      if f.i + 1 < f.reps then setSeq t e { q with pc := f.body, loops := { f with i := f.i + 1 } :: fs }
      else setSeq t e { q with loops := fs }

/-! ### The commands of this file -/

/-- HALT (R51). -/
def execHalt (e : SeqId) (s : State) : Host.Outcome State Fault Refusal :=
  done s (doHalt e s)

/-- NOP (R51). -/
def execNop (e : SeqId) (s : State) : Host.Outcome State Fault Refusal :=
  done s (doNop e s)

/-- WAIT_TB (R51). -/
def execWaitTb (e : SeqId) (off : BitVec 28) (s : State) : Host.Outcome State Fault Refusal :=
  done s (doWaitTb e off s)

/-- WAIT_TB_RELEASE (R51). -/
def execWaitTbRelease (e : SeqId) (s : State) : Host.Outcome State Fault Refusal :=
  done s (doWaitTbRelease e s)

/-- LOOP_START (R51). -/
def execLoopStart (e : SeqId) (n : Byte) (stride : W16) (x64 : Bool) (s : State) : Host.Outcome State Fault Refusal :=
  done s (doLoopStart e n stride x64 s)

/-- LOOP_END (R51). -/
def execLoopEnd (e : SeqId) (s : State) : Host.Outcome State Fault Refusal :=
  done s (doLoopEnd e s)

end Sys2Proof.Machine
end

