-- ==== Sys2Proof/Machine/Azure.lean ====
section
/-! DEFINITION. Azure: its instructions, timestamp records, the STS key port, antenna ports and their classes (R128 to
R158). -/

namespace Sys2Proof.Machine

open Sys2Proof

/-! ### Ports (R144, R145) -/

/-- The code of AZ_PORT_STAT.CLASS. -/
def azCode : AzClass → Nat
  | .normal => 0 | .weak => 1 | .fault => 2 | .unpopulated => 3

/-- A port changed. -/
def modPort (s : State) (p : Fin 6) (f : AzPort → AzPort) : State := { s with az := { s.az with ports := vmod s.az.ports p f } }

/-- A port in service. -/
def portIn (s : State) (p : Fin 6) : Bool := bitAt s.az.svc.toNat p.val

/-- EVT_ANTENNA for a UWB port (R395). -/
def evtAz (s : State) (p : Fin 6) (old : AzClass) (cause : Nat) : State :=
  let new := (s.az.ports[p]).cls
  postEvent s 11 (if new = .fault then .antennaFault else .ok)
    [1, byte p.val, byte (azCode old), byte (azCode new), byte (b2n (portIn s p)), byte cause]

/-- A port takes a class: AZ_EVENT is set when it changed; FAULT and UNPOPULATED clear IN_SERVICE. -/
def setPortClass (s : State) (p : Fin 6) (k : AzClass) : State :=
  let old := (s.az.ports[p]).cls
  let bit := BitVec.ofNat 6 (2 ^ p.val)
  let s1 := modPort (if old = k then s else anomSet s 4) p fun x => { x with cls := k, nFault := 0, nWeak := 0, nGood := 0 }
  { s1 with az := { s1.az with
      event := if old = k then s1.az.event else s1.az.event ||| bit
      svc := if k = .fault || k = .unpopulated then s1.az.svc &&& ~~~bit else s1.az.svc
      nPortFault := if k = .fault ∧ old ≠ .fault then satInc s1.az.nPortFault else s1.az.nPortFault } }

/-- An Azure START that waits to fire and whose program uses a port. -/
def startUsesPort (s : State) (p : Fin 6) (n : Fin 128) : Bool :=
  let e := entryOf s n
  entryWaits e && e.island.toNat == 1 && e.action.toNat == 1 &&
    match programAt s .azure e.arg.toNat with
    | some ops => (progPorts ops).contains p.val
    | none => false

/-- R145 when a port leaves service: Azure entries that use it are cancelled with CANCEL_STOP. DEDUCED, log 70. -/
def azFailover (s : State) (p : Fin 6) : State :=
  (List.finRange 128).foldl (fun t n =>
    if startUsesPort s p n && entryWaits (entryOf t n) then (cancelStopEntry t n .launchLate).1 else t) s

/-- A port is in use by the radios of the running program. -/
def portUsed (s : State) (p : Fin 6) : Bool :=
  s.az.rxA = some p || s.az.rxB = some p || s.az.txPort = some p || (match s.az.loop with
    | some l => l.tx = p || l.rx = p
    | none => false)

/-- A port becomes FAULT: a running program that uses it halts with ANTENNA_FAULT. -/
def portFault (s : State) (p : Fin 6) (cause : Nat) : State :=
  let old := (s.az.ports[p]).cls
  let used := portUsed s p
  let s1 := evtAz (setPortClass s p .fault) p old cause
  azFailover (if used then endProgram s1 .azure .antennaFault else s1) p

/-- AZ_VSWR_TRIP (R144): the reflected-power detector trips during transmit. -/
def doAzVswrTrip (p : Fin 6) (s : State) : State :=
  let tx := s.az.txPort = some p || (match s.az.loop with
    | some l => l.tx = p
    | none => false)
  let k := (s.az.ports[p]).cls
  if tx ∧ (k = .normal ∨ k = .weak) then portFault (modPort s p fun x => { x with vswr := true }) p 0 else s

/-- AZ_PORT_POP written (R144). -/
def azPopWrite (pop : BitVec 6) (s : State) : State :=
  let old := s.az.pop
  (List.finRange 6).foldl (fun t p =>
    match bitAt old.toNat p.val, bitAt pop.toNat p.val with
    | true, false => azFailover (setPortClass t p .unpopulated) p
    | false, true => setPortClass t p .normal
    | _, _ => t) { s with az := { s.az with pop := pop } }

/-! ### A completed LOOPBACK (R144) -/

/-- Conditions of R144 on one loopback: amplitude in 0.5 dB against calibration. DEDUCED, log 53. -/
def lbFault (decoded : Bool) (amp : Int) : Bool := !decoded || decide (amp < -30)

def lbWeak (decoded : Bool) (amp : Int) : Bool := decoded && decide (-30 ≤ amp) && decide (amp ≤ -12)

def lbGood (decoded : Bool) (amp : Int) : Bool := decoded && decide (-6 ≤ amp) && decide (amp ≤ 6)

/-- Counts and registers of a port after a loopback. -/
def noteLoop (x : AzPort) (decoded : Bool) (amp dly : Byte) : AzPort :=
  let a := s8 amp.toNat
  { x with
    lbAmp := amp, lbDly := dly
    strikes := if lbFault decoded a || lbWeak decoded a then satTo 7 x.strikes else 0
    nFault := if lbFault decoded a then x.nFault + 1 else 0
    nWeak := if lbWeak decoded a then x.nWeak + 1 else 0
    nGood := if lbGood decoded a then x.nGood + 1 else 0 }

/-- Completed LOOPBACKs counted (R158). -/
def countLoops (s : State) (n : Nat) : State := { s with az := { s.az with nLoopback := Nat.min 0xFFFFFFFF (s.az.nLoopback + n) } }

/-- The port class after a loopback (R144). A loopback that does not meet FAULT's condition passes: it brings a port
that waits for one into service, and a FAULT port under test back to NORMAL. DEDUCED, log 53. -/
def classifyPort (s : State) (p : Fin 6) (decoded : Bool) (amp dly : Byte) : State :=
  let old := (s.az.ports[p]).cls
  let s1 := modPort s p fun x => noteLoop x decoded amp dly
  let x := s1.az.ports[p]
  let bad := lbFault decoded (s8 amp.toNat)
  let serve (t : State) : State := { t with az := { t.az with svc := t.az.svc ||| BitVec.ofNat 6 (2 ^ p.val) } }
  match old with
  | .unpopulated => s1
  | .fault =>
    if x.testReq then
      let s2 := modPort s1 p fun y => { y with testReq := false, testAt := some (rtcNow s1) }
      if bad then evtAz s2 p old 2 else evtAz (serve (setPortClass s2 p .normal)) p old 1
    else s1
  | _ =>
    if 3 ≤ x.nFault then portFault s1 p 0
    else
      let s2 := if bad then s1 else serve s1
      if old = .normal ∧ 3 ≤ x.nWeak then evtAz (setPortClass s2 p .weak) p old 0
      else if old = .weak ∧ 8 ≤ x.nGood then evtAz (setPortClass s2 p .normal) p old 0
      else s2

/-! ### Instructions (R146, R148) -/

/-- PHY: an entry is loaded and PLL_U starts on its channel. -/
def doAzPhy (n : Fin 8) (s : State) : State :=
  runInstr s .azure (.azPhy n.val) 1 1 fun t =>
    { t with az := { t.az with phyEntry := n, synthOn := true, locked := false }, clk := { t.clk with plluLock := false } }

/-- WAIT_LOCK: waits for lock; `expired`: the wait that runs reaches its timeout, and the program halts with
SYNTH_NOT_READY. DEDUCED, log 52. -/
def doAzWaitLock (t : Byte) (expired : Bool) (s : State) : State :=
  if expired then
    match (seqOf s .azure).wait with
    | .lock l =>
      let s1 := elapseTo s l
      if l ≤ now s1 then endProgram s1 .azure .synthNotReady else s1
    | _ => s
  else
    startInstr s .azure (.azWaitLock t.toNat) 1 (fun u => if u.az.locked then .ready else .lock (now u + 64 * t.toNat)) id

/-- AZ_SYNTH_LOCK: PLL_U reaches lock and a waiting WAIT_LOCK is released. -/
def doAzSynthLock (s : State) : State :=
  if s.az.synthOn && !s.az.locked then
    let s1 := { s with az := { s.az with locked := true, lockedAt := now s }, clk := { s.clk with plluLock := true } }
    match (seqOf s1 .azure).wait with
    | .lock _ => seqResume s1 .azure
    | _ => s1
  else if bitAt s.clk.gate.toNat 8 then { s with clk := { s.clk with plluLock := true } }
  else s

/-- AZ_LOCK_LOST (R148, R156, R404): the transmitter turns off and a running program halts with SYNTH_NOT_READY.
DEDUCED, log 54. -/
def doAzLockLost (s : State) : State :=
  if s.az.locked && seqRuns s .azure then endProgram s .azure .synthNotReady
  else { s with az := { s.az with locked := false }, clk := { s.clk with plluLock := false } }

/-- An instruction that uses ports: one out of service halts the program with ANTENNA_FAULT (R148). -/
def withPorts (s0 : State) (op : ProgOp) (n : Nat) (ps : State → List (Fin 6)) (f : State → State) : State :=
  let s := settleSeq s0 .azure
  if seqAt s .azure op n then
    if (ps s).all fun p => portIn s p then f s else endProgram s .azure .antennaFault
  else s

/-- The number of chain B's port in an RX_ON word: 7 is none (R146). -/
def portCode (b : Option (Fin 6)) : Nat := match b with
  | some p => p.val
  | none => 7

/-- RX_ON: the receivers on at two ports; with a chain out of service reception is on a single chain (R143).
DEDUCED, log 54. -/
def doAzRxOn (a : Fin 6) (b : Option (Fin 6)) (s : State) : State :=
  let op : ProgOp := .azRxOn a.val (portCode b)
  withPorts s op 1 (fun _ => a :: b.toList) fun t => runInstr t .azure op 193 1 fun u =>
    { u with az := { u.az with rxA := some a, rxB := if u.az.chainA && u.az.chainB then b else none } }

/-- RX_OFF. -/
def doAzRxOff (s : State) : State :=
  runInstr s .azure .azRxOff 1 1 fun t => { t with az := { t.az with rxA := none, rxB := none } }

/-- TX_ON: takes effect once lock has held for 768 ticks; it does not execute without lock. -/
def doAzTxOn (p : Fin 6) (back : BitVec 6) (s : State) : State :=
  let op : ProgOp := .azTxOn p.val back.toNat
  withPorts s op 1 (fun _ => [p]) fun t =>
    if t.az.locked then
      runInstr (elapseTo t (t.az.lockedAt + 768)) .azure op 1 1 fun u =>
        { u with az := { u.az with txPort := some p, txBack := back } }
    else t

/-- TX_OFF. -/
def doAzTxOff (s : State) : State := runInstr s .azure .azTxOff 1 1 fun t => { t with az := { t.az with txPort := none } }

/-- The PHY entry in force. -/
def phyNow (s : State) : AzPhy := s.az.phy[s.az.phyEntry]

/-- A frame needs the STS key port VALID; otherwise the program halts with KEY_ORPHANED (R138). -/
def withKey (s : State) (f : State → State) : State := if s.az.key.valid then f s else endProgram s .azure .keyOrphaned

/-- A frame may go out under the loaded key: it is VALID, and a POLL finds one of its two exchanges unused (R136, R138).
DESIGN CHOICE, log 193. -/
def keyServes (a : Azure) (final : Bool) : Bool := a.key.valid && (final || a.key.used != 2)

/-- A POLL begins an exchange under the loaded key (R136, R158). -/
def beginExchange (a : Azure) : Azure :=
  { a with recsUsed := 0, nXchg := satInc a.nXchg, key := { a.key with used := satTo 2 a.key.used } }

/-- The 16-bit FCS of IEEE 802.15.4: polynomial 0x1021 reflected from 0, low byte first. PRESUMED, log 177. -/
def fcsBytes (b : Bytes) : Bytes := leBytes 2 ((b.flatMap lsbBits).foldl (fun c x =>
  if (bitAt c 0) != x then (c / 2) ^^^ 0x8408 else c / 2) 0)

/-- Exchange index e of the exchange in flight: 0 or 1 (R133, R136). -/
def exchangeIx (a : Azure) : Nat := a.key.used - 1

/-- V of frame k of exchange e: V_DATA ‖ (V_CTR0 + (4 × e + k) × 1,024) mod 2³² (R135, R136). -/
def stsV (a : Azure) (k : Nat) : Bytes :=
  memReadBytes a.key.port 16 12 ++ beBytes 4 (beNat (memReadBytes a.key.port 28 4) + (4 * exchangeIx a + k) * 1024)

/-- PSDU of frame k: FTYPE 0xA0 + k, SEQ 4 × e + k and FCS with SP 1 or 2, none with SP 3 (R133). -/
def framePsdu (p : AzPhy) (a : Azure) (k : Nat) : Bytes :=
  if p.sp = 3 then [] else
    let b := [byte (0xA0 + k), byte (4 * exchangeIx a + k)]
    b ++ fcsBytes b

/-- A POLL of the token whose key is loaded: the tick of its RMARKER and its exchange index are kept (R141, R155). -/
def notePoll (s : State) (mark : Nat) : State :=
  modRun s fun r => { r with toks := r.toks.map fun t => if stsOf s t.ctx then { t with poll := some (mark, exchangeIx s.az) } else t }

/-- POLL (k = 0) or FINAL (k = 2) goes on air. -/
def sendFrame (p : AzPhy) (a : Azure) (k mark : Nat) : Azure :=
  { a with air := some { psdu := framePsdu p a k, v := stsV a k, mark := mark } }

/-- TX_FRAME (R136, R138, R143, R146, R149): the RMARKER leaves LEAD ticks after the WAIT_TB tick, the record follows at the
frame's end; a POLL begins an exchange. A stop before that ends the frame at once (R477). -/
def doAzTxFrame (final : Bool) (r : Fin 4) (lead : W16) (s : State) : State :=
  let op : ProgOp := .azTxFrame final r.val lead.toNat
  withPorts s op 2 (fun t => t.az.txPort.toList) fun u =>
    if keyServes u.az final then
      let mark := u.az.lastTb + lead.toNat
      startInstr u .azure op 2 (fun w => .til (mark + ticksAfter (phyNow w)) (.azTx r mark)) fun w =>
        if final then { w with az := sendFrame (phyNow w) w.az 2 mark }
        else notePoll { w with az := sendFrame (phyNow w) (beginExchange w.az) 0 mark } mark
    else endProgram u .azure .keyOrphaned

/-- RX_FRAME: the search for a RESP or REPORT begins. -/
def doAzRxFrame (report : Bool) (r : Fin 4) (search : W16) (s : State) : State :=
  let op : ProgOp := .azRxFrame report r.val search.toNat
  withPorts s op 2 (fun t => t.az.rxA.toList ++ t.az.rxB.toList) fun t => withKey t fun u =>
    startInstr u .azure op 2 (fun _ => .op) fun w =>
      { w with az := { w.az with rxFrame := some { report := report, rcd := r, start := now w + 1, search := search.toNat } } }

/-- Octets of a received frame's PSDU with FCS: 18 of a REPORT, 4 of a RESP with SP 1 or 2, none with SP 3 (R133). -/
def psduLen (p : AzPhy) (report : Bool) : Nat := if report then 18 else if p.sp = 3 then 0 else 4

/-- A PSDU's FCS is right. -/
def fcsOk (b : Bytes) : Bool := decide (fcsBytes (b.take (b.length - 2)) = b.drop (b.length - 2))

/-- CLASS of a received frame (R141, R149): STS quality and first path first, then PHR and FCS. -/
def azFrameClass (p : AzPhy) (received firstPath phrOk : Bool) (stsq : Byte) (psdu : Bytes) : Nat :=
  if !received then 0
  else if stsq.toNat < p.stsqMin.toNat || !firstPath then 2
  else if psdu.isEmpty || (phrOk && fcsOk psdu) then 1 else 3

/-- Whether RX_FRAME takes a frame whose RMARKER comes `delay` ticks after execution: its preamble starts after execution
and its RMARKER falls within SEARCH (R146). -/
def rxTakes (p : AzPhy) (delay search : Nat) : Bool := decide (ticksBefore p ≤ delay) && decide (delay ≤ search)

/-- The on-die delay's compensation for temperature (R143). DESIGN CHOICE, log 176. -/
def tempComp (s : State) : Int := match s.bg.uwbTemp with
  | some t => Config.chainComp s.keys.trim t
  | none => 0

/-- A receive timestamp at the antenna: the RMARKER less the port's RX_DLY and the chain's temperature compensation
(R140, R143). -/
def rxStamp (s : State) (p : Option (Fin 6)) (mark frac : Nat) : Nat :=
  let dly : Int := match p with
    | some q => (s.az.ports[q]).rxDly.toNat
    | none => 0
  (((mark * 1664 + frac : Nat) : Int) + 2 ^ 40 - dly - tempComp s).toNat

/-- AZ_RX_FRAME_END (R138, R141, R146, R149): a frame arrives or the search expires. `delay` and `frac` place the RMARKER
after execution, in ticks and in 1 ⁄ 1,664 tick; `payload` is the PSDU with its FCS; the rest is what the receiver
measured. DEDUCED, log 51. -/
def doAzRxFrameEnd (received firstPath phrOk nlos : Bool) (delay : W16) (frac : BitVec 11) (stsq rssi : Byte) (pdoa cfo : W16)
    (payload : Bytes) (s : State) : State :=
  match s.az.rxFrame with
  | none => s
  | some x =>
    let phy := phyNow s
    let got := received && rxTakes phy delay.toNat x.search
    let psdu := padTo (psduLen phy x.report) payload
    let cls := azFrameClass phy got firstPath phrOk stsq psdu
    let mark := x.start + (if got then delay.toNat else x.search)
    let after := if x.report then ticksAfterReport phy else ticksAfter phy
    let s1 := elapseTo s (if got then mark + after else mark)
    let bit := BitVec.ofNat 4 (2 ^ x.rcd.val)
    let rcd := tsRecord (rxStamp s s.az.rxA mark frac.toNat) cls false false false nlos stsq rssi
      (if s.az.rxB.isSome then pdoa else 0) cfo
    let a := putTs { s1.az with rxFrame := none } x.rcd rcd
    let a1 := { a with
      tsbuf := if x.report && cls == 1 then memWriteBytes a.tsbuf 48 (psdu.take 16) else a.tsbuf
      resp := if x.report then a.resp else if cls = 1 then psdu else []
      recB := if s.az.rxB.isSome then a.recB ||| bit else a.recB &&& ~~~bit
      nStsFail := if cls = 2 then satInc a.nStsFail else a.nStsFail
      nLost := if cls = 0 then satInc a.nLost else a.nLost }
    let s2 := seqResume { s1 with az := a1 } .azure
    if x.report then azBoundary s2 else s2

/-- LOOPBACK: a calibration frame from one port to another. -/
def doAzLoopback (p q : Fin 6) (r : Fin 4) (s : State) : State :=
  let op : ProgOp := .loopback p.val q.val r.val
  withPorts s op 1 (fun _ => [p, q]) fun t =>
    startInstr t .azure op 1 (fun _ => .op) fun u =>
      { u with az := { u.az with loop := some { tx := p, rx := q, rcd := r, start := now u + 1 } } }

/-- AZ_LOOPBACK_END (R144, R148): the frame has come, or 12,800 ticks have passed without one; the receiving port's class
follows; a record is written as for a received frame. DEDUCED, log 51. -/
def doAzLoopbackEnd (decoded nlos : Bool) (delay : W16) (frac : BitVec 11) (stsq rssi : Byte) (cfo : W16) (amp dly : Byte)
    (s : State) : State :=
  match s.az.loop with
  | none => s
  | some l =>
    let after := ticksAfter (phyNow s)
    let got := decoded && decide (delay.toNat + after ≤ 12800)
    let mark := l.start + (if got then delay.toNat else 12800)
    let t := elapseTo s (if got then mark + after else mark)
    let ts := rxStamp s (some l.rx) mark frac.toNat
    let a := putTs t.az l.rcd (tsRecord ts (b2n got) false false false nlos stsq rssi 0 cfo)
    let s1 := seqResume { t with az := { a with loop := none, nLoopback := satInc a.nLoopback } } .azure
    classifyPort s1 l.rx got amp dly

/-! ### The STS key port (R137, R138) -/

/-- STS_KEY_EXPIRE: t_KEYLIFE, 3,840,000 ticks, after the load. -/
def doStsKeyExpire (s : State) : State :=
  if s.az.key.valid then
    let s1 := elapseTo s (s.az.key.loadedAt + 3840000)
    if s.az.key.loadedAt + 3840000 ≤ now s1 then zeroiseSts s1 else s1
  else s

/-- AZ_KEY_CLR: a write of 1 to AZ_KEY_CTRL.CLR. -/
def doAzKeyClr (s : State) : State := zeroiseSts s

/-- Gules signals that the parent of the loaded key is invalid: with no program running the boundary is now. -/
def stsOrphan (s : State) : State :=
  if s.az.key.valid then
    let s1 := { s with az := { s.az with key := { s.az.key with orphanPend := true } } }
    if seqRuns s1 .azure then s1 else azBoundary { s1 with az := { s1.az with recsUsed := 0 } }
  else s

/-- STS_ORPHAN_SIGNAL (R138). -/
def doStsOrphanSignal (s : State) : State := stsOrphan s

/-! ### The commands of this file -/

/-- AZ_PHY (R146). -/
def execAzPhy (n : Fin 8) (s : State) : Host.Outcome State Fault Refusal :=
  done s (doAzPhy n s)

/-- AZ_WAIT_LOCK (R148). -/
def execAzWaitLock (t : Byte) (expired : Bool) (s : State) : Host.Outcome State Fault Refusal :=
  done s (doAzWaitLock t expired s)

/-- AZ_LOCK_LOST (R148). -/
def execAzLockLost (s : State) : Host.Outcome State Fault Refusal :=
  done s (doAzLockLost s)

/-- AZ_RX_ON (R146). -/
def execAzRxOn (a : Fin 6) (b : Option (Fin 6)) (s : State) : Host.Outcome State Fault Refusal :=
  done s (doAzRxOn a b s)

/-- AZ_RX_OFF (R146). -/
def execAzRxOff (s : State) : Host.Outcome State Fault Refusal :=
  done s (doAzRxOff s)

/-- AZ_TX_ON (R148). -/
def execAzTxOn (p : Fin 6) (back : BitVec 6) (s : State) : Host.Outcome State Fault Refusal :=
  done s (doAzTxOn p back s)

/-- AZ_TX_OFF (R146). -/
def execAzTxOff (s : State) : Host.Outcome State Fault Refusal :=
  done s (doAzTxOff s)

/-- AZ_TX_FRAME (R146). -/
def execAzTxFrame (final : Bool) (r : Fin 4) (lead : W16) (s : State) : Host.Outcome State Fault Refusal :=
  done s (doAzTxFrame final r lead s)

/-- AZ_RX_FRAME (R146). -/
def execAzRxFrame (report : Bool) (r : Fin 4) (search : W16) (s : State) : Host.Outcome State Fault Refusal :=
  done s (doAzRxFrame report r search s)

/-- AZ_RX_FRAME_END (R149). -/
def execAzRxFrameEnd (received : Bool) (firstPath : Bool) (phrOk : Bool) (nlos : Bool) (delay : W16) (frac : BitVec 11) (stsq : Byte) (rssi : Byte) (pdoa : W16) (cfo : W16) (payload : Bytes) (s : State) : Host.Outcome State Fault Refusal :=
  done s (doAzRxFrameEnd received firstPath phrOk nlos delay frac stsq rssi pdoa cfo payload s)

/-- AZ_LOOPBACK (R146). -/
def execAzLoopback (p : Fin 6) (q : Fin 6) (r : Fin 4) (s : State) : Host.Outcome State Fault Refusal :=
  done s (doAzLoopback p q r s)

/-- AZ_LOOPBACK_END (R144). -/
def execAzLoopbackEnd (decoded : Bool) (nlos : Bool) (delay : W16) (frac : BitVec 11) (stsq : Byte) (rssi : Byte) (cfo : W16) (amp : Byte) (dly : Byte) (s : State) : Host.Outcome State Fault Refusal :=
  done s (doAzLoopbackEnd decoded nlos delay frac stsq rssi cfo amp dly s)

/-- AZ_VSWR_TRIP (R144). -/
def execAzVswrTrip (p : Fin 6) (s : State) : Host.Outcome State Fault Refusal :=
  done s (doAzVswrTrip p s)

/-- STS_KEY_EXPIRE (R137). -/
def execStsKeyExpire (s : State) : Host.Outcome State Fault Refusal :=
  done s (doStsKeyExpire s)

/-- AZ_KEY_CLR (R137). -/
def execAzKeyClr (s : State) : Host.Outcome State Fault Refusal :=
  done s (doAzKeyClr s)

/-- STS_ORPHAN_SIGNAL (R138). -/
def execStsOrphanSignal (s : State) : Host.Outcome State Fault Refusal :=
  done s (doStsOrphanSignal s)

/-- AZ_SYNTH_LOCK (R148). -/
def execAzSynthLock (s : State) : Host.Outcome State Fault Refusal :=
  done s (doAzSynthLock s)

end Sys2Proof.Machine
end

