-- ==== Sys2Proof/Machine/Tenne.lean ====
section
/-! DEFINITION. Tenné's UHF side: its instructions, receive records, the synthesiser, the untimed transmit and the
coexistence grant (R121 to R125, R184 to R202). -/

namespace Sys2Proof.Machine

open Sys2Proof

/-! ### Synthesiser and receiver instructions (R121, R123, R187, R189) -/

/-- SYNTH: the synthesiser starts towards a channel-table entry. -/
def doTnSynth (n : Fin 8) (s : State) : State :=
  runInstr s .tenne (.tnSynth n.val) 1 1 fun t => { t with tn := { t.tn with synth := { entry := n, on := true } } }

/-- WAIT_LOCK: waits for lock for at most T × 64 ticks. -/
def doTnWaitLock (t : Byte) (s : State) : State :=
  startInstr s .tenne (.tnWaitLock t.toNat) 1
    (fun u => if u.tn.synth.locked then .ready else .lock (now u + 64 * t.toNat)) id

/-- TN_WAIT_LOCK_TIMEOUT: without lock the program halts with SYNTH_NOT_READY. -/
def doTnWaitLockTimeout (s : State) : State :=
  match (seqOf s .tenne).wait with
  | .lock t =>
    let s1 := elapseTo s t
    if t ≤ now s1 ∧ seqRuns s1 .tenne = true then endProgram s1 .tenne .synthNotReady else s1
  | _ => s

/-- TN_SYNTH_LOCK (R123, R189, R192): lock is reached, the entry's band is cached, a waiting WAIT_LOCK is released and
an untimed transmit goes on to send. DESIGN CHOICE, log 44, 182. -/
def doTnSynthLock (s : State) : State :=
  if s.tn.synth.on && !s.tn.synth.locked then
    let cache := s.tn.cache ||| BitVec.ofNat 8 (2 ^ s.tn.synth.entry.val)
    let s0 := if cache = s.tn.cache then s else markDirty s calBand
    let s1 := { s0 with tn := { s.tn with
      synth := { s.tn.synth with locked := true, lockedAt := now s }
      cache := cache
      utx := if s.tn.utx.phase = .synth then { s.tn.utx with phase := .sending } else s.tn.utx } }
    match (seqOf s1 .tenne).wait with
    | .lock _ => seqResume s1 .tenne
    | _ => s1
  else s

/-- RX_ON: the receiver on at a profile. -/
def doTnRxOn (p : Fin 3) (s : State) : State :=
  runInstr s .tenne (.tnRxOn p.val) 1 1 fun t => { t with tn := { t.tn with rxOn := true, rxProfile := p } }

/-- RX_OFF. -/
def doTnRxOff (s : State) : State := runInstr s .tenne .tnRxOff 1 1 fun t => { t with tn := { t.tn with rxOn := false } }

/-- DCOC: offset cancellation over N × 16 ticks, with the LNA isolated; a stop before its end abandons it (R477). -/
def doDcoc (n : BitVec 6) (s : State) : State :=
  startInstr s .tenne (.dcoc n.toNat) 1 (fun u => .til (now u + 16 * n.toNat + 1) (.dcoc (16 * n.toNat))) id

/-- The record that an instruction names, with the loop index where I = 1. -/
def recordOf (s : State) (idx : Bool) (r : Fin 8) : Nat := r.val + if idx then loopIdx s .tenne else 0

/-- RX_FRAME: the search for PRE and SYNC begins. -/
def doTnRxFrame (format : Fin 3) (idx : Bool) (r : Fin 8) (search : W16) (s : State) : State :=
  startInstr s .tenne (.tnRxFrame format.val idx r.val search.toNat) 2 (fun _ => .op) fun t =>
    { t with tn := { t.tn with
        rxFrame := some { format := format, rcd := recordOf t idx r, start := now t + 1, search := search.toNat } } }

/-- Even parity of a hail reply over ALIAS and BL, from payload byte 0 ALIAS and byte 1 [1] BL, [0] P (R104, R124). -/
def hailParityOk (p : Bytes) : Bool :=
  ((natBits 8 (byteAt p 0) ++ natBits 2 (byteAt p 1)).filter id).length % 2 == 0

/-- CRC of a press telegram: over bits 32 to 199, which are payload bytes 0 to 20 (R110). -/
def pressCrcOk (p : Bytes) : Bool := crc16 (slice p 0 21) == beAt p 21 2

/-- CHECK_OK of a frame with sync: parity or CRC, 0 for a Prove reply (R124). -/
def frameCheck (format : Fin 3) (p : Bytes) : Bool :=
  if format.val = 0 then hailParityOk p else if format.val = 2 then pressCrcOk p else false

/-- CLASS of a receive record (R116, R123): 0 EMPTY, 1 DECODED, 2 COLLIDED. DEDUCED, log 39. -/
def rxClass (format : Fin 3) (sync twoTone energy : Bool) (p : Bytes) : Nat :=
  if sync then (if twoTone || (format.val = 0 && !hailParityOk p) then 2 else 1)
  else if energy then 2 else 0

/-- RX_THR of the synthesised entry; a level code is dBm + 160 (R124, R184, R188). -/
def rxThrOf (s : State) : Nat := (s.tn.chan[s.tn.synth.entry]).rxThr.toNat

/-- Energy over a search: the median RSSI of one of its whole 64-tick intervals exceeds RX_THR; what is left of a search at its end
is no interval (R188). DESIGN CHOICE, log 191. -/
def searchEnergy (s : State) (search : Nat) (medians : Bytes) : Bool :=
  (medians.take (search / 64)).any fun m => decide (rxThrOf s < m.toNat)

/-- Two-tone detection: both tones stayed at `level` at once for `ticks`, above RX_THR − 10 dB and for at least half of a
bit period (R188). -/
def twoToneOf (s : State) (level : Byte) (ticks : Nat) : Bool :=
  decide (rxThrOf s < level.toNat + 10) && decide (bitPeriod s.tn.rxProfile.val ≤ 2 * ticks)

/-- Whether an offset cancellation is valid for a frame whose first bit comes at tick `t` (R187, t_DCOCV). -/
def dcocValid (d : Option (Nat × Nat)) (t : Nat) : Bool :=
  match d with
  | some (end_, len) => decide (480 ≤ len) && decide (end_ ≤ t) && decide (t ≤ end_ + 48000)
  | none => false

/-- TN_RX_FRAME_END (R116, R123, R124, R187, R188): the frame is received, or the search ends. What the air holds: whether a
sync is found and the delay `at_` from execution to the first PRE bit; the level that both tones hold at once and for how
long; the median RSSI of each interval of the search; peak RSSI, weak bits and payload. DEDUCED, log 39. -/
def doTnRxFrameEnd (sync : Bool) (toneLevel : Byte) (toneTicks at_ : W16) (medians : Bytes) (rssi weak : Byte)
    (payload : Bytes) (s : State) : State :=
  match s.tn.rxFrame with
  | none => s
  | some x =>
    let d := Nat.min at_.toNat x.search
    let len := formatBits x.format.val * bitPeriod s.tn.rxProfile.val
    let cls := rxClass x.format sync (twoToneOf s toneLevel toneTicks.toNat) (searchEnergy s x.search medians) payload
    let s1 := elapseTo s (x.start + (if sync then d + len else if cls = 0 then x.search else x.search + len))
    let b0 := byte (cls + 4 * b2n (sync && frameCheck x.format payload))
    seqResume { s1 with tn := { countRx s1.tn cls with
      rxFrame := none
      dcocFrozen := if sync then s1.tn.dcocAt else s1.tn.dcocFrozen
      dcocOk := if sync then dcocValid s1.tn.dcocAt (x.start + d) else s1.tn.dcocOk
      rxbuf := putRx s1.tn.rxbuf x.rcd x.format.val b0 rssi weak (x.start + d) payload } } .tenne

/-- RSSI: the median over N × 64 ticks goes into TAIL_RSSI of a record; a stop before its end abandons it (R477). -/
def doRssi (n : BitVec 4) (idx : Bool) (r : Fin 8) (value : Byte) (s : State) : State :=
  startInstr s .tenne (.rssi n.toNat idx r.val) 1 (fun u => .til (now u + 64 * n.toNat + 1) (.rssi (recordOf u idx r) value)) id

/-! ### Transmitter instructions (R121, R123, R191) -/

/-- TX_ON: once lock has held for 768 ticks the PA ramps up within 384. It does not execute without lock.
DEDUCED, log 40. -/
def doTnTxOn (p : Fin 3) (step : BitVec 6) (s0 : State) : State :=
  let s := settleSeq s0 .tenne
  if s.tn.synth.locked && seqAt s .tenne (.tnTxOn p.val step.toNat) 1 then
    runInstr (elapseTo s (s.tn.synth.lockedAt + 768)) .tenne (.tnTxOn p.val step.toNat) 385 1 fun t =>
      { t with tn := { t.tn with txOn := true, txProfile := p, txStep := step } }
  else s

/-- TX_FRAME: the 120 bits of the acknowledgement in the transmit buffer go out; a stop ends them at once (R477). -/
def doTnTxFrame (s : State) : State :=
  startInstr s .tenne .tnTxFrame 1 (fun u =>
    if u.tn.txOn then .til (now u + 120 * bitPeriod u.tn.txProfile.val + 1) .tnTx else .ready) id

/-- TX_OFF: PA ramp-down, transmitter off. -/
def doTnTxOff (s : State) : State := runInstr s .tenne .tnTxOff 1 1 fun t => { t with tn := { t.tn with txOn := false } }

/-! ### Untimed transmit (R192, R198, R200, R201) -/

/-- The tick nearest to `now` whose low 32 bits are `x`. DEDUCED, log 42. -/
def near32 (now_ : Nat) (x : W32) : Nat :=
  let base := now_ / 4294967296 * 4294967296 + x.toNat
  if base + 2147483648 < now_ then base + 4294967296
  else if now_ + 2147483648 < base ∧ 4294967296 ≤ base then base - 4294967296
  else base

/-- The untimed transmit ends with a status; its request is released. DEDUCED, log 41. -/
def utxEnd (s : State) (st : Status) : State :=
  let sent := decide (st = .ok)
  coexUpdate { s with tn := { s.tn with
    utx := { s.tn.utx with phase := .idle, res := statusCode st }
    synth := if s.tn.utx.phase = .waiting then s.tn.synth else { s.tn.synth with on := false, locked := false }
    nUtxSent := if sent then satInc s.tn.nUtxSent else s.tn.nUtxSent
    nUtxAbandon := if sent then s.tn.nUtxAbandon else satInc s.tn.nUtxAbandon } }

/-- A denied untimed transmit: both counters of R198, and EVT_COEX for the acknowledgement. DEDUCED, log 43. -/
def utxDenied (s : State) : State :=
  let s1 := anomSet (utxEnd s .coexDenied) 8
  let s2 := { s1 with
    cel := { s1.cel with nCoex := satInc s1.cel.nCoex }
    tn := { s1.tn with nCoex0 := satInc s1.tn.nCoex0 } }
  postEvent s2 10 .coexDenied [0, 2]

/-- The fields of a TN_UTX_CTRL word, GO apart. -/
def utxFields (u : Utx) (v : W32) : Utx :=
  { u with entry := BitVec.ofNat 3 (bitsOf v 2 0), profile := BitVec.ofNat 3 (bitsOf v 5 3), step := BitVec.ofNat 6 (bitsOf v 11 6)
           coex := BitVec.ofNat 2 (bitsOf v 13 12), pri := bitAt v.toNat 14 }

/-- UTX_GO: a write of TN_UTX_CTRL with GO = 1; refused while another transmit is pending, and on PROFILE, STEP or COEX
out of range. DEDUCED, log 41. -/
def utxGo (v : W32) (s : State) : State :=
  let u := utxFields s.tn.utx v
  let refuse (st : Status) : State := { s with tn := { s.tn with utx := { s.tn.utx with res := statusCode st } } }
  if s.keys.svcLock then refuse .wrongState
  else if s.tn.utx.phase ≠ .idle then refuse .busy
  else if (u.profile.toNat ≠ 1 ∧ u.profile.toNat ≠ 2) ∨ pwrMaxOf s u.entry.toNat < u.step.toNat ∨ 2 ≤ u.coex.toNat then refuse .paramRange
  else coexUpdate { s with tn := { s.tn with utx := { u with phase := .waiting } } }

/-- UTX_GO: with GO = 0 the write starts nothing and has a row of its own. -/
def doUtxGo (v : W32) (s : State) : State := if bitAt v.toNat 15 then utxGo v s else s

/-- The grant that the untimed transmit needs. -/
def utxGranted (s : State) : Bool := s.tn.utx.coex != 1 || coexGranted s 0

/-- F_VBAT forbids LF and UHF transmission (R424). -/
def vbatNoTx (s : State) : Bool := s.pwr.vbatLow || s.pwr.vbatOvp

/-- UTX_START (R192 steps 2 and 3, R200): not before its tick, with no program and no firing posted, no calibration, and the
grant; in service-lock none is sent (R261). DEDUCED, log 41. -/
def doUtxStart (s : State) : State :=
  if s.tn.utx.phase = .waiting then
    let s1 := elapseTo s (near32 (now s) s.tn.utx.nb)
    if s1.keys.svcLock then utxEnd s1 .wrongState
    else if vbatNoTx s1 then utxEnd s1 .busy
    else if !seqRuns s1 .tenne && (vgetN s1.cel.ports 2 []).isEmpty && !vcalRuns s1 && utxGranted s1 && decide (near32 (now s1) s1.tn.utx.nb ≤ now s1) &&
        decide (now s1 ≤ near32 (now s1) s1.tn.utx.dl) then
      let e : Fin 8 := ⟨s1.tn.utx.entry.toNat % 8, Nat.mod_lt _ (by decide)⟩
      { s1 with tn := { s1.tn with utx := { s1.tn.utx with phase := .synth }, synth := { entry := e, on := true } } }
    else s1
  else s

/-- UTX_DEADLINE (R192): step 3 has not begun by the deadline tick. -/
def doUtxDeadline (s : State) : State :=
  if s.tn.utx.phase = .waiting then
    let s1 := elapseTo s (near32 (now s) s.tn.utx.dl)
    if utxGranted s1 then utxEnd s1 .busy else utxDenied s1
  else s

/-- UTX_FRAME_END (R192): guard, ramp and the 120 bits of the frame have passed. -/
def doUtxFrameEnd (s : State) : State :=
  if s.tn.utx.phase = .sending then
    utxEnd (elapseTo s (s.tn.synth.lockedAt + 768 + 384 + 120 * bitPeriod s.tn.utx.profile.toNat)) .ok
  else s

/-- TN_LOCK_LOST (R123, R192): the PA turns off; a transmitting program, or the untimed frame, ends with
SYNTH_NOT_READY. DEDUCED, log 40. -/
def doTnLockLost (s : State) : State :=
  if !s.tn.synth.locked then s
  else if s.tn.utx.phase = .sending then utxEnd s .synthNotReady
  else if s.tn.txOn && seqRuns s .tenne then endProgram s .tenne .synthNotReady
  else { s with tn := { s.tn with synth := { s.tn.synth with locked := false } } }

/-! ### Coexistence (R195 to R199) -/

/-- Argent forwards the GNT pins in a COEX frame (R197, R340). -/
def sendGnt (s : State) : State :=
  sendShort s false 6 (BitVec.ofNat 17 (b2n (s.tn.coex[(0 : Fin 2)]).gntPin + 2 * b2n (s.tn.coex[(1 : Fin 2)]).gntPin))

/-- COEX_GNT_CHANGE (R197): a pin changes and Argent forwards it; with the link DOWN it goes when the link is UP again. -/
def doCoexGntChange (pair : Fin 2) (level : Bool) (s : State) : State :=
  sendGnt { s with tn := { s.tn with coex := vmod s.tn.coex pair fun x => { x with gntPin := level } } }

/-- What a withdrawn grant does to a firing that runs under it, and to an untimed frame (R192, R197). A grant withdrawn
between the untimed SYNTH and its lock changes nothing: the rule names a loss during the frame only.
DESIGN CHOICE, log 182. -/
def grantLost (s : State) (p : Fin 2) : State :=
  if coexGranted s p then s
  else
    let stop (t : State) (e : SeqId) : State :=
      match (seqOf t e).entry with
      | some n => if (entryOf t n).coex.toNat = p.val + 1 then endProgram t e .coexDenied else t
      | none => t
    let s1 := stop (stop s .tenne) .azure
    if p.val = 0 ∧ s1.tn.utx.coex = 1 ∧ s1.tn.utx.phase = .sending then utxDenied s1 else s1

/-- Both grants as they stand after a change (R197, R199). -/
def grantsChecked (s : State) : State := grantLost (grantLost s 0) 1

/-! ### Band cache (R189) -/

/-- Tenné is taken: an approach runs that has not decided yet, a program runs, an entry waits to fire on it, or an untimed transmit
uses the synthesiser (R190, R457). DESIGN CHOICE, log 44. -/
def tenneTaken (s : State) : Bool :=
  (s.pres.run.any fun r => r.kind == .approach && r.stage != .grant) || seqRuns s .tenne || (s.cel.entries.toList.any fun e => e.island.toNat == 2 && entryActive e) ||
  s.tn.utx.phase == .synth || s.tn.utx.phase == .sending || uhfTesting s

/-- A background calibration that is owed starts when Tenné is free; it lasts a free number of ticks, at most t_VCAL, 19,200 (R189,
R190, R203). DESIGN CHOICE, log 44. -/
def vcalStart (temp : Int) (s : State) : State :=
  if s.tn.vcal.isNone && s.tn.refill && !tenneTaken s then
    { s with freeCtr := s.freeCtr + 1, tn := { s.tn with vcal := some (now s + 1 + Config.freeNat s.freeCtr % 19200, temp) } }
  else s

/-- A temperature check (R189, R190, R200): a move of 20 °C clears every entry of the cache. The background calibration that
refills them all starts at a check that finds Tenné free, again after one that a posting ended.
DESIGN CHOICE, log 44. -/
def vcoChecked (temp : Int) (s0 : State) : State :=
  let s := vcalSettle s0
  match s.tn.cacheTemp with
  | some t =>
    if 20 ≤ temp - t ∨ 20 ≤ t - temp then
      vcalStart temp (markDirty { s with tn := { s.tn with cache := 0, cacheTemp := none, refill := true } } calBand)
    else vcalStart temp s
  | none =>
    vcalStart temp (if s.tn.refill || s.tn.cache = 0 then s
      else markDirty { s with tn := { s.tn with cacheTemp := some temp } } calBand)

/-- VCO_TEMP_CHECK (R189, R444): every second in Chalk. -/
def doVcoTempCheck (temp : Int) (s0 : State) : State :=
  if s0.pwr.pstate = .chalk then
    let s := elapseChalk s0 (s0.bg.times.vco + ticksPerSec)
    vcoChecked temp { s with bg := { s.bg with times := { s.bg.times with vco := chalkNow s } } }
  else s0

/-! ### The commands of this file -/

/-- TN_SYNTH (R121). -/
def execTnSynth (n : Fin 8) (s : State) : Host.Outcome State Fault Refusal :=
  done s (doTnSynth n s)

/-- TN_WAIT_LOCK (R123). -/
def execTnWaitLock (t : Byte) (s : State) : Host.Outcome State Fault Refusal :=
  done s (doTnWaitLock t s)

/-- TN_WAIT_LOCK_TIMEOUT (R123). -/
def execTnWaitLockTimeout (s : State) : Host.Outcome State Fault Refusal :=
  done s (doTnWaitLockTimeout s)

/-- TN_SYNTH_LOCK (R189). -/
def execTnSynthLock (s : State) : Host.Outcome State Fault Refusal :=
  done s (doTnSynthLock s)

/-- TN_LOCK_LOST (R123). -/
def execTnLockLost (s : State) : Host.Outcome State Fault Refusal :=
  done s (doTnLockLost s)

/-- TN_RX_ON (R121). -/
def execTnRxOn (p : Fin 3) (s : State) : Host.Outcome State Fault Refusal :=
  done s (doTnRxOn p s)

/-- TN_RX_OFF (R121). -/
def execTnRxOff (s : State) : Host.Outcome State Fault Refusal :=
  done s (doTnRxOff s)

/-- DCOC (R187). -/
def execDcoc (n : BitVec 6) (s : State) : Host.Outcome State Fault Refusal :=
  done s (doDcoc n s)

/-- TN_RX_FRAME (R123). -/
def execTnRxFrame (format : Fin 3) (idx : Bool) (r : Fin 8) (search : W16) (s : State) : Host.Outcome State Fault Refusal :=
  done s (doTnRxFrame format idx r search s)

/-- TN_RX_FRAME_END (R123). -/
def execTnRxFrameEnd (sync : Bool) (toneLevel : Byte) (toneTicks : W16) (at_ : W16) (medians : Bytes) (rssi : Byte) (weak : Byte) (payload : Bytes) (s : State) : Host.Outcome State Fault Refusal :=
  done s (doTnRxFrameEnd sync toneLevel toneTicks at_ medians rssi weak payload s)

/-- RSSI (R121). -/
def execRssi (n : BitVec 4) (idx : Bool) (r : Fin 8) (value : Byte) (s : State) : Host.Outcome State Fault Refusal :=
  done s (doRssi n idx r value s)

/-- TN_TX_ON (R123). -/
def execTnTxOn (p : Fin 3) (step : BitVec 6) (s : State) : Host.Outcome State Fault Refusal :=
  done s (doTnTxOn p step s)

/-- TN_TX_FRAME (R121). -/
def execTnTxFrame (s : State) : Host.Outcome State Fault Refusal :=
  done s (doTnTxFrame s)

/-- TN_TX_OFF (R121). -/
def execTnTxOff (s : State) : Host.Outcome State Fault Refusal :=
  done s (doTnTxOff s)

/-- UTX_GO (R192). -/
def execUtxGo (v : W32) (s : State) : Host.Outcome State Fault Refusal :=
  done s (doUtxGo v s)

/-- UTX_START (R192). -/
def execUtxStart (s : State) : Host.Outcome State Fault Refusal :=
  done s (doUtxStart s)

/-- UTX_DEADLINE (R192). -/
def execUtxDeadline (s : State) : Host.Outcome State Fault Refusal :=
  done s (doUtxDeadline s)

/-- UTX_FRAME_END (R192). -/
def execUtxFrameEnd (s : State) : Host.Outcome State Fault Refusal :=
  done s (doUtxFrameEnd s)

/-- VCO_TEMP_CHECK (R189). -/
def execVcoTempCheck (temp : Int) (s : State) : Host.Outcome State Fault Refusal :=
  done s (doVcoTempCheck temp s)

/-- COEX_GNT_CHANGE (R197). -/
def execCoexGntChange (pair : Fin 2) (level : Bool) (s : State) : Host.Outcome State Fault Refusal :=
  done s (doCoexGntChange pair level s)

end Sys2Proof.Machine
end

