-- ==== Sys2Proof/Machine/Vert.lean ====
section
/-! DEFINITION. Vert: its instructions, the end of SEND and MEASURE, the burst monitor and channel classes, duty
accounts, over-temperature, tracking and sweeps (R66 to R93). -/

namespace Sys2Proof.Machine

open Sys2Proof

/-! ### Instructions (R83, R85, R86, R88) -/

/-- A slot changed. -/
def modSlot (s : State) (i : Fin 3) (f : LfSlot → LfSlot) : State :=
  { s with vert := { s.vert with slot := vmod s.vert.slot i f } }

/-- A channel changed. -/
def modCh (s : State) (c : Fin 12) (f : LfChannel → LfChannel) : State :=
  { s with vert := { s.vert with ch := vmod s.vert.ch c f } }

/-- The number that a SEL word carries for a channel: none is 15, the slot's release. -/
def selCode (ch : Option (Fin 12)) : Option Nat := ch.map (·.val)

/-- SEL (R66, R83): the channel is connected to this slot only, or the slot is released; a bridge that has not come to its
stop drives its channel until then (R85). -/
def doVertSel (slot : Fin 3) (ch : Option (Fin 12)) (s : State) : State :=
  runInstr s .vert (.sel slot.val (selCode ch)) 1 1 fun t =>
    let t1 := { t with vert := { t.vert with
      slot := vmap t.vert.slot fun x =>
        if ch.isSome && decide (x.ch = ch) then { x with ch := none, driven := false } else x } }
    modSlot t1 slot fun x => { x with ch := ch }

/-- A slot takes a new amplitude or phase: at the next DRIVE_ON where it is idle, at its next carrier period boundary where
it is driven (R85). -/
def setSlot (s : State) (i : Fin 3) (f : LfSlot → LfSlot) : State :=
  let l := s.vert.slot[i]
  modSlot s i fun x => f { x with
    ampWas := BitVec.ofNat 6 (actAmp l (now s)), phWas := BitVec.ofNat 8 (actPh l (now s))
    setAt := if l.driven then slotEdge s.vert i (now s) else l.offAt }

/-- SET_AMP (R83, R85). -/
def doSetAmp (slot : Fin 3) (amp : BitVec 6) (s : State) : State :=
  runInstr s .vert (.setAmp slot.val amp.toNat) 1 1 fun t => setSlot t slot fun x => { x with amp := amp }

/-- SET_PH (R83, R85). -/
def doSetPh (slot : Fin 3) (ph : Byte) (s : State) : State :=
  runInstr s .vert (.setPh slot.val ph.toNat) 1 1 fun t => setSlot t slot fun x => { x with ph := ph }

/-- SET_PH_BUF (R83, R85): the phase is replaced by, or increased modulo 256 by, a byte of the LF data buffer. -/
def doSetPhBuf (slot : Fin 3) (add : Bool) (b : Fin 32) (s : State) : State :=
  runInstr s .vert (.setPhBuf slot.val add b.val) 1 1 fun t =>
    let v := memRead t.vert.buf b.val
    setSlot t slot fun x => { x with ph := if add then x.ph + v else v }

/-- SET_FREQ (R83): the NCO frequency, and whether the frequency trim of the channel in S0 applies. -/
def doSetFreq (trim : Bool) (freq : W16) (s : State) : State :=
  runInstr s .vert (.setFreq trim freq.toNat) 2 2 fun t => { t with vert := { t.vert with freq := freq, freqTrim := trim } }

/-- A slot that DRIVE_ON starts: its bridge starts at its first carrier period boundary after tick `t` (R85). -/
def driveSlot (v : Vert) (mask t : Nat) (i : Fin 3) : LfSlot :=
  let l := v.slot[i]
  if bitAt mask i.val && chDrivable v l.ch && !l.driven then { l with driven := true, onAt := slotEdge v i t }
  else l

/-- DRIVE_ON (R85): the bridge of each masked slot starts at the slot's first carrier period boundary.
DEDUCED, log 30. -/
def doDriveOn (mask : BitVec 3) (s : State) : State :=
  runInstr s .vert (.driveOn mask.toNat) 1 1 fun t =>
    { t with vert := { t.vert with slot := Vector.ofFn (driveSlot t.vert mask.toNat (now t)) } }

/-- DRIVE_OFF (R85): the masked slots stop; a window on one of them ends early (R88). DEDUCED, log 30, 32. -/
def doDriveOff (mask : BitVec 3) (s : State) : State :=
  runInstr s .vert (.driveOff mask.toNat) 1 1 fun t =>
    let t1 := cutMask t mask.toNat
    { t1 with vert := slotsOff t1.vert (now t1) mask.toNat }

/-- A slot that a SEND takes over: a drive goes on to the SEND's first edge (R86). -/
def sendTakes (v : Vert) (sd : LfSend) (t : Nat) (i : Fin 3) : LfSlot :=
  let l := v.slot[i]
  if bitAt sd.mask.toNat i.val && l.driven then
    { l with driven := false, tail := slotDrives v t i, offAt := if slotOn v t i then sendEdge v sd i 0 else 0 }
  else l

/-- SEND (R86): the bits start at the tick of the WAIT_TB before it; the slots' state before it does not matter. -/
def doSend (mask : BitVec 3) (n first : Byte) (s : State) : State :=
  startInstr s .vert (.send mask.toNat n.toNat first.toNat) 2 (fun _ => .op) fun t =>
    let sd : LfSend := { mask := mask, n := n.toNat, first := first.toNat, wt := t.vert.lastTb }
    { t with vert := { t.vert with send := some sd, slot := Vector.ofFn (sendTakes t.vert sd (now t)) } }

/-- A slot that a SEND leaves: idle from its last edge on (R86). -/
def sendLeaves (v : Vert) (sd : LfSend) (t : Nat) (i : Fin 3) : LfSlot :=
  let l := v.slot[i]
  if bitAt sd.mask.toNat i.val then
    { l with driven := false, tail := slotDrives v t i, offAt := if slotOn v t i then sendEdge v sd i (2 * sd.n) else 0 }
  else l

/-- SEND_COMPLETE (R86, R89): N × 4,800 ticks after its WAIT_TB the SEND ends and the program goes on. -/
def doSendComplete (s : State) : State :=
  match s.vert.send with
  | none => s
  | some sd =>
    let t := sd.wt + 4800 * sd.n
    let s1 := elapseTo s t
    if now s1 < t then s1
    else seqResume { s1 with vert := { s1.vert with send := none, slot := Vector.ofFn (sendLeaves s1.vert sd (now s1)) } } .vert

/-- The carrier period boundaries at which the windows of the masked slots start, and those `w` periods later (R88).
DEDUCED, log 33. -/
def windowEdges (v : Vert) (mask t w : Nat) : List Nat :=
  (maskSlots mask).map fun i => slotEdge v ⟨i % 3, Nat.mod_lt _ (by decide)⟩ t w

/-- MEASURE (R88): a window opens over the W carrier periods that follow each slot's next boundary; the program goes
on. WIN_TICK is the first of these boundaries; the window ends with the last slot's last period. DEDUCED, log 33. -/
def doMeasure (mask : BitVec 3) (rcd : Fin 16) (periods : BitVec 4) (s : State) : State :=
  runInstr s .vert (.measure mask.toNat rcd.val periods.toNat) 1 1 fun t =>
    let v := t.vert
    let st := windowEdges v mask.toNat (now t) 0
    let last := (windowEdges v mask.toNat (now t) periods.toNat).foldl Nat.max (now t)
    { t with vert := { v with windows := v.windows ++ [{
        mask := mask, rcd := rcd, slots := v.slot, uncomp := decide (v.freq ≠ v.nomFreq), periods := periods.toNat
        start := st.foldl Nat.min last, stop := last }] } }

/-- The channels that a window measured while they were driven: their bursts are covered by a MEASURE (R72). -/
def coverWindow (v : Vert) (w : LfWindow) : Vert :=
  { v with ch := Vector.ofFn fun c : Fin 12 =>
      if (List.finRange 3).any fun i => bitAt w.mask.toNat i.val && decide ((w.slots[i]).ch = some c) then
        { v.ch[c] with runCovered := decide ((v.ch[c]).run ≠ 0) }
      else v.ch[c] }

/-- MEASURE_WINDOW_END (R88): the window of a record runs to its end; peak current and phase of each slot as measured. -/
def doMeasureWindowEnd (rcd : Fin 16) (i0 : BitVec 12) (p0 : Byte) (i1 : BitVec 12) (p1 : Byte) (i2 : BitVec 12) (p2 : Byte)
    (s : State) : State :=
  match s.vert.windows.find? fun w => w.rcd = rcd with
  | none => s
  | some w =>
    let s1 := elapseTo s w.stop
    if now s1 < w.stop then s1
    else
      let m : Fin 3 → BitVec 12 × Byte := fun i => if i.val = 0 then (i0, p0) else if i.val = 1 then (i1, p1) else (i2, p2)
      { s1 with vert := coverWindow { writeRes s1.vert w m false with windows := s1.vert.windows.filter (· ≠ w) } w }

/-! ### Channel classes (R78 to R80) -/

/-- The code of LF_CH_STAT.CLASS. -/
def lfCode : LfClass → Nat
  | .normal => 0 | .lowCurrent => 1 | .openCoil => 2 | .short => 3 | .detuned => 4 | .unpopulated => 5

/-- Classes out of service. -/
def lfOut (k : LfClass) : Bool := k = .openCoil || k = .short || k = .detuned

/-- EVT_ANTENNA for an LF channel (R395). -/
def evtLf (s : State) (c : Fin 12) (old : LfClass) (cause : Nat) : State :=
  let new := (s.vert.ch[c]).cls
  let svc := bitAt s.vert.svc.toNat c.val
  postEvent s 11 (if lfOut new then .antennaFault else .ok)
    [0, byte c.val, byte (lfCode old), byte (lfCode new), byte (b2n svc), byte cause]

/-- A channel takes a class: LF_EVENT is set when it changed; leaving service clears IN_SERVICE. DEDUCED, log 37. -/
def setClass (s : State) (c : Fin 12) (k : LfClass) : State :=
  let old := (s.vert.ch[c]).cls
  let s1 := modCh (if old = k then s else anomSet s 4) c fun x => { x with cls := k, nOpen := 0, nDetuned := 0, nLow := 0, nGood := 0 }
  let bit := BitVec.ofNat 12 (2 ^ c.val)
  { s1 with vert := { s1.vert with
      event := if old = k then s1.vert.event else s1.vert.event ||| bit
      svc := if lfOut k || k = .unpopulated then s1.vert.svc &&& ~~~bit else s1.vert.svc } }

/-- A Vert START that waits to fire and whose program uses a channel. -/
def startUses (s : State) (c : Fin 12) (n : Fin 128) : Bool :=
  let e := entryOf s n
  entryWaits e && e.island.toNat == 0 && e.action.toNat == 1 &&
    match programAt s .vert e.arg.toNat with
    | some ops => (progChannels ops).contains c.val
    | none => false

/-- R80 when a channel leaves service: every Vert entry whose program uses it is cancelled with CANCEL_STOP, with the reply
window that waits for its frame, and what it served is planned again on the coils that stand for it.
DEDUCED, log 70. -/
def lfFailover (s : State) (c : Fin 12) : State :=
  let stop (t : State) (n : Fin 128) : State := if entryActive (entryOf t n) then (cancelStopEntry t n .launchLate).1 else t
  (List.finRange 128).foldl (fun t n =>
    if startUses s c n && entryWaits (entryOf t n) then
      let t1 := (cancelStopEntry t n .launchLate).1
      match t1.pres.run with
      | some r => unsent ((r.plans.filter fun p => p.1 == n).foldl (fun u p => stop u p.2) t1) n
      | none => t1
    else t) s

/-- The running program uses the channel (R78, R91). -/
def chRuns (s : State) (c : Fin 12) : Bool :=
  match s.seqs.vert.entry with
  | none => false
  | some n => match programAt s .vert (entryOf s n).arg.toNat with
    | some ops => (progChannels ops).contains c.val
    | none => s.vert.slot.toList.any fun x => x.ch = some c

/-- A duty account ended the burst of the same channel first: the firing, still on its way to Celeste with BUSY, completes
with ANTENNA_FAULT (R91). DEDUCED, log 175. -/
def faultOverBusy (s : State) : State :=
  { s with cel := { s.cel with completions := s.cel.completions.map fun x =>
      if (entryOf s x.entry).island = 0 ∧ x.status = statusCode .busy ∧ s.vert.dutyHold then
        { x with status := statusCode .antennaFault }
      else x } }

/-- A channel leaves service as SHORT, OPEN or DETUNED: a program that uses it halts with ANTENNA_FAULT, and R80
follows (R78, R91). -/
def lfFault (s : State) (c : Fin 12) (k : LfClass) : State :=
  let old := (s.vert.ch[c]).cls
  let s1 := evtLf (setClass s c k) c old 0
  lfFailover (if chRuns s1 c then endProgram s1 .vert .antennaFault else faultOverBusy s1) c

/-- TRIM, or CAP on LF0 to LF3, still has room in the direction that corrects a phase error (R79): a positive error
asks for a lower frequency trim and less capacitance. DEDUCED, log 35. -/
def trimLeft (x : LfChannel) (c : Fin 12) (ph : Int) : Bool :=
  if 0 ≤ ph then decide (-64 < x.trim) || (decide (c.val < 4) && decide (0 < x.cap.toNat))
  else decide (x.trim < 64) || (decide (c.val < 4) && decide (x.cap.toNat < 7))

/-- A list of the last eight values. -/
def last8 (l : List Int) (x : Int) : List Int := (l ++ [x]).drop ((l.length + 1) - 8)

/-- Conditions of R78 on one burst: OPEN's, DETUNED's, LOW_CURRENT's and the recovery's. Commanded current is
AMP × 1,500 ⁄ 63 mA (R67). -/
def burstOpen (amp i : Nat) : Bool := decide (8 ≤ amp) && decide (630 * i < 1500 * amp)

def burstDetuned (ph : Int) : Bool := decide (18 < ph) || decide (ph < -18)

def burstLow (amp i : Nat) (ph : Int) : Bool := decide (6300 * i < 120000 * amp) && !burstOpen amp i && !burstDetuned ph

def burstGood (amp i : Nat) : Bool := decide (135000 * amp ≤ 6300 * i)

/-- Counts and registers of a channel after a measured burst. STRIKES counts a burst that meets the condition of OPEN,
DETUNED or LOW_CURRENT as out of limit, in one count that a sweep clears. DESIGN CHOICE, log 174. -/
def noteBurst (x : LfChannel) (b : LfBurst) (ph : Byte) (i : BitVec 12) (residual : Byte) : LfChannel :=
  let amp := b.amp
  let p := s8 ph.toNat
  let o := burstOpen amp i.toNat
  let d := burstDetuned p
  let l := burstLow amp i.toNat p
  { x with
    phErr := ph, iMeas := i, ended := none
    strikes := if o || d || l then satTo 7 x.strikes else 0
    nOpen := if o then x.nOpen + 1 else 0
    nDetuned := if d then x.nDetuned + 1 else 0
    nLow := if l then x.nLow + 1 else 0
    nGood := if burstGood amp i.toNat then x.nGood + 1 else 0
    single := if b.coherent then x.single else last8 x.single p
    coherent := if b.coherent && b.atNominal then last8 x.coherent (s8 residual.toNat) else x.coherent }

/-- A channel that becomes DETUNED with trim left in the correcting direction is swept once more, outside the 10-minute
spacing (R79). -/
def sweepOnce (s : State) (c : Fin 12) (ph : Int) : State :=
  if trimLeft s.vert.ch[c] c ph then modCh s c fun y => { y with sweepReq := true, sweepExtra := true } else s

/-- LF_BURST_MEASURED (R72, R78): the burst monitor measures the channel's last burst, one of at least 16 carrier periods or
covered by a MEASURE; no class changes while a supply is outside its range (R424, R476). A burst that completes OPEN's two and DETUNED's three gives OPEN.
DESIGN CHOICE, log 174. -/
def doLfBurstMeasured (c : Fin 12) (phErr : Byte) (iMeas : BitVec 12) (residual : Byte) (s : State) : State :=
  let old := (s.vert.ch[c]).cls
  match (s.vert.ch[c]).ended with
  | none => s
  | some b =>
    if old = .unpopulated || !b.measurable then s
    else
      let s1 := modCh s c fun x => noteBurst x b phErr iMeas residual
      let x := s1.vert.ch[c]
      if lfOut old || s.pwr.vbatLow || s.pwr.vbatOvp || s.vert.vlfUv then s1
      else if 2 ≤ x.nOpen then lfFault s1 c .openCoil
      else if 3 ≤ x.nDetuned then sweepOnce (lfFault s1 c .detuned) c (s8 phErr.toNat)
      else if old = .normal && decide (3 ≤ x.nLow) then evtLf (setClass s1 c .lowCurrent) c old 0
      else if old = .lowCurrent && decide (8 ≤ x.nGood) then evtLf (setClass s1 c .normal) c old 0
      else s1

/-- LF_OVERCURRENT_TRIP (R78): the 2.2 A comparator trips; the bridge turns off. -/
def doLfOvercurrentTrip (c : Fin 12) (s : State) : State :=
  let k := (s.vert.ch[c]).cls
  if k = .normal ∨ k = .lowCurrent then
    lfFault { s with vert := slotsCut s.vert (slotHolds c) } c .short
  else s

/-- LF_POP_WRITE (R78): channels become UNPOPULATED, or NORMAL and out of service until a check or sweep passes.
DEDUCED, log 37. -/
def lfPopWrite (pop : BitVec 12) (s : State) : State :=
  let old := s.vert.pop
  let s1 := { s with vert := { s.vert with pop := pop } }
  (List.finRange 12).foldl (fun t c =>
    match bitAt old.toNat c.val, bitAt pop.toNat c.val with
    | true, false =>
      let t1 := setClass t c .unpopulated
      lfFailover { t1 with vert := slotsCut t1.vert (slotHolds c) } c
    | false, true => setClass t c .normal
    | _, _ => t) s1

/-- LF_POP_WRITE: bits [11:0] of the written word. -/
def doLfPopWrite (v : W32) (s : State) : State := lfPopWrite (BitVec.ofNat 12 v.toNat) s

/-! ### Duty accounts (R70) -/

/-- Ticks from `t` until a channel's account reaches its capacity under the drive as it stands; none: it does not. -/
def ticksToCap : Nat → Vert → Nat → Fin 12 → Option Nat
  | 0, _, _, _ => none
  | k + 1, v, t, c =>
    let acc := (v.ch[c]).duty
    let seg := segLen v t (2 ^ 40)
    let rise := match drivenAmp v t c with
      | some a => 10 * a * a - 3969
      | none => 0
    if 0 < rise ∧ ceilDiv (dutyCap - acc) rise ≤ seg then some (ceilDiv (dutyCap - acc) rise)
    else if seg = 2 ^ 40 then none
    else (ticksToCap k (dutySeg v t seg) (t + seg) c).map (· + seg)

/-- DUTY_CAPACITY_REACHED (R70, R91): the bridge turns off, the program halts with BUSY and DUTY_HOLD is set; an account that
stands at its capacity after a coil fault of the same burst sets DUTY_HOLD as well. -/
def doDutyCapacityReached (c : Fin 12) (s : State) : State :=
  match ticksToCap 2000 s.vert (now s) c with
  | none => if dutyCap ≤ (s.vert.ch[c]).duty then { s with vert := { s.vert with dutyHold := true } } else s
  | some n =>
    if s.cel.tbRun then
      let s1 := elapse s n
      endProgram { s1 with vert := { slotsCut s1.vert (slotHolds c) with dutyHold := true } } .vert .busy
    else s

/-- Ticks until every account is below 9,000 with no channel driven. -/
def ticksToLow (v : Vert) : Nat :=
  v.ch.toList.foldl (fun m x => Nat.max m (if x.duty < dutyLow then 0 else (x.duty - dutyLow) / 3969 + 1)) 0

/-- DUTY_HOLD_CLEAR (R70): every account is below 9,000. -/
def doDutyHoldClear (s : State) : State :=
  if s.vert.dutyHold then
    let driven := s.vert.send.isSome || s.vert.slot.toList.any fun x => x.driven || decide (now s < x.offAt)
    let s1 := if driven then s else elapse s (ticksToLow s.vert)
    if s1.vert.ch.toList.all fun x => decide (x.duty < dutyLow) then { s1 with vert := { s1.vert with dutyHold := false } }
    else s1
  else s

/-! ### Over-temperature (R71) -/

/-- LF_OVERTEMP: every bridge turns off; a running program halts with ANTENNA_FAULT. -/
def doLfOvertemp (s : State) : State :=
  let s1 := { s with vert := { s.vert with overtemp := true, hotAt := if s.vert.overtemp then s.vert.hotAt else s.clock } }
  let s2 := endProgram s1 .vert .antennaFault
  { s2 with vert := slotsCut s2.vert fun _ => true }

/-- Attempts of S11 that OVERTEMP has failed, each by remaining set for 20 ms (R77, R431). -/
def hotTries (s : State) : Nat :=
  if s.vert.overtemp && s.boot.step == 11 then
    s.boot.hotFails + (s.clock - Nat.max s.boot.stepAt s.vert.hotAt) / (20 * ticksPerMs)
  else s.boot.hotFails

/-- LF_OVERTEMP_CLEAR: all sensors read below 145 °C. -/
def doLfOvertempClear (s : State) : State :=
  { s with
    vert := { s.vert with overtemp := false }
    boot := { s.boot with hotFails := hotTries s } }

/-! ### Tracking and sweeps (R72 to R79) -/

/-- A tracking step of a channel (R78's tracking rules): TRIM against the mean of eight single-channel bursts beyond 3
steps, CAP when TRIM reaches ±56, PH_COMP against the mean residual of eight coherent bursts beyond 1 step; the
answer's number counts the steps. DEDUCED, log 34. -/
def trackStep (x : LfChannel) (c : Fin 12) : LfChannel × Nat :=
  let sum := x.single.sum
  let dir : Int := if x.single.length < 8 then 0 else if 24 < sum then -1 else if sum < -24 then 1 else 0
  let trim := clampInt (-64) 64 (x.trim + dir)
  let moved := decide (trim ≠ x.trim)
  let cap : Nat :=
    if moved && decide (c.val < 4) then
      if trim ≤ -56 then x.cap.toNat - 1 else if 56 ≤ trim then Nat.min 7 (x.cap.toNat + 1) else x.cap.toNat
    else x.cap.toNat
  let res := x.coherent.sum
  let dc : Int := if x.coherent.length < 8 then 0 else if 8 < res then 1 else if res < -8 then -1 else 0
  let comp := clampInt (-128) 127 (x.phComp + dc)
  ({ x with trim := trim, cap := BitVec.ofNat 3 cap, phComp := comp },
    b2n moved + b2n (decide (cap ≠ x.cap.toNat)) + b2n (decide (comp ≠ x.phComp)))

/-- LF_TRACKING_STEP (R91, R93, R444): once after each HALT, while no Vert program runs, for a channel in service; the
trims will be saved. DEDUCED, log 38. -/
def doLfTrackingStep (c : Fin 12) (s0 : State) : State :=
  if seqRuns s0 .vert || !bitAt s0.vert.svc.toNat c.val || !bitAt s0.vert.trackDue.toNat c.val then s0
  else
    let s := { s0 with vert := { s0.vert with trackDue := s0.vert.trackDue &&& ~~~(BitVec.ofNat 12 (2 ^ c.val)) } }
    let (x, n) := trackStep s.vert.ch[c] c
    if n = 0 then s
    else
      let s1 := modCh s c fun _ => x
      markDirty { s1 with vert := { s1.vert with nRetune := Nat.min 0xFFFFFFFF (s1.vert.nRetune + n) } } calLf

/-- Whether DIAG_LF_SWEEP still has the channel to sweep. -/
def diagSweeps (s : State) (c : Fin 12) : Bool :=
  s.cmds.longs.any fun l => match l.work with
    | .lfSweep m _ => bitAt m.toNat c.val
    | _ => false

/-- A channel swept for a DIAG_LF_SWEEP. -/
def diagSwept (s : State) (c : Fin 12) : State :=
  { s with cmds := { s.cmds with longs := s.cmds.longs.map fun l => match l.work with
      | .lfSweep m t => { l with work := .lfSweep (m &&& ~~~(BitVec.ofNat 12 (2 ^ c.val))) t, committed := true }
      | _ => l } }

/-- The conditions under which a sweep may run (R79, R261, R427). -/
def sweepMay (s : State) : Bool := !s.keys.svcLock && !s.vert.overtemp && !s.pwr.vbatLow && !s.pwr.vbatOvp && !s.vert.vlfUv

/-- TRIM at the zero crossing of PH_ERR over eight frequencies spread evenly over ±4 %, interpolated between the two
neighbours where the sign changes; none where it does not change (R76 step 3). DEDUCED, log 36. -/
def zeroTrim : List Int → Nat → Option Int
  | p :: q :: l, j =>
    if p ≤ 0 ∧ 0 ≤ q ∧ p < q then
      -- −64 + 128 ⁄ 7 × (j − p ⁄ (q − p))
      some (clampInt (-64) 64 (-64 + roundDiv (128 * ((j : Int) * (q - p) - p)) (7 * (q - p))))
    else zeroTrim (q :: l) (j + 1)
  | _, _ => none

/-- CAP by binary search from the most significant bit on the sign of PH_ERR: a bit whose code reads above resonance
is dropped (R76 step 2). -/
def searchCap (k : List Int) : Nat :=
  (k.zip [4, 2, 1]).foldl (fun cap p => if 0 < p.1 then cap else cap + p.2) 0

/-- The sweep's classification by the thresholds of R78 at AMP 8, in place of consecutive counts (R76 step 5): a channel
that was LOW_CURRENT returns to NORMAL from 90 % of commanded. DEDUCED, log 35. -/
def sweepClass (old : LfClass) (i : Nat) (ph : Int) : LfClass :=
  if burstOpen 8 i then .openCoil else if burstDetuned ph then .detuned
  else if burstLow 8 i ph || (old = .lowCurrent && !burstGood 8 i) then .lowCurrent else .normal

/-- A channel driven alone at amplitude `amp` for `n` ticks with no program running: its duty account rises and the burst
counts (R70, R75, R76, R92, R93); its measurement belongs to the check or sweep. DEDUCED, log 31. -/
def driveAlone (c : Fin 12) (amp n : Nat) (s : State) : State :=
  let on : LfSlot := { ch := some c, amp := BitVec.ofNat 6 amp, driven := true, onAt := now s }
  let s1 := elapse { s with vert := { s.vert with slot := vset (Vector.replicate 3 {}) 0 on, sweeping := some c } } n
  modCh { s1 with vert := { s1.vert with slot := s.vert.slot, sweeping := s.vert.sweeping } } c fun x =>
    { x with run := 0, runMulti := false, runCovered := false, ended := none }

/-- A channel driven alone up to tick `p`, in bursts of `step` ticks. -/
def driveUntil (c : Fin 12) (amp step p : Nat) (s : State) : State :=
  let d := p - now s
  let s1 := Nat.repeat (driveAlone c amp step) (d / step) s
  if d % step = 0 then s1 else driveAlone c amp (d % step) s1

/-- The drives of one sweep: 62.5 µs at AMP 8 at eight frequencies, on LF0 to LF3 at three capacitor codes, and at F_LF
(R76). -/
def sweepDrives (c : Fin 12) : Nat := if c.val < 4 then 12 else 9

/-- One sweep of a channel (R76) with its measurements: PH_ERR at the eight frequencies, at the three capacitor codes,
and peak current and PH_ERR of the burst at F_LF. A crossing that the frequencies do not show leaves TRIM open. A channel
that a sweep makes DETUNED with trim left is swept once more (R79); R80 follows where it leaves service.
DEDUCED, log 35. -/
def sweepRun (s : State) (c : Fin 12) (f : Vector Byte 8) (k : Vector Byte 3) (i : BitVec 12) (ph : Byte) : State :=
  let s0 := Nat.repeat (driveAlone c 8 2400) (sweepDrives c) s
  let zero := zeroTrim (f.toList.map fun b => s8 b.toNat) 0
  let free : Int := (Config.freeNat s0.freeCtr % 129 : Nat) - 64
  let old := (s0.vert.ch[c]).cls
  let s1 := modCh { s0 with freeCtr := if zero.isNone then s0.freeCtr + 1 else s0.freeCtr } c fun x =>
    { x with
      trim := zero.getD free
      cap := if c.val < 4 then BitVec.ofNat 3 (searchCap (k.toList.map fun b => s8 b.toNat)) else 0
      phComp := s8 ph.toNat, phErr := ph, iMeas := i
      sweepReq := false, sweepExtra := false, sweepAt := some (rtcNow s0), strikes := 0 }
  let r := sweepClass old i.toNat (s8 ph.toNat)
  if lfOut r then
    if lfOut old then evtLf s1 c old 2
    else
      let s2 := lfFailover (evtLf (setClass s1 c r) c old 2) c
      if r = .detuned then sweepOnce s2 c (s8 ph.toNat) else s2
  else
    let new := if lfOut old then LfClass.normal else r
    let s2 := setClass s1 c new
    let s3 := { s2 with vert := { s2.vert with svc := s2.vert.svc ||| BitVec.ofNat 12 (2 ^ c.val) } }
    if new = old then s3 else evtLf s3 c old 1

/-- The tick at which the next entry is posted to an island: t_POST before the earliest due tick (R41). -/
def nextPosting (s : State) (island : Nat) : Option Nat :=
  (s.cel.entries.toList.filter fun e => postable e && e.island.toNat == island).foldl
    (fun m e => some (match m with
      | some x => Nat.min x (e.due - tPost)
      | none => e.due - tPost)) none

/-- The posting to Vert to which a check or sweep of `n` ticks yields (R48, R91). -/
def sweepYields (s : State) (n : Nat) : Option Nat := (nextPosting s 0).filter fun p => decide (p < now s + n)

/-- A channel's check or sweep yields at tick `p`: it was driven until then and holds its place (R70, R91, R93). -/
def sweepYield (c : Fin 12) (amp step p : Nat) (s : State) : State :=
  let t := driveUntil c amp step p s
  { t with vert := { t.vert with sweeping := some c } }

/-- A sweep of the channel is asked for, by the steward or by DIAG_LF_SWEEP. -/
def sweepAsked (s : State) (c : Fin 12) : Bool := bitAt s.vert.pop.toNat c.val && ((s.vert.ch[c]).sweepReq || diagSweeps s c)

/-- LF_STATUS (R92): SWEEP while a check or sweep is in progress or has yielded and is still asked for. -/
def lfStatus (s : State) : Nat :=
  let sweep := match s.vert.sweeping with
    | some c => sweepAsked s c
    | none => false
  b2n (seqRuns s .vert) + 2 * b2n s.vert.overtemp + 4 * b2n s.vert.tuneWe + 8 * b2n sweep + 16 * b2n s.vert.dutyHold

/-- LF_SWEEP (R76, R79, R91): a requested sweep runs once its conditions hold and no Vert entry is posted or running; the
extra request of a DETUNED channel also waits until none is armed. A posting within the sweep makes it yield, to restart
from its step 1 after the firing's HALT. DEDUCED, log 38. -/
def doLfSweep (c : Fin 12) (f : Vector Byte 8) (k : Vector Byte 3) (i : BitVec 12) (ph : Byte) (s : State) : State :=
  let x := s.vert.ch[c]
  let mine (e : LaunchEntry) : Bool := e.island.toNat == 0 && (e.state = .posted || e.state = .running || (x.sweepExtra && e.state = .armed))
  if sweepAsked s c && sweepMay s && !seqRuns s .vert && !(s.cel.entries.toList.any mine) then
    match sweepYields s (2400 * sweepDrives c) with
    | some p => sweepYield c 8 2400 p s
    | none =>
      let t := diagSwept (sweepRun s c f k i ph) c
      markDirty { t with vert := { t.vert with sweeping := none } } calLf
  else s

/-- LF_SWEEP_SPACING_TIMER (R79): ten minutes after its last sweep the steward requests another of a channel out of
service. -/
def doLfSweepSpacingTimer (c : Fin 12) (s : State) : State :=
  let x := s.vert.ch[c]
  if lfOut x.cls then
    let s1 := match x.sweepAt with
      | some t => elapseToRtc s (t + 600)
      | none => s
    modCh s1 c fun y => { y with sweepReq := true }
  else s

/-! ### The commands of this file -/

/-- VERT_SEL (R83). -/
def execVertSel (slot : Fin 3) (ch : Option (Fin 12)) (s : State) : Host.Outcome State Fault Refusal :=
  done s (doVertSel slot ch s)

/-- SET_AMP (R85). -/
def execSetAmp (slot : Fin 3) (amp : BitVec 6) (s : State) : Host.Outcome State Fault Refusal :=
  done s (doSetAmp slot amp s)

/-- SET_PH (R85). -/
def execSetPh (slot : Fin 3) (ph : Byte) (s : State) : Host.Outcome State Fault Refusal :=
  done s (doSetPh slot ph s)

/-- SET_PH_BUF (R85). -/
def execSetPhBuf (slot : Fin 3) (add : Bool) (b : Fin 32) (s : State) : Host.Outcome State Fault Refusal :=
  done s (doSetPhBuf slot add b s)

/-- SET_FREQ (R83). -/
def execSetFreq (trim : Bool) (freq : W16) (s : State) : Host.Outcome State Fault Refusal :=
  done s (doSetFreq trim freq s)

/-- DRIVE_ON (R85). -/
def execDriveOn (mask : BitVec 3) (s : State) : Host.Outcome State Fault Refusal :=
  done s (doDriveOn mask s)

/-- DRIVE_OFF (R85). -/
def execDriveOff (mask : BitVec 3) (s : State) : Host.Outcome State Fault Refusal :=
  done s (doDriveOff mask s)

/-- SEND (R86). -/
def execSend (mask : BitVec 3) (n : Byte) (first : Byte) (s : State) : Host.Outcome State Fault Refusal :=
  done s (doSend mask n first s)

/-- SEND_COMPLETE (R86). -/
def execSendComplete (s : State) : Host.Outcome State Fault Refusal :=
  done s (doSendComplete s)

/-- MEASURE (R88). -/
def execMeasure (mask : BitVec 3) (rcd : Fin 16) (periods : BitVec 4) (s : State) : Host.Outcome State Fault Refusal :=
  done s (doMeasure mask rcd periods s)

/-- MEASURE_WINDOW_END (R88). -/
def execMeasureWindowEnd (rcd : Fin 16) (i0 : BitVec 12) (p0 : Byte) (i1 : BitVec 12) (p1 : Byte) (i2 : BitVec 12) (p2 : Byte) (s : State) : Host.Outcome State Fault Refusal :=
  done s (doMeasureWindowEnd rcd i0 p0 i1 p1 i2 p2 s)

/-- LF_BURST_MEASURED (R72). -/
def execLfBurstMeasured (c : Fin 12) (phErr : Byte) (iMeas : BitVec 12) (residual : Byte) (s : State) : Host.Outcome State Fault Refusal :=
  done s (doLfBurstMeasured c phErr iMeas residual s)

/-- LF_OVERCURRENT_TRIP (R78). -/
def execLfOvercurrentTrip (c : Fin 12) (s : State) : Host.Outcome State Fault Refusal :=
  done s (doLfOvercurrentTrip c s)

/-- DUTY_CAPACITY_REACHED (R70). -/
def execDutyCapacityReached (c : Fin 12) (s : State) : Host.Outcome State Fault Refusal :=
  done s (doDutyCapacityReached c s)

/-- DUTY_HOLD_CLEAR (R70). -/
def execDutyHoldClear (s : State) : Host.Outcome State Fault Refusal :=
  done s (doDutyHoldClear s)

/-- LF_OVERTEMP (R71). -/
def execLfOvertemp (s : State) : Host.Outcome State Fault Refusal :=
  done s (doLfOvertemp s)

/-- LF_OVERTEMP_CLEAR (R71). -/
def execLfOvertempClear (s : State) : Host.Outcome State Fault Refusal :=
  done s (doLfOvertempClear s)

/-- LF_TRACKING_STEP (R72). -/
def execLfTrackingStep (c : Fin 12) (s : State) : Host.Outcome State Fault Refusal :=
  done s (doLfTrackingStep c s)

/-- LF_SWEEP (R76). -/
def execLfSweep (c : Fin 12) (f : Vector Byte 8) (k : Vector Byte 3) (cur : BitVec 12) (ph : Byte) (s : State) : Host.Outcome State Fault Refusal :=
  done s (doLfSweep c f k cur ph s)

/-- LF_SWEEP_SPACING_TIMER (R79). -/
def execLfSweepSpacingTimer (c : Fin 12) (s : State) : Host.Outcome State Fault Refusal :=
  done s (doLfSweepSpacingTimer c s)

/-- LF_POP_WRITE (R78). -/
def execLfPopWrite (v : W32) (s : State) : Host.Outcome State Fault Refusal :=
  done s (doLfPopWrite v s)

end Sys2Proof.Machine
end

