-- ==== Sys2Proof/Machine/BundleLoad.lean ====
section
/-! DEFINITION. What a load of the configuration bundle writes: profiles, registers, tables and program memories
(R392, R393, R418, R441). -/

namespace Sys2Proof.Machine

open Sys2Proof

/-- A word of a PHY entry (R130). -/
def phyPut (p : AzPhy) (hi : Bool) (v : W32) : AzPhy :=
  if hi then { p with stsqMin := fld v 7 0 8 }
  else { p with
    chan := fld v 0 0 1, prf := fld v 2 1 2, code := fld v 7 3 5, psr := fld v 10 8 3, sfd := fld v 12 11 2
    sp := fld v 14 13 2, stsLen := fld v 16 15 2, stsSeg := fld v 18 17 2, rate := fld v 20 19 2 }

/-- A word of a channel entry (R184). -/
def chanWord (c : TnChannel) (hi : Bool) (v : W32) : TnChannel :=
  if hi then { c with pwrMax := fld v 5 0 6, rxThr := fld v 15 8 8 }
  else { c with freq := fld v 29 0 30, sniff := bitAt v.toNat 30 }

/-- A little-endian word of a section. -/
def secWord (b : Bytes) (off : Nat) : W32 := BitVec.ofNat 32 (leAt b off 4)

/-- The LF section: nominal frequency and population (R69, R78). -/
def loadLf (s : State) (b : Bytes) : State :=
  lfPopWrite (BitVec.ofNat 12 (leAt b 2 2)) { s with vert := { s.vert with nomFreq := BitVec.ofNat 16 (leAt b 0 2) } }

/-- The UWB_PHY section (R130). -/
def loadPhy (s : State) (b : Bytes) : State :=
  let f (i : Fin 8) : AzPhy := phyPut (phyPut s.az.phy[i] false (secWord b (8 * i.val))) true (secWord b (8 * i.val + 4))
  { s with az := { s.az with phy := Vector.ofFn f } }

/-- The populated ports of the UWB_PORTS section. -/
def portsPopulated (b : Bytes) : Nat := (List.range 6).foldl (fun m p => m + 2 ^ p * b2n (bitAt (byteAt b (20 * p + 16)) 0)) 0

/-- The UWB_PORTS section: port population (R144), and, with `delays`, TX_DLY and RX_DLY of each port. -/
def loadPorts (s : State) (b : Bytes) (delays : Bool) : State :=
  let s1 := azPopWrite (BitVec.ofNat 6 (portsPopulated b)) s
  if delays then
    { s1 with az := { s1.az with ports := Vector.ofFn fun p =>
        { s1.az.ports[p] with txDly := BitVec.ofNat 16 (leAt b (20 * p.val + 12) 2), rxDly := BitVec.ofNat 16 (leAt b (20 * p.val + 14) 2) } } }
  else s1

/-- The UHF section: the channel table (R184). A changed table leaves no band-cache entry valid until it is filled. -/
def loadUhf (s : State) (b : Bytes) : State :=
  let f (i : Fin 8) : TnChannel := chanWord (chanWord s.tn.chan[i] false (secWord b (8 * i.val))) true (secWord b (8 * i.val + 4))
  { s with tn := { s.tn with chan := Vector.ofFn f } }

/-- The COEX section (R195). -/
def loadCoex (s : State) (b : Bytes) : State :=
  let f := byteAt b 0
  { s with tn := { s.tn with coex := Vector.ofFn fun p =>
      { s.tn.coex[p] with enabled := bitAt f p.val, failOpen := bitAt f (2 + p.val) } } }

/-- The TOUCH section: TOUCH_CFG of each channel (R418). -/
def loadTouch (s : State) (b : Bytes) : State :=
  { s with pwr := { s.pwr with touch := Vector.ofFn fun c =>
      { s.pwr.touch[c] with
        en := bitAt (byteAt b 0) c.val, thr := BitVec.ofNat 6 (byteAt b (4 + c.val)), confirm := bitAt (byteAt b (4 + c.val)) 6 } } }

/-- The HF_LPCD section. -/
def loadLpcd (s : State) (b : Bytes) : State :=
  { s with hf := { s.hf with thrA := byte (byteAt b 0), thrPh := byte (byteAt b 1) } }

/-- A PROGRAM section's code in a program memory: word w stands at byte 2 w. -/
def programPut (m : Mem) (b : Bytes) : Mem := memWriteBytes m (2 * leAt b 2 2) (slice b 8 (2 * leAt b 4 2))

/-- A PROGRAM section loaded into its engine. -/
def loadProgram (s : State) (b : Bytes) : State :=
  match byteAt b 0 with
  | 0 => { s with vert := { s.vert with prog := programPut s.vert.prog b } }
  | 1 => { s with az := { s.az with prog := programPut s.az.prog b } }
  | _ => { s with tn := { s.tn with prog := programPut s.tn.prog b } }

/-- The three program memories cleared (R441). -/
def clearPrograms (s : State) : State :=
  { s with vert := { s.vert with prog := [] }, az := { s.az with prog := [] }, tn := { s.tn with prog := [] } }

/-- Deep and Double of the GENERAL section (R392). -/
def bundleProfile (b : Bundle) : Bool × Bool :=
  (byteAt (secOfBundle b 1) 2 == 1, byteAt (secOfBundle b 1) 3 == 1)

/-- The profiles that hold from the next Wake: Deep + Double in Blank, else those that PRES_PROFILE persisted or the bundle's
(R24). -/
def profilesOf (s : State) : Bool × Bool :=
  if lcOf s = .blank then (true, true)
  else s.orr.profile.getD ((s.cmds.bundle.map bundleProfile).getD (s.pres.nextDeep, s.pres.nextDouble))

/-- The profiles of the next Wake follow what decides them (R24). -/
def nextProfiles (s : State) : State :=
  { s with pres := { s.pres with nextDeep := (profilesOf s).1, nextDouble := (profilesOf s).2 } }

/-- A bundle loaded: registers, tables and programs; the UHF band cache filled at die temperature `temp` (R189, R441).
`delays` as for `loadPorts`. -/
def loadBundle (s : State) (b : Bundle) (delays : Bool) (temp : Int) : State :=
  let s1 := { s with cmds := { s.cmds with bundle := some b } }
  let s2 := loadPorts (loadPhy (loadLf s1 (secOfBundle b 2)) (secOfBundle b 4)) (secOfBundle b 5) delays
  let s3 := loadLpcd (loadTouch (loadCoex (loadUhf s2 (secOfBundle b 7)) (secOfBundle b 8)) (secOfBundle b 10)) (secOfBundle b 11)
  let s4 := ((b.secs.filter fun p => p.1 == 12).map (·.2)).foldl loadProgram (clearPrograms s3)
  { s4 with tn := { s4.tn with cache := 0xFF, cacheTemp := some temp, refill := false } }

/-! ### The bundle in CFG (R303, R393) -/

/-- The 48 CFG pages. -/
def cfgPages : List (Fin 256) := (List.finRange 48).map fun i => ⟨10 + i.val, Nat.lt_of_lt_of_le (Nat.add_lt_add_left i.isLt 10) (by decide)⟩

/-- The first `n` bytes of the CFG partition's SRAM, 256 a page. -/
def cfgBytes (s : State) (n : Nat) : Bytes :=
  (cfgPages.flatMap fun p => memReadBytes (s.orr.pages[p]).shadow 0 256).take n

/-- LENGTH of the bundle that CFG holds. -/
def cfgLength (s : State) : Nat := leAt (cfgBytes s 16) 12 4

end Sys2Proof.Machine
end

