-- ==== Sys2Proof/Machine/KeyOps.lean ====
section
/-! DEFINITION. The key store: slots and their checks, nonces, NV records, the unmask of S6, invalidation, wrapped
imports, roster keys (R231 to R257, R276 to R278, R479). -/

namespace Sys2Proof.Machine

open Sys2Proof

/-! ### Slots (R242, R243) -/

/-- A slot number; none from 224 on. -/
def slotN (n : Nat) : Option (Fin 224) := if h : n < 224 then some ⟨n, h⟩ else none

def slotAt (s : State) (n : Fin 224) : KeySlot := s.keys.slots[n]

def modKey (s : State) (n : Fin 224) (f : KeySlot → KeySlot) : State :=
  { s with keys := { s.keys with slots := vmod s.keys.slots n f } }

/-- GEN of a parent; PARENT 0xFF is RS, whose generation is 0. -/
def genOf (s : State) (p : Byte) : W32 := (vgetN s.keys.slots p.toNat {}).gen

/-- USAGE[11:4] bits: AEAD, CMAC, DERIVE, WRAP, SIGN, VERIFY, ECDH, AQMOS. -/
def useAead : Nat := 0

def useCmac : Nat := 1

def useDerive : Nat := 2

def useWrap : Nat := 3

def useSign : Nat := 4

def useVerify : Nat := 5

def useEcdh : Nat := 6

def useAqmos : Nat := 7

/-- Key length in bytes by TYPE (R243). -/
def keyLen : KeyType → Nat
  | .empty => 0 | .aes128 => 16 | .aes256 => 32 | .secret256 => 32 | .p256priv => 32 | .p384priv => 48
  | .p256pub => 64 | .p384pub => 96

/-- The code of TYPE, and the type of a code; none for reserved codes. -/
def typeCode : KeyType → Nat
  | .empty => 0 | .aes128 => 1 | .aes256 => 2 | .secret256 => 3 | .p256priv => 4 | .p384priv => 5
  | .p256pub => 6 | .p384pub => 7

def typeOf : Nat → Option KeyType
  | 0 => some .empty | 1 => some .aes128 | 2 => some .aes256 | 3 => some .secret256 | 4 => some .p256priv
  | 5 => some .p384priv | 6 => some .p256pub | 7 => some .p384pub | _ => none

/-- The code of STATE. -/
def slotStateCode : SlotState → Nat
  | .empty => 0 | .valid => 1 | .orphaned => 2 | .expired => 3 | .exhausted => 4 | .locked => 5

/-- Whether a type is a public key. -/
def isPublic (t : KeyType) : Bool := t = .p256pub || t = .p384pub

/-- Session slots 192 to 223. -/
def sessionSlot (n : Nat) : Bool := decide (192 ≤ n) && decide (n < 224)

/-- Attribute words 0 to 3 of a slot (R243). DEDUCED, log 74. -/
def attrWords (k : KeySlot) : List Nat :=
  [typeCode k.type + 16 * k.usage.toNat + 4096 * slotStateCode k.state + 32768 * b2n k.persist + 65536 * b2n k.expireReset +
     131072 * b2n k.useEn + 262144 * k.origin.toNat + 1048576 * k.lc.toNat + 16777216 * k.parent.toNat,
   k.uses.toNat, k.pgen.toNat, k.gen.toNat]

/-- The SRAM area of a slot: share 0, and share 1 = M (R241). -/
def sramShares (k : KeySlot) : Bytes × Bytes := (xorBytes (padTo 48 (k.key.getD [])) k.mask, k.mask)

/-- Whether a slot's column of R242 says that it is backed in NV. -/
def nvSlot (s : State) (n : Nat) : Bool :=
  (decide (n < 160) && !s.keys.depot) || n == 165 || (decide (172 ≤ n) && decide (n < 175))

/-- The checks of R244 on a named slot, in order; `use`: the USAGE bit that the operation needs.
A slot marked AQMOS serves the Aqmos constructions alone. -/
def slotRefusal (s : State) (k : KeySlot) (use : Nat) : Option Status :=
  if k.state = .locked then some .wrongState
  else if k.state = .orphaned ∨ k.pgen ≠ genOf s k.parent then some .keyOrphaned
  else if k.state = .expired then some .keyExpired
  else if k.state = .exhausted then some .useExhausted
  else if k.state = .empty then some .paramRange
  else if !bitAt k.usage.toNat use || (use != useAqmos && bitAt k.usage.toNat useAqmos) then some .policyDenied
  else if k.useEn ∧ k.uses = 0 then some .useExhausted
  else none

/-! ### Randomness (R283) -/

/-- A DRBG request counted; after 65,536 requests the DRBG is reseeded and the count starts again (R283). -/
def drbgUse (s : State) : State :=
  if 65536 ≤ s.gq.drbgReqs then { s with gq := { s.gq with drbgReqs := 1, drbgAt := now s } }
  else { s with gq := { s.gq with drbgReqs := s.gq.drbgReqs + 1 } }

/-- What a need of randomness meets: WRONG_STATE with the TRNG out of service, RETRY while it restarts (R283). -/
def trngRefusal (s : State) : Option Status :=
  if s.gq.trngOut then some .wrongState else if s.gq.trngRestart then some .retry else none

/-- `n` bytes from the DRBG. -/
def drbgBytes (s : State) (n : Nat) : Bytes × State :=
  let (b, s1) := drawBytes s n
  (b, drbgUse s1)

/-! ### Nonces (R276 to R278) -/

/-- The nonce record of a slot. DEDUCED, log 80. -/
def nonceRec (s : State) (n : Fin 224) : Option NonceRec := s.gq.nonces.find? fun r => r.slot = n

/-- A nonce record stored in place of the slot's earlier one. -/
def setNonce (s : State) (r : NonceRec) : State :=
  { s with gq := { s.gq with nonces := r :: s.gq.nonces.filter fun x => x.slot ≠ r.slot } }

/-- KI of a derived key. DEDUCED, log 80. -/
def derivedKi (key : Bytes) : W32 := BitVec.ofNat 32 (beNat ((Config.cmac key (ascii "KI")).take 4))

/-- The nonce record of a slot that was just written (R277): a derived key keeps its record while its KI is the
same; any other key draws a KI; a slot without AEAD has none. DEDUCED, log 80. -/
def nonceRefresh (s : State) (n : Fin 224) : State :=
  let k := slotAt s n
  if !bitAt k.usage.toNat useAead then { s with gq := { s.gq with nonces := s.gq.nonces.filter fun x => x.slot ≠ n } }
  else if k.origin = 0 then
    let ki := derivedKi (k.key.getD [])
    match nonceRec s n with
    | some r => if r.ki = ki then s else setNonce s { slot := n, ki := ki, next := 0, ctr := 0 }
    | none => setNonce s { slot := n, ki := ki, next := 0, ctr := 0 }
  else
    let (b, s1) := drbgBytes s 4
    setNonce s1 { slot := n, ki := BitVec.ofNat 32 (beNat b), next := 0, ctr := 0 }

/-- The next nonce of a slot; none when the next block of 4,096 counters would pass the last counter (R278).
DEDUCED, log 80. -/
def takeNonce (s : State) (n : Fin 224) : Option Bytes × State :=
  match nonceRec s n with
  | none => (none, s)
  | some r =>
    let fresh := decide (r.ctr = r.next)
    if fresh && decide (2 ^ 64 < r.next + 4096) then (none, s)
    else
      let r1 : NonceRec := { r with ctr := r.ctr + 1, next := if fresh then r.next + 4096 else r.next }
      let s1 := setNonce s r1
      (some (beBytes 4 r.ki.toNat ++ beBytes 8 r.ctr),
        if fresh then { s1 with gq := { s1.gq with nNblock := satInc s1.gq.nNblock } } else s1)

/-- A Gules reset: counters resume at the stored NEXT; a slot with EXPIRE_RESET loses its counter (R250, R278). -/
def nonceReset (s : State) : State :=
  { s with gq := { s.gq with nonces := (s.gq.nonces.filter fun r => !(slotAt s r.slot).expireReset).map fun r => { r with ctr := r.next } } }

/-! ### Writing a slot and its NV record (R241, R250) -/

/-- The root in use (R235); none in Retired. -/
def rootOf (s : State) : Option RootSel :=
  match lcOf s with
  | .retired => none
  | .blank => some (if s.keys.debug then .debug else .blank)
  | .provisioned => some (if s.keys.debug then .debug else .provisioned)
  | .fielded => some .fielded
  | .servicing => some .servicing

/-- The state constants (R235). DESIGN CHOICE, log 75. -/
def rootConst : RootSel → Nat
  | .blank => 0xB1A00C01 | .provisioned => 0x9A071E02 | .fielded => 0xF1E1D003 | .servicing => 0x5E7C1704
  | .debug => 0xDEB60905

/-- Slots 163 and 164, whose keys wrap the NV records. -/
def slotNvw : Fin 224 := 163

def slotRw : Fin 224 := 164

/-- Whether an area is torn: partly programmed without ROOT_DONE (R231). -/
def areaTorn (a : RootArea) : Bool := !a.committed && !(allZero a.shareB && allZero a.shareA && allZero a.check)

/-- The root area in use: area 0, or area 1 once area 0 is torn (R231). -/
def rootArea (k : KeyStore) : RootArea := if areaTorn k.area0 then k.area1 else k.area0

/-- RS, recombined from the shares inside the KDF datapath; none where no root is committed (R231, R232). -/
def rootSecret (k : KeyStore) : Option Bytes :=
  let a := rootArea k
  if a.committed then some (xorBytes a.shareA a.shareB) else none

/-- The integrity key of public-key records, which has no slot (R234, R241). -/
def pubKey (s : State) : Bytes := Config.kdf ((rootSecret s.keys).getD []) (ascii "TV8160-PUB") (serialBytes s) 256

/-- The key that wraps the records of a PARENT: K_RW below slot 164, else K_NVW (R241). -/
def wrapKey (slots : Vector KeySlot 224) (parent : Byte) : Bytes :=
  (slots[if parent = 164 then slotRw else slotNvw]).key.getD []

/-- Associated data of a record: its attribute words and the slot index. DEDUCED, log 74. -/
def recordAd (n : Fin 224) (v : KeyRecord) : Bytes :=
  let k : KeySlot :=
    { type := v.type, usage := v.usage, state := .valid, persist := !v.expireReset, expireReset := v.expireReset, useEn := v.useEn
      origin := v.origin, lc := v.lc, parent := v.parent, uses := v.uses, pgen := v.pgen, gen := v.gen }
  (attrWords k).flatMap (leBytes 4) ++ [byte n.val]

/-- A record sealed: GCM under K_NVW or K_RW, a CMAC under the integrity key for a public key, the attribute words alone with
EXPIRE_RESET (R241, R250). -/
def sealRecord (pub kek iv : Bytes) (n : Fin 224) (v : KeyRecord) : KeyRecord :=
  if v.expireReset then { v with body := [] }
  else if isPublic v.type then { v with tag := Config.cmac pub (recordAd n v ++ v.body) }
  else
    let r := Config.gcm kek iv (recordAd n v) v.body
    { v with body := r.1, iv := iv, tag := r.2 }

/-- The key of a record; none where it does not verify under the keys in use (R241). -/
def openRecord (pub kek : Bytes) (n : Fin 224) (v : KeyRecord) : Option Bytes :=
  if isPublic v.type then (if Config.cmac pub (recordAd n v ++ v.body) = v.tag then some v.body else none)
  else
    let pt := Config.ctrDec false kek v.iv v.body
    if (Config.gcm kek v.iv (recordAd n v) pt).2 = v.tag then some pt else none

/-- The attributes and key of a slot as its record takes them. -/
def keyRecordOf (k : KeySlot) : KeyRecord :=
  { type := k.type, usage := k.usage, useEn := k.useEn, expireReset := k.expireReset, origin := k.origin, lc := k.lc
    parent := k.parent, uses := k.uses, pgen := k.pgen, gen := k.gen, body := k.key.getD [] }

/-- The slot's NV record committed. A secret's IV takes a counter of K_NVW, or of K_RW below PARENT 164; a public key
carries a CMAC and takes none. -/
def commitRecord (s : State) (n : Fin 224) : State :=
  let k := slotAt s n
  let (iv, s1) := if isPublic k.type || k.expireReset then (none, s) else takeNonce s (if k.parent = 164 then slotRw else slotNvw)
  modKey s1 n fun x => { x with
    nv := some (sealRecord (pubKey s1) (wrapKey s1.keys.slots k.parent) (iv.getD (zeros 12)) n (keyRecordOf x)) }

/-- What a write gives a slot. -/
structure SlotWrite where
  type : KeyType
  usage : Byte
  persist : Bool
  expireReset : Bool
  useEn : Bool := false
  uses : W16 := 0
  origin : BitVec 2
  lc : BitVec 3
  parent : Byte
  deriving DecidableEq, Repr

/-- A slot written: VALID, PGEN from the parent, its own GEN kept; its nonce record and NV record follow. A slot whose GEN is
0xFFFF_FFFF takes no write (R251). -/
def writeSlot (s : State) (n : Fin 224) (w : SlotWrite) (key : Bytes) : State :=
  if (slotAt s n).gen = 0xFFFFFFFF then s
  else
  let er := w.expireReset || sessionSlot n.val
  let (m, s0) := drawBytes s 48
  let s1 := modKey s0 n fun k =>
    { k with
      type := w.type, usage := w.usage, state := .valid, persist := w.persist && !er && nvSlot s n.val, expireReset := er
      useEn := w.useEn, origin := w.origin, lc := w.lc, parent := w.parent, uses := w.uses
      pgen := genOf s w.parent, key := some key, mask := m, nv := none }
  let s2 := nonceRefresh s1 n
  if (slotAt s2 n).persist || er then commitRecord s2 n else s2

/-- LC of a key written now (R243). -/
def lcNow (s : State) : BitVec 3 := BitVec.ofNat 3 (lcCode (lcOf s))

/-! ### The unmask of S6 (R234, R241, R250, R253) -/

/-- GEN as the generation table gives it: the higher of its two copies. -/
def genStored (k : KeySlot) : W32 := if k.genA.toNat ≤ k.genB.toNat then k.genB else k.genA

/-- The volatile key store zeroised: every key and attribute word; GEN comes back from the table, the NV records stay
(R237, R259). DEDUCED, log 78. -/
def zeroiseStore (s : State) : State :=
  { s with keys := { s.keys with
      unmasked := false
      slots := vmap s.keys.slots fun k => { gen := genStored k, genA := k.genA, genB := k.genB, nv := k.nv } } }

/-- A key derived at S6. DEDUCED, log 74. -/
def derive6 (s : State) (n : Fin 224) (type : KeyType) (use : List Nat) (parent : Byte) (lc : BitVec 3) (key : Bytes) : State :=
  writeSlot s n { type := type, usage := BitVec.ofNat 8 (use.foldl (fun m b => m + 2 ^ b) 0), persist := false
                  expireReset := false, origin := 0, lc := lc, parent := parent } key

/-- K_ROOT of a root (R234). -/
def rootKey (rs : Bytes) (r : RootSel) : Bytes := Config.kdf rs (ascii "TV8160-LC") (beBytes 4 (rootConst r)) 256

/-- K_RW under the present ROSTER_GEN. -/
def deriveRw (s : State) (kroot : Bytes) : State :=
  derive6 s slotRw .secret256 [useAead, useWrap] 160 (lcNow s)
    (Config.kdf kroot (ascii "TV8160-ROSTER") (beBytes 4 s.keys.rosterGen.toNat) 256)

/-- K_RID, derived in Provisioned until the tag holds it. DEDUCED, log 77. -/
def deriveRid (s : State) (kroot : Bytes) : State :=
  if lcOf s = .provisioned ∧ s.tag.kRid = none then
    derive6 s 167 .aes128 [useCmac] 160 (lcNow s) (Config.kdf kroot (ascii "TV8160-RID") (serialBytes s) 128)
  else s

/-- The keys of R234 derived from RS under a root. -/
def deriveAll (s : State) (rs : Bytes) (r : RootSel) : State :=
  let lc := lcNow s
  let k := rootKey rs r
  let ser := serialBytes s
  let s1 := derive6 s 160 .secret256 [useDerive] 0xFF lc k
  let s2 := derive6 s1 161 .p256priv [useSign] 0xFF 4 (Config.scalarP256 (Config.kdf rs (ascii "TV8160-ID") ser 384))
  let s3 := derive6 s2 162 .p256priv [useSign] 0xFF 4 (Config.scalarP256 (Config.kdf rs (ascii "TV8160-LEDGER") ser 384))
  let s4 := derive6 s3 slotNvw .aes256 [useAead, useWrap] 160 lc (Config.kdf k (ascii "TV8160-NVW") ser 256)
  let s5 := deriveRw s4 k
  let s6 := derive6 s5 166 .p256priv [useEcdh] 160 lc (Config.scalarP256 (Config.kdf k (ascii "TV8160-IMPORT") ser 384))
  deriveRid s6 k

/-- Authentication of a Servicing record: a CMAC under K_ROOT of the Servicing root. DEDUCED, log 77. -/
def servMac (s : State) (endAt : Nat) : Bytes :=
  Config.cmac (rootKey ((rootSecret s.keys).getD []) .servicing) (leBytes 8 endAt)

/-- The Servicing record that ends at an RTC second. -/
def servRecord (s : State) (endAt : Nat) : ServRecord := { endAt := endAt, mac := servMac s endAt }

/-- A Servicing record that does not verify is ignored: the device is then Fielded (R236). -/
def servChecked (s : State) : State :=
  { s with keys := { s.keys with servicing := s.keys.servicing.filter fun r => r.mac == servMac s r.endAt } }

/-- One slot loaded from its NV record: an orphan's record is erased; a slot with EXPIRE_RESET reads EXPIRED; a record that does
not unwrap under the present root reads LOCKED. -/
def loadRecord (gens : Vector KeySlot 224) (pub : Bytes) (n : Fin 224) (k : KeySlot) : KeySlot :=
  match k.nv with
  | none => k
  | some v =>
    let base : KeySlot :=
      { k with
        type := v.type, usage := v.usage, persist := !v.expireReset, expireReset := v.expireReset, useEn := v.useEn
        origin := v.origin, lc := v.lc, parent := v.parent, uses := v.uses, pgen := v.pgen, key := none }
    if v.pgen ≠ (vgetN gens v.parent.toNat {}).gen then { base with state := .orphaned, nv := none }
    else if v.expireReset then { base with state := .expired }
    else match openRecord pub (wrapKey gens v.parent) n v with
      | none => { base with state := .locked }
      | some key => { base with state := if v.useEn && v.uses == 0 then .exhausted else .valid, key := some key }

/-- S6: the store is zeroised, the keys derived and the records loaded under the present root (R237, R253).
DEDUCED, log 77. -/
def unmask (s0 : State) : State :=
  let s := servChecked s0
  let z := zeroiseStore s
  match rootOf s, rootSecret s.keys with
  | some r, some rs =>
    let d := deriveAll { z with keys := { z.keys with unmasked := true } } rs r
    { d with keys := { d.keys with
        slots := Vector.ofFn fun n : Fin 224 => loadRecord d.keys.slots (pubKey d) n d.keys.slots[n] } }
  | _, _ => z

/-! ### Roster keys (R255 to R257, R479) -/

/-- ID (8) ‖ VID (2), big-endian. DESIGN CHOICE, log 75. -/
def idVid (s : State) (ctx : Fin 160) : Bytes := beBytes 8 (s.ctxs[ctx]).id.toNat ++ beBytes 2 (vidOf s)

/-- The slot of a context's K_T, and of its K_HF in Keyring mode. -/
def slotKt (ctx : Fin 160) : Fin 224 := ⟨ctx.val, Nat.lt_trans ctx.isLt (by decide)⟩

/-- The slot of a Keyring context's K_HF (R242). DEDUCED, log 118. -/
def slotKhf (ctx : Fin 160) : Fin 224 := ⟨16 + ctx.val % 16, Nat.lt_trans (Nat.add_lt_add_left (Nat.mod_lt _ (by decide)) 16) (by decide)⟩

/-- Slot 165, K_EPOCH. DESIGN CHOICE, log 75. -/
def slotEpoch : Fin 224 := 165

/-- The Depot token slots of the stored roster derived from slot 165; where 165 is LOCKED they are LOCKED too
(R256, R479). DEDUCED, log 74. -/
def deriveDepot (s : State) : State :=
  if !s.keys.depot then s
  else
    let e := slotAt s slotEpoch
    (List.finRange 160).foldl (fun t c =>
      if !(t.ctxs[c]).valid then t
      else if e.state = .valid then
        writeSlot t (slotKt c) { type := .aes128, usage := 0x80, persist := false, expireReset := false, origin := 0
                                 lc := lcNow t, parent := 165 }
          (Config.kdf (e.key.getD []) (ascii "AQMOS-TOKEN") (idVid t c) 128)
      else if e.state = .locked then
        modKey t (slotKt c) fun k => { k with
          state := .locked, type := .aes128, usage := 0x80, parent := 165, pgen := genOf t 165, lc := e.lc }
      else t) s

/-! ### Invalidation (R251 to R253) -/

/-- The slots whose PARENT is among `ps` and which hold something, not yet among the orphans. -/
def childrenOf (v : Vector KeySlot 224) (ps done : List (Fin 224)) : List (Fin 224) :=
  (List.finRange 224).filter fun n =>
    let k := v[n]
    k.state != .empty && (ps.any fun p => k.parent.toNat == p.val) && !(done.contains n)

/-- Every descendant, generation by generation. -/
def orphansOf : Nat → Vector KeySlot 224 → List (Fin 224) → List (Fin 224) → List (Fin 224)
  | 0, _, _, acc => acc
  | k + 1, v, ps, acc =>
    match childrenOf v ps acc with
    | [] => acc
    | cs => orphansOf k v cs (acc ++ cs)

/-- Proof records verified under one of the slots are cleared (R252). -/
def clearProofs (s : State) (ns : List (Fin 224)) : State :=
  let hit (n : Nat) : Bool := ns.any fun m => m.val == n
  { s with gq := { s.gq with proofs := vmap s.gq.proofs fun p =>
      { p with
        prove := p.prove.filter fun x => !hit x.2.2
        report := p.report.filter fun x => !hit x.2.2
        press := p.press.filter fun x => !hit x.2.2
        hf := p.hf.filter fun x => !hit x.2 } } }

/-- The USAGE bit that an operation needs of SLOT; none where it takes no key. DEDUCED, log 81. -/
def opUse : JobOp → Option Nat
  | .aeadSeal => some useAead | .aeadOpen => some useAead
  | .cmac => some useCmac | .cmacVerify => some useCmac
  | .kdf => some useDerive
  | .aqmosAlias => some useAqmos | .aqmosVerify => some useAqmos | .stsDerive => some useAqmos
  | .ecdsaSign => some useSign | .ecdsaVerify => some useVerify | .ecdh => some useEcdh
  | _ => none

/-- The slots whose keys a job uses: SLOT where its operation names one, the peer of ECDH in SLOT2, the tag's slots for TAG_LOAD,
K_IMP for an import (R252). -/
def jobUses (j : Job) (n : Nat) : Bool :=
  ((opUse j.op).isSome && j.w.slot.toNat == n) || (j.op == .ecdh && j.w.slot2.toNat == n) || (j.op == .tagLoad && decide (167 ≤ n) && decide (n ≤ 169)) ||
    (j.op == .importKey && n == 166)

/-- Jobs that touch one of the slots (R252): a running job is marked, an output that has not been delivered is zeroed, in the held
output buffer too. -/
def orphanJobs (s : State) (ns : List (Fin 224)) : State :=
  let touched : Nat → Bool := fun t => match vgetN s.gq.jobs t none with
    | some j => (ns.any fun m => jobUses j m.val) && (j.phase = .running || (j.phase = .done && !j.delivered))
    | none => false
  let hit := s.gq.heldBy.any fun n => ns.any fun m => m.val == n
  { s with gq := { s.gq with
      held := if hit then [] else s.gq.held, heldOk := s.gq.heldOk && !hit, heldBy := if hit then [] else s.gq.heldBy
      jobs := Vector.ofFn fun t : Fin 48 => (s.gq.jobs[t]).map fun j => if touched t.val then { j with orphaned := true } else j
      outBuf := (List.range 48).foldl (fun m t =>
        if touched t && (match vgetN s.gq.jobs t none with
          | some j => j.phase = .done
          | none => false) then memClear m (256 * t) 256 else m) s.gq.outBuf } }

/-- INVALIDATE of a slot, steps 1 to 4 of R251, the GEN in both copies of the table; a slot whose GEN is 0xFFFF_FFFF refuses it. -/
def invalidate (s : State) (p : Fin 224) : State × Status :=
  if (slotAt s p).gen = 0xFFFFFFFF then (s, .paramRange)
  else
    let s1 := modKey s p fun k => { gen := k.gen + 1, genA := k.gen + 1, genB := k.gen + 1 }
    let os := orphansOf 224 s1.keys.slots [p] []
    let s2 := os.foldl (fun t n => modKey t n fun k => { k with state := .orphaned }) s1
    let all := p :: os
    let s3 := orphanJobs (clearProofs s2 all) all
    let s4 := if s3.az.key.valid && (match s3.az.key.parent with
        | some q => all.contains q
        | none => false) then stsOrphan s3 else s3
    ({ s4 with gq := { s4.gq with nonces := s4.gq.nonces.filter fun r => r.slot ≠ p } }, .ok)

/-- Whether a running job uses a slot. -/
def slotInUse (s : State) (n : Fin 224) : Bool :=
  s.gq.jobs.toList.any fun j => match j with
    | some x => x.phase = .running && jobUses x n.val
    | none => false

/-- Step 5 of R251: an orphan that no running job uses is zeroised and its record erased. -/
def zeroiseOrphan (s : State) (n : Fin 224) : State :=
  let k := slotAt s n
  if k.state = .orphaned && !slotInUse s n then modKey s n fun x => { x with key := none, nv := none } else s

/-- Slots in STATE ORPHANED that await zeroisation (KS_STATUS.ORPHANS). -/
def orphansWaiting (s : State) : List (Fin 224) :=
  (List.finRange 224).filter fun n => (slotAt s n).state = .orphaned && ((slotAt s n).key.isSome || (slotAt s n).nv.isSome)

/-! ### Wrapped import (R245, R246) -/

/-- The targets of a wrapped import. -/
def importTarget (n : Nat) : Bool := decide (n ≤ 159) || n == 165 || n == 168 || n == 169

/-- Step 1 of R246: the header fields, and the blob's length for its type. DEDUCED, log 79. -/
def importHeaderOk (b : Bytes) : Bool :=
  let ty := byteAt b 2
  let fl := byteAt b 5
  let useEn := bitAt fl 2
  byteAt b 0 == 1 && importTarget (byteAt b 1) && decide (1 ≤ ty) && decide (ty ≤ 3) && byteAt b 3 == 0 &&
    decide (fl < 8) && !(bitAt fl 0 && bitAt fl 1) && (if useEn then leAt b 6 2 != 0 else leAt b 6 2 == 0) &&
    allZero (slice b 12 4) && b.length == (if ty == 1 then 189 else 205)

/-- Whether a slot may take a write over what it holds (R246). DEDUCED, log 79. -/
def overwritable (k : KeySlot) : Bool :=
  k.state = .empty || k.state = .orphaned || k.state = .expired || k.state = .exhausted

/-- The parent of an import's target (R242). DEDUCED, log 79. -/
def importParent (s : State) (n : Nat) : Byte := if n < 160 then (if s.keys.depot then 165 else 164) else 160

/-- R246: a wrapped blob processed; the first failure decides. -/
def importWrapped (s : State) (b : Bytes) : State × Status :=
  match slotN (byteAt b 1) with
  | none => (s, .paramRange)
  | some n =>
    let k := slotAt s n
    if !importHeaderOk b || k.gen = 0xFFFFFFFF then (s, .paramRange)
    else if (n.val == 168 || n.val == 169) && lcOf s != .provisioned then (s, .wrongState)
    else if !overwritable k then (s, .busy)
    else if leAt b 8 4 ≤ s.keys.importSeq.toNat then (s, .policyDenied)
    else
      let body := b.take (b.length - 64)
      let v := slotAt s (if n.val < 160 || n.val == 165 then 173 else 172)
      if v.state ≠ .valid ∨ Config.ecdsaVerify (v.key.getD []) body (b.drop (b.length - 64)) = false then (s, .authFail)
      else
        let q := slice b 16 65
        if byteAt q 0 ≠ 4 ∨ Config.ecOnCurve (q.drop 1) = false then (s, .paramRange) else
        let z := Config.ecdh 32 ((slotAt s 166).key.getD []) (q.drop 1)
        let kek := Config.kdf z (ascii "TV8160-WRAP") (slice q 1 32 ++ b.take 16) 256
        let klen := if byteAt b 2 == 1 then 16 else 32
        let iv := slice b 81 12
        let pt := Config.ctrDec false kek iv (slice b 93 klen)
        if (Config.gcm kek iv (b.take 16) pt).2 ≠ slice b (93 + klen) 16 then (s, .authFail)
        else
          let fl := byteAt b 5
          let s1 := { s with keys := { s.keys with importSeq := BitVec.ofNat 32 (leAt b 8 4) } }
          (writeSlot s1 n
            { type := (typeOf (byteAt b 2)).getD .empty, usage := byte (byteAt b 4), persist := bitAt fl 0
              expireReset := bitAt fl 1, useEn := bitAt fl 2, uses := BitVec.ofNat 16 (leAt b 6 2), origin := 1
              lc := lcNow s, parent := importParent s n.val } pt, .ok)

/-- One use of a slot counted where a check is made without a queue job: USES falls, with PERSIST the new value is committed, and
at 0 the slot is EXHAUSTED (R249). DEDUCED, log 87. -/
def spendUse (s : State) (n : Fin 224) : State :=
  let k := slotAt s n
  if k.useEn then
    let s1 := modKey s n fun x => { x with uses := x.uses - 1, state := if k.uses = 1 then .exhausted else x.state }
    if k.persist then commitRecord s1 n else s1
  else s

/-! ### Contexts -/

/-- A context forgotten: its token is no longer enrolled, its press counter gets a tombstone. -/
def dropCtx (s : State) (c : Fin 160) : State :=
  if (s.ctxs[c]).valid then { dropCtr s c with ctxs := vset s.ctxs c {} } else s

/-- Every context forgotten. -/
def dropAllCtx (s : State) : State := (List.finRange 160).foldl dropCtx s

/-- Slots 164 and 165 invalidated, ROSTER_GEN raised and K_RW derived again (R237, R257). -/
def destroyRoster (s : State) : State :=
  let s1 := (invalidate (invalidate s slotRw).1 slotEpoch).1
  let s2 := { s1 with keys := { s1.keys with rosterGen := s1.keys.rosterGen + 1 } }
  let k := slotAt s2 160
  if k.state = .valid then deriveRw s2 (k.key.getD []) else s2

end Sys2Proof.Machine
end

