-- ==== Sys2Proof/Machine/Cose.lean ====
section
/-! DEFINITION. CBOR and COSE_Sign1 as attestation uses them, and the identity endorsement that the boot sector holds (R285,
R287). -/

namespace Sys2Proof.Machine

open Sys2Proof

/-- Head of a CBOR item: major type and argument, in the shortest form (RFC 8949, deterministic encoding).
PRESUMED, log 18. -/
def cborHead (major n : Nat) : Bytes :=
  if n < 24 then [byte (32 * major + n)]
  else if n < 256 then [byte (32 * major + 24), byte n]
  else if n < 65536 then byte (32 * major + 25) :: beBytes 2 n
  else if n < 4294967296 then byte (32 * major + 26) :: beBytes 4 n
  else byte (32 * major + 27) :: beBytes 8 n

def cborUint (n : Nat) : Bytes := cborHead 0 n

def cborBstr (b : Bytes) : Bytes := cborHead 2 b.length ++ b

def cborTstr (t : String) : Bytes := cborHead 3 t.length ++ ascii t

def cborArr (l : List Bytes) : Bytes := cborHead 4 l.length ++ l.flatten

/-- A map from items in key order. -/
def cborMap (l : List (Bytes × Bytes)) : Bytes := cborHead 5 l.length ++ l.flatMap fun p => p.1 ++ p.2

def cborBool (b : Bool) : Bytes := [if b then 0xF5 else 0xF4]

/-- The protected header {1: −7}. -/
def coseProtected : Bytes := [0xA1, 0x01, 0x26]

/-- The Sig_structure "Signature1" with empty external_aad. PRESUMED, log 18. -/
def sigStructure (payload : Bytes) : Bytes :=
  cborArr [cborTstr "Signature1", cborBstr coseProtected, cborBstr [], cborBstr payload]

/-- A COSE_Sign1 tagged 18. PRESUMED, log 18. -/
def coseSign1 (unprotected payload sig : Bytes) : Bytes :=
  cborHead 6 18 ++ cborArr [cborBstr coseProtected, unprotected, cborBstr payload, cborBstr sig]

/-- A public key with its leading 0x04. PRESUMED, log 18. -/
def point65 (xy : Bytes) : Bytes := (4 : Byte) :: padTo 64 xy

/-- DIK's public key, as it was at the device's first start (R234, R287). -/
def dikPublic (s : State) : Bytes :=
  Config.ecPublic (Config.scalarP256 (Config.kdf ((rootSecret s.keys).getD []) (ascii "TV8160-ID") (serialBytes s) 384))

/-- The identity endorsement of R287: a COSE_Sign1 by the Torvern manufacturing key over {1: SERIAL, 16: DIK public key as
a COSE_Key}; its unprotected header and the manufacturing signature are constants of Config. PRESUMED, log 18. -/
def endorsement (s : State) : Bytes :=
  let d := dikPublic s
  let key := cborMap [(cborUint 1, cborUint 2), ([0x20], cborUint 1), ([0x21], cborBstr (d.take 32)), ([0x22], cborBstr (d.drop 32))]
  let payload := cborMap [(cborUint 1, cborBstr (serialBytes s)), (cborUint 16, key)]
  coseSign1 Config.endorseHeader payload (Config.torvernSign (sigStructure payload))

end Sys2Proof.Machine
end

