-- ==== Sys2Proof/Machine/Gules.lean ====
section
/-! DEFINITION. Gules's job queue: submission and its checks, dispatch, what every operation computes, proof records,
engine tests, re-masking and the TRNG (R244, R247 to R249, R254, R265 to R284, R292 to R294). -/

namespace Sys2Proof.Machine

open Sys2Proof

/-! ### Jobs and completion records (R265, R267, R292) -/

def jobAt (s : State) (t : Fin 48) : Option Job := s.gq.jobs[t]

def setJob (s : State) (t : Fin 48) (j : Option Job) : State :=
  { s with gq := { s.gq with jobs := vset s.gq.jobs t j } }

/-- Tags held (GQ_STATUS[5:0]). DESIGN CHOICE, log 84. -/
def tagsHeld (s : State) : Nat := (s.gq.jobs.toList.filter Option.isSome).length

/-- A completion record (R292). DESIGN CHOICE, log 84. -/
def doneAdd (s : State) (t : Fin 48) (st : Status) : State :=
  { s with gq := { s.gq with dones := s.gq.dones ++ [{ tag := t, status := st, tick := now s }] } }

/-- Whether an operation is paired where it uses AES (the Deep column of R269). -/
def pairedOp : JobOp → Bool
  | .nonce | .hash | .ecdsaSign | .ecdsaVerify | .ecdh | .random => false
  | .invalidate | .tagLoad => false
  | _ => true

/-- A clear write uses AES where its record is sealed into NV (R241, R269). -/
def sealsRecord (j : Job) : Bool := j.op == .keyWrite && bitAt j.w.aux.toNat 15

/-- Whether a job runs paired in Deep (R269). -/
def pairedJob (j : Job) : Bool := pairedOp j.op && (j.op != .keyWrite || sealsRecord j)

/-- The counters of R293 at a completion, and the mismatch list of R281. -/
def countDone (s : State) (j : Job) (st : Status) : State :=
  let g := s.gq
  let s1 := if st = .faultMismatch then anomSet s 6 else s
  { s1 with
    gq := { g with
      nJobs := satInc g.nJobs
      nPaired := if j.deep && pairedJob j && j.engine != 0 then satInc g.nPaired else g.nPaired
      nAuthFail := if st = .authFail then satInc g.nAuthFail else g.nAuthFail
      nOrphan := if st = .keyOrphaned then satInc g.nOrphan else g.nOrphan
      nMismatch := if st = .faultMismatch then satInc g.nMismatch else g.nMismatch
      mismatches := if st = .faultMismatch then g.mismatches ++ [now s] else g.mismatches
      katDue := g.katDue || st = .faultMismatch } }

/-- A slot whose USES reached 0 is EXHAUSTED once the job has completed (R249). DEDUCED, log 87. -/
def exhaustSlot (s : State) (j : Job) : State :=
  match slotN j.w.slot.toNat with
  | none => s
  | some n =>
    let k := slotAt s n
    if j.lastUse ∧ k.state = .valid ∧ k.gen = j.gen then
      modKey s n fun x => { x with state := .exhausted }
    else s

/-- A job completes: its output, none beside OK, its record, its counters, and the firing that released it. -/
def finishJob (s : State) (t : Fin 48) (st : Status) (out : Bytes) : State :=
  match jobAt s t with
  | none => s
  | some j =>
    let o := if st = .ok && !j.suppress then out.take 256 else []
    let s1 := setJob s t (some { j with
      phase := .done, status := st, shares := [], seg := [], keyClass := j.op == .stsDerive && st = .ok })
    let s2 := { s1 with gq := { s1.gq with outBuf := memWriteBytes (memClear s1.gq.outBuf (256 * t.val) 256) (256 * t.val) o } }
    let s3 := exhaustSlot (countDone (doneAdd s2 t st) j st) j
    match j.entry with
    | some n => complete s3 n st
    | none => s3

/-! ### Staging areas as jobs see them (R266, R275) -/

/-- The staging area of a code: 0 image, 1 roster batch, 2 bundle. -/
def areaOf (s : State) (a : Nat) : StageArea :=
  match a with
  | 0 => s.cmds.area0
  | 1 => s.cmds.area1
  | _ => s.cmds.area2

def setArea (s : State) (a : Nat) (x : StageArea) : State :=
  match a with
  | 0 => { s with cmds := { s.cmds with area0 := x } }
  | 1 => { s with cmds := { s.cmds with area1 := x } }
  | _ => { s with cmds := { s.cmds with area2 := x } }

/-- The greatest BODY_LEN of an area (R390). -/
def areaMax (a : Nat) : Nat :=
  match a with
  | 0 => 458752
  | 1 => 2048
  | _ => 12288

/-- An area zeroed and closed. -/
def zeroArea (s : State) (a : Nat) : State := setArea s a {}

/-- A held AEAD_OPEN without a staging area takes its message from the staging window (R274). -/
def windowJob (j : Job) : Bool := j.op == .aeadOpen && j.w.dst == 1 && !j.w.src

/-- Bytes of the message that a window job takes: associated data, ciphertext and tag. -/
def segTotal (j : Job) : Nat := j.w.adLen.toNat + j.w.dataLen.toNat + 16

/-- A window job takes the next segment, at most the window of 4 KiB (R274). DEDUCED, log 83. -/
def takeSeg (s : State) (j : Job) : Job :=
  if windowJob j then { j with seg := j.seg ++ memReadBytes s.cel.win 0 (Nat.min 4096 (segTotal j - j.seg.length)) } else j

/-- Whether a window job still waits for a segment. DEDUCED, log 83. -/
def segWaits (j : Job) : Bool := windowJob j && decide (j.seg.length < segTotal j)

/-- `n` bytes of a job's input from `off`: the staging area, the segments of a held AEAD_OPEN, or the job
input buffer (R266, R274). DEDUCED, log 83. -/
def jobIn (s : State) (t : Fin 48) (j : Job) (off n : Nat) : Bytes :=
  if j.w.src then memReadBytes (areaOf s j.w.area.toNat).data off n
  else if windowJob j then padTo n (slice j.seg off n)
  else memReadBytes s.gq.inBuf (256 * t.val + off) n

/-! ### Acceptance (R244, R249, R265, R266, R269, R272) -/

/-- AUX as a token context. DEDUCED, log 81. -/
def auxCtx (w : JobWords) : Option (Fin 160) := if h : w.aux.toNat < 160 then some ⟨w.aux.toNat, h⟩ else none

/-- The slot that holds the key of a context for an Aqmos construction, or for the HF frames in MODE 3 (R242, R256).
DEDUCED, log 81. -/
def ctxSlotOk (s : State) (op : JobOp) (w : JobWords) : Bool :=
  match auxCtx w with
  | none => false
  | some c =>
    (s.ctxs[c]).valid &&
      (if op == .aqmosVerify && w.mode == 3 then
        (if s.keys.depot then sessionSlot w.slot.toNat else decide (c.val < 16) && w.slot.toNat == 16 + c.val)
      else w.slot.toNat == c.val)

/-- Data longer than the job input buffer, or than the staging area that it is taken from (R266). -/
def dataBad (w : JobWords) (n : Nat) : Bool := if w.src then decide (areaMax w.area.toNat < n) else decide (256 < n)

/-- Slots that a label's key may go into: the slot that R242 assigns to it, a token slot for a Depot K_T, or a session slot; the
integrity key has none (R234, R242). DEDUCED, log 76. -/
def kdfSlotOk (m n : Nat) : Bool :=
  m != 3 && (sessionSlot n || (match m with
    | 0 => n == 160 | 1 => n == 161 | 2 => n == 162 | 4 => n == 163 | 5 => n == 164 | 6 => n == 166 | 7 => n == 167
    | 9 => decide (n < 160)
    | _ => false))

/-- The operand conditions of R233, R242, R245 to R248 and R266 to R274 that complete a job with PARAM_RANGE.
DEDUCED, log 76. -/
def jobRangeBad (s : State) (op : JobOp) (w : JobWords) : Bool :=
  let d := w.dataLen.toNat
  let ad := w.adLen.toNat
  decide (3 < w.dst.toNat) || ((w.src || w.dst == 2) && decide (2 < w.area.toNat)) ||
  ((opUse op).isSome && decide (224 ≤ w.slot.toNat)) ||
  (match op with
    | .aeadSeal => decide (1 < w.mode.toNat) || w.dst == 3 ||
        (if w.src then decide (areaMax w.area.toNat < ad + d) else decide (256 < ad) || decide (256 < ad + d + 16))
    | .aeadOpen => decide (1 < w.mode.toNat) || w.dst == 3 || (w.dst == 1 && decide (8192 < d)) ||
        (if w.src then decide (areaMax w.area.toNat < ad + d) else w.dst != 1 && (decide (256 < ad) || decide (256 < ad + d + 16)))
    | .cmac => w.dst == 3 || dataBad w d
    | .cmacVerify => decide (w.mode.toNat < 4) || decide (16 < w.mode.toNat) || dataBad w (d + w.mode.toNat)
    | .kdf => w.aux == 0 || decide (384 < w.aux.toNat) || decide (10 < w.mode.toNat) || dataBad w d ||
        ((w.mode == 1 || w.mode == 2 || w.mode == 6) && w.aux != 384) || !kdfSlotOk w.mode.toNat w.slot2.toNat ||
        (vgetN s.keys.slots w.slot2.toNat {}).gen == 0xFFFFFFFF
    | .nonce => w.dst == 3 || decide (1 < w.mode.toNat) || (w.mode == 0 && !(w.aux.toNat % 256 == 0 || w.aux.toNat % 256 == 3 || w.aux.toNat % 256 == 6))
    | .aqmosAlias => w.dst == 3 || !ctxSlotOk s op w
    | .aqmosVerify => decide (3 < w.mode.toNat) || !ctxSlotOk s op w
    | .stsDerive => w.dst != 3 || !ctxSlotOk s op w
    | .hash => w.dst == 3 || decide (1 < w.mode.toNat) || dataBad w d
    | .ecdsaSign => w.dst == 3 || dataBad w d
    | .ecdsaVerify => dataBad w (d + 64)
    | .ecdh => !sessionSlot (w.aux.toNat % 256) || (vgetN s.keys.slots (w.aux.toNat % 256) {}).gen == 0xFFFFFFFF
    | .random => w.dst == 3 || d == 0 || decide (256 < d)
    | .importKey => false
    | .keyWrite => false
    | .invalidate => decide (224 ≤ w.slot.toNat)
    | .tagLoad => false
    | .verdict => !w.prio || w.hold)

/-- Target of a clear write: a session slot or a token slot (R247). DEDUCED, log 86. -/
def clearTarget (n : Nat) : Bool := decide (n < 160) || sessionSlot n

/-- The refusals of the privileged operations at submission (R247, R248). DEDUCED, log 86. -/
def privRefusal (s : State) (op : JobOp) (w : JobWords) (privileged : Bool) : Option Status :=
  match op with
  | .keyWrite =>
    if !privileged then some .policyDenied
    else if lcOf s ≠ .blank ∧ lcOf s ≠ .provisioned then some .wrongState
    else if !clearTarget w.slot2.toNat || (vgetN s.keys.slots w.slot2.toNat {}).gen == 0xFFFFFFFF then some .paramRange
    else none
  | .tagLoad => if privileged ∧ lcOf s = .provisioned then none else some .wrongState
  | _ => none

/-- The checks of R244 on the peer of an ECDH named in SLOT2; a slot that holds no public key is none (R269). -/
def peerRefusal (s : State) (op : JobOp) (w : JobWords) : Option Status :=
  match op, slotN w.slot2.toNat with
  | .ecdh, some n =>
    match slotRefusal s (slotAt s n) useEcdh with
    | some st => some st
    | none => if isPublic (slotAt s n).type then none else some .paramRange
  | _, _ => none

/-- A staging area whose UNVERIFIED flag is set serves AEAD_OPEN alone, which clears the flag (R275). -/
def areaClosed (s : State) (op : JobOp) (w : JobWords) : Bool := w.src && op != .aeadOpen && (areaOf s w.area.toNat).unverified

/-- What decides a submission before it is queued; none: it is accepted. DESIGN CHOICE, log 84. -/
def submitRefusal (s : State) (op : JobOp) (w : JobWords) (privileged : Bool) : Option Status :=
  if jobRangeBad s op w then some .paramRange
  else if areaClosed s op w then some .wrongState
  else match privRefusal s op w privileged with
    | some st => some st
    | none =>
      match opUse op, slotN w.slot.toNat with
      | some u, some n =>
        match slotRefusal s (slotAt s n) u with
        | some st => some st
        | none => peerRefusal s op w
      | _, _ => none

/-- USES counted down at acceptance; with PERSIST the new value is committed (R249). DEDUCED, log 87. -/
def countUse (s : State) (op : JobOp) (w : JobWords) : State :=
  match opUse op, slotN w.slot.toNat with
  | some _, some n =>
    let k := slotAt s n
    if k.useEn then
      let s1 := modKey s n fun x => { x with uses := x.uses - 1 }
      if k.persist then commitRecord s1 n else s1
    else s
  | _, _ => s

/-- Whether a job takes the last use of its slot (R249). DEDUCED, log 87. -/
def takesLast (s : State) (op : JobOp) (w : JobWords) : Bool :=
  match opUse op, slotN w.slot.toNat with
  | some _, some n => (slotAt s n).useEn && (slotAt s n).uses == 1
  | _, _ => false

/-- A submission (R265, R266). DESIGN CHOICE, log 84. -/
def submit (op : JobOp) (w : JobWords) (privileged : Bool) (s0 : State) : State :=
  let s := { s0 with gq := { s0.gq with privileged := privileged } }
  if (jobAt s w.tag).isSome then
    let s1 := doneAdd s w.tag .busy
    if tagsHeld s = 48 then { s1 with gq := { s1.gq with nFull := satInc s1.gq.nFull } } else s1
  else
    let j : Job :=
      { op := op, w := w, order := s.gq.order, privileged := privileged, deep := s.pres.deep
        gen := (vgetN s.keys.slots w.slot.toNat {}).gen, gen2 := (vgetN s.keys.slots w.slot2.toNat {}).gen, phase := if w.hold then .held else .ready }
    let s1 := { s with gq := { s.gq with order := s.gq.order + 1 } }
    match submitRefusal s op w privileged with
    | some st => finishJob (setJob s1 w.tag (some j)) w.tag st []
    | none => countUse (setJob s1 w.tag (some { j with lastUse := takesLast s op w })) op w

/-! ### Dispatch (R244, R267, R281, R283) -/

/-- The engine class of an operation: AES, public-key, hash, none. -/
inductive JobClass where
  | aes | pk | hash | none
  deriving DecidableEq, Repr

def classOf : JobOp → JobClass
  | .ecdsaSign | .ecdsaVerify | .ecdh | .importKey => .pk
  | .hash => .hash
  | .nonce | .random | .keyWrite | .invalidate | .tagLoad => .none
  | _ => .aes

/-- The class of a job. -/
def jobClass (j : Job) : JobClass := if sealsRecord j then .aes else classOf j.op

/-- Operations that need randomness; a written slot takes a KI (R277, R283). -/
def needsRandom : JobOp → Bool
  | .nonce | .random | .ecdsaSign | .ecdh | .importKey | .keyWrite => true
  | _ => false

/-- Engines that running jobs occupy. DEDUCED, log 85. -/
def enginesBusy (s : State) : Nat :=
  s.gq.jobs.toList.foldl (fun m j => match j with
    | some x => if x.phase = .running then m ||| x.engine else m
    | none => m) 0

/-- Ready jobs of a class, PRIO 1 first, then in submission order: the tag of the first. DEDUCED, log 85. -/
def headOf (s : State) (c : JobClass) : Option (Fin 48 × Job) :=
  (List.finRange 48).foldl (fun acc t =>
    match jobAt s t with
    | some j =>
      if j.phase = .ready && jobClass j == c then
        match acc with
        | none => some (t, j)
        | some (_, x) => if (j.w.prio && !x.w.prio) || (j.w.prio == x.w.prio && decide (j.order < x.order)) then some (t, j) else acc
      else acc
    | none => acc) none

/-- The engines on which a job would start now: none while it waits; 0 where no engine is in service.
DEDUCED, log 85. -/
def engineFor (s : State) (j : Job) : Option Nat :=
  let busy := enginesBusy s
  match jobClass j with
  | .none => some 16
  | .pk => if busy &&& 4 == 0 then some 4 else none
  | .hash => if busy &&& 8 == 0 then some 8 else none
  | .aes =>
    let inA := !s.gq.engAOut
    let inB := !s.gq.engBOut
    let freeA := inA && (busy &&& 1 == 0)
    let freeB := inB && (busy &&& 2 == 0)
    if !inA && !inB then some 0
    else if j.deep && pairedJob j && inA && inB then (if freeA && freeB then some 3 else none)
    else if freeA then some 1
    else if freeB then some 2
    else none

/-- What a job meets when it starts (R244, R281, R283); none: it runs. -/
def startRefusal (s : State) (j : Job) (engine : Nat) : Option Status :=
  let k := vgetN s.keys.slots j.w.slot.toNat {}
  let named := (opUse j.op).isSome
  let k2 := vgetN s.keys.slots j.w.slot2.toNat {}
  let peer := j.op == .ecdh && (slotN j.w.slot2.toNat).isSome
  if (named && (k.gen != j.gen || k.state = .orphaned)) || (peer && (k2.gen != j.gen2 || k2.state = .orphaned)) then some .keyOrphaned
  else if (named && k.state = .locked) || (peer && k2.state = .locked) then some .wrongState
  else if needsRandom j.op && (trngRefusal s).isSome then trngRefusal s
  else if engine = 0 then some .faultMismatch
  else none

/-- Ticks of the re-masking of one slot, 24 cycles, and of a whole pass (R254, R263). -/
def remaskSlotEnd (n : Nat) : Nat := ceilDiv (9216 * (n + 1)) 1000

def remaskTicks : Nat := remaskSlotEnd 223

/-- A re-mask pass is in progress (KS_STATUS.REMASK, R262). -/
def remasking (s : State) : Bool := s.bg.remaskAt.any fun t => decide (s.clock < t + remaskTicks)

/-- What needs a slot during its re-mask waits for its end (R254, R264). DESIGN CHOICE, log 89. -/
def remaskWait (s : State) (n : Nat) : State :=
  match s.bg.remaskAt with
  | some t =>
    if 9216 * n / 1000 ≤ s.clock - t ∧ s.clock < t + remaskSlotEnd n then elapseToClock s (t + remaskSlotEnd n) else s
  | none => s

/-- Working shares of a key: the key xor M, and a freshly drawn M (R254). -/
def workShares (s : State) (key : Bytes) : (Bytes × Bytes) × State :=
  let (m, s1) := drawBytes s key.length
  ((xorBytes key m, m), s1)

/-- The key that a running job's working shares hold. -/
def jobKey (j : Job) : Bytes :=
  match j.shares with
  | p :: _ => xorBytes p.1 p.2
  | [] => []

/-- A job's key loaded into the working shares of its engines, in a paired job with a draw for each (R254, R279). -/
def loadShares (s : State) (j : Job) (engine : Nat) : List (Bytes × Bytes) × State :=
  if (opUse j.op).isNone then ([], s)
  else
    let key := (vgetN s.keys.slots j.w.slot.toNat {}).key.getD []
    let (p, s1) := workShares s key
    if engine = 3 then
      let (q, s2) := workShares s1 key
      ([p, q], s2)
    else ([p], s1)

/-- The first segment of an AEAD_OPEN into a staging area sets its UNVERIFIED flag (R275). -/
def segLands (s : State) (j : Job) : State :=
  if j.op == .aeadOpen && j.w.dst == 2 then
    setArea s j.w.area.toNat { areaOf s j.w.area.toNat with unverified := true, verified := false }
  else s

/-- A job started on its engines with its key in their working shares, or completed by what it meets; it waits for the re-mask
of its slot. DEDUCED, log 85. -/
def startJob (s0 : State) (t : Fin 48) (j : Job) (engine : Nat) : State :=
  match startRefusal s0 j engine with
  | some st => finishJob s0 t st []
  | none =>
    let s := if (opUse j.op).isSome then remaskWait s0 j.w.slot.toNat else s0
    let (sh, s1) := loadShares s j engine
    segLands (setJob s1 t (some (takeSeg s1 { j with phase := .running, engine := engine, shares := sh }))) j

/-- The job that may start next and its engine: the head of the first class whose engine is free (R266, R267).
DEDUCED, log 85. -/
def pickJob (s : State) : Option (Fin 48 × Job × Nat) :=
  [JobClass.aes, .pk, .hash, .none].findSome? fun c =>
    match headOf s c with
    | some (t, j) => (engineFor s j).map fun e => (t, j, e)
    | none => none

/-! ### What the operations compute (R269 to R282) -/

/-- Labels of R234 by MODE of KDF: the row of R234's table, from 0. DESIGN CHOICE, log 75. -/
def kdfLabel (m : Nat) : Bytes :=
  ascii ((["TV8160-LC", "TV8160-ID", "TV8160-LEDGER", "TV8160-PUB", "TV8160-NVW", "TV8160-ROSTER", "TV8160-IMPORT",
    "TV8160-RID", "TV8160-WRAP", "AQMOS-TOKEN", "AQMOS-HF"]).getD m "")

/-- Type and USAGE of the key that a label yields. DEDUCED, log 76. -/
def kdfTarget (m : Nat) : KeyType × Nat :=
  match m with
  | 0 => (.secret256, 4) | 1 => (.p256priv, 16) | 2 => (.p256priv, 16) | 3 => (.aes256, 2) | 4 => (.aes256, 9)
  | 5 => (.secret256, 9) | 6 => (.p256priv, 64) | 7 => (.aes128, 2) | 8 => (.aes256, 9) | _ => (.aes128, 128)

/-- The output of an operation delivered by DST; what a job leaves in a staging area is not verified under R391, and its
UNVERIFIED flag is cleared by a verified tag only (R275). DEDUCED, log 83. -/
def deliver (s : State) (j : Job) (tagOk : Bool) (out : Bytes) : State × Bytes :=
  match j.w.dst.toNat with
  | 1 => ({ s with gq := { s.gq with
      held := out, heldOk := true, heldBy := if (opUse j.op).isSome then [j.w.slot.toNat] else [] } }, [])
  | 2 =>
    let a := areaOf s j.w.area.toNat
    (setArea s j.w.area.toNat { a with
      data := memWriteBytes [] 0 out, body := out, verified := false, unverified := a.unverified && !tagOk }, [])
  | _ => (s, out)

/-- AEAD_SEAL (R269, R273, R276). DEDUCED, log 83. -/
def runSeal (s : State) (t : Fin 48) (j : Job) : State × Status × Bytes :=
  match slotN j.w.slot.toNat with
  | none => (s, .paramRange, [])
  | some n =>
    match takeNonce s n with
    | (none, s1) => (s1, .nonceExhausted, [])
    | (some iv, s1) =>
      let ad := jobIn s t j 0 j.w.adLen.toNat
      let pt := jobIn s t j j.w.adLen.toNat j.w.dataLen.toNat
      let r := if j.w.mode = 1 then Config.ccm (jobKey j) iv 16 ad pt else Config.gcm (jobKey j) iv ad pt
      let (s2, out) := deliver s1 j false (r.1 ++ r.2)
      (s2, .ok, out)

/-- AEAD_OPEN (R269, R273 to R275). DEDUCED, log 83. -/
def runOpen (s : State) (t : Fin 48) (j : Job) : State × Status × Bytes :=
  let adn := j.w.adLen.toNat
  let d := j.w.dataLen.toNat
  let ccm := j.w.mode = 1
  let iv := jobIn s t j j.w.aux.toNat 12
  let ad := jobIn s t j 0 adn
  let ct := jobIn s t j adn d
  let tag := jobIn s t j (adn + d) 16
  let pt := Config.ctrDec ccm (jobKey j) iv ct
  let good := if ccm then (Config.ccm (jobKey j) iv 16 ad pt).2 else (Config.gcm (jobKey j) iv ad pt).2
  if good = tag then
    let (s1, out) := deliver s j true pt
    (s1, .ok, out)
  else
    (match j.w.dst.toNat with
      | 1 => { s with gq := { s.gq with held := [], heldOk := false, heldBy := [] } }
      | 2 => zeroArea s j.w.area.toNat
      | _ => s, .authFail, [])

/-- KDF (R233, R234, R269). DEDUCED, log 76. -/
def runKdf (s : State) (t : Fin 48) (j : Job) : State × Status × Bytes :=
  match slotN j.w.slot2.toNat with
  | none => (s, .paramRange, [])
  | some n =>
    let m := j.w.mode.toNat
    let v := Config.kdf (jobKey j) (kdfLabel m) (jobIn s t j 0 j.w.dataLen.toNat) j.w.aux.toNat
    let (ty, use) := kdfTarget m
    (writeSlot s n
      { type := ty, usage := byte use, persist := false, expireReset := sessionSlot n.val, origin := 0, lc := lcNow s
        parent := j.w.slot } (if ty = .p256priv then Config.scalarP256 v else v), .ok, [])

/-- NONCE (R82, R103, R270): a fresh N_H, or a fresh N_C with the Tint offsets that AUX asks for. -/
def runNonce (s : State) (j : Job) : State × Status × Bytes :=
  if j.w.mode = 1 then
    let (b, s1) := drawBytes s 1
    (drbgUse { s1 with gq := { s1.gq with nH := b.headD 0, nHFresh := true } }, .ok, b)
  else
    let (b, s1) := drawBytes s (4 + j.w.aux.toNat % 256)
    (drbgUse { s1 with gq := { s1.gq with nC := BitVec.ofNat 32 (beAt b 0 4), offs := b.drop 4, nCFresh := true } }, .ok, b)

/-- The full alias A_H of a context under a key and N_H (R101). -/
def aliasOf (s : State) (key : Bytes) (c : Fin 160) (nH : Byte) : Bytes := Config.cmac key ([0x48] ++ idVid s c ++ [nH])

/-- AQMOS_ALIAS (R101, R103): A_H of the context under the N_H of the current hail frame, SLOT and ALIAS as output. -/
def runAlias (s : State) (j : Job) : State × Status × Bytes :=
  match auxCtx j.w with
  | none => (s, .paramRange, [])
  | some c =>
    let a := aliasOf s (jobKey j) c s.pres.nH
    ({ s with pres := { s.pres with aliases := s.pres.aliases.filter (fun x => x.1 ≠ c) ++ [(c, a)] } }, .ok,
      [byte (byteAt a 0 % 8), byte (byteAt a 1)])

/-- A proof record changed. DEDUCED, log 82. -/
def modProof (s : State) (c : Fin 160) (f : ProofRec → ProofRec) : State :=
  { s with gq := { s.gq with proofs := vmod s.gq.proofs c f } }

/-- MAC_P's message (R101). DEDUCED, log 82. -/
def proveMsg (s : State) (c : Fin 160) (ch : Byte × Byte × W32) (sig : Bytes) : Bytes :=
  [0x50] ++ idVid s c ++ [ch.1, ch.2.1] ++ beBytes 4 ch.2.2.toNat ++ sig

/-- AQMOS_VERIFY (R101, R108, R124, R134, R149, R209, R210, R270): the job input is the receive buffer as a MOVE brings it: 0
Prove, a format 1 record with SIG and MAC_P after its six header bytes; 1 REPORT, the timestamp buffer with the payload
from byte 48; 2 press, a format 2 record with ID to MAC_K from byte 6; 3 HF (the reader's own HRESP and FDT).
DEDUCED, log 82. -/
def runVerify (s : State) (t : Fin 48) (j : Job) : State × Status × Bytes :=
  match auxCtx j.w, slotN j.w.slot.toNat with
  | some c, some _ =>
    let slot := j.w.slot.toNat
    let inp := jobIn s t j (if j.w.mode = 1 then 48 else 6) 23
    let p := s.gq.proofs[c]
    match j.w.mode.toNat with
    | 0 =>
      match p.chal with
      | none => (s, .wrongState, [])
      | some ch =>
        if (Config.cmac (jobKey j) (proveMsg s c ch (inp.take 6))).take 4 = slice inp 6 4 then
          (modProof s c fun x => { x with prove := some (ch.2.2, now s, slot), sess := some ch }, .ok, [])
        else (s, .authFail, [])
    | 1 =>
      match p.sess with
      | none => (s, .wrongState, [])
      | some ch =>
        let msg := [0x52] ++ idVid s c ++ beBytes 4 ch.2.2.toNat ++ inp.take 12
        if (Config.cmac (jobKey j) msg).take 4 = slice inp 12 4 then
          (modProof s c fun x => { x with report := some (ch.2.2, now s, slot) }, .ok, [])
        else ({ s with az := { s.az with nMacFail := satInc s.az.nMacFail } }, .authFail, [])
    | 2 =>
      let ctr := beAt inp 10 4
      let msg := [0x4B] ++ idVid s c ++ beBytes 4 ctr ++ slice inp 14 2
      if (Config.cmac (jobKey j) msg).take 4 = slice inp 16 4 then
        (modProof s c fun x => { x with press := some (BitVec.ofNat 32 ctr, now s, slot) }, .ok, [])
      else (s, .authFail, [])
    | _ =>
      let r := memReadBytes s.hf.rxbuf 0 25
      let fdt := s.hf.fdt.toNat
      let msg := [0x68] ++ idVid s c ++ s.hf.nR ++ slice r 9 8
      if decide (8260 ≤ fdt) && decide (fdt ≤ 8292) && (Config.cmac (jobKey j) msg).take 8 = slice r 17 8 then
        (modProof s c fun x => { x with hf := some (now s, slot) }, .ok, [])
      else (s, .authFail, [])
  | _, _ => (s, .paramRange, [])

/-- The STS key and block 2 (R135). DEDUCED, log 82. -/
def stsKey (s : State) (key : Bytes) (c : Fin 160) (ch : Byte × Byte × W32) : Bytes :=
  Config.kdf key (ascii "AQMOS-STS") (idVid s c ++ [ch.1, ch.2.1] ++ beBytes 4 ch.2.2.toNat) 256

/-- STS_DERIVE (R135) from the challenge whose Prove verified last. -/
def runSts (s : State) (j : Job) : State × Status × Bytes :=
  match auxCtx j.w with
  | none => (s, .paramRange, [])
  | some c =>
    match (s.gq.proofs[c]).sess with
    | none => (s, .wrongState, [])
    | some ch => (s, .ok, stsKey s (jobKey j) c ch)

/-- HASH (R269). -/
def runHash (s : State) (t : Fin 48) (j : Job) : State × Status × Bytes :=
  let m := jobIn s t j 0 j.w.dataLen.toNat
  (s, .ok, if j.w.mode = 1 then Config.sha384 m else Config.sha256 m)

/-- TYPE of the named slot. -/
def typeNamed (s : State) (j : Job) : KeyType := (vgetN s.keys.slots j.w.slot.toNat {}).type

/-- ECDSA_SIGN (R269, R282). -/
def runSign (s : State) (t : Fin 48) (j : Job) : State × Status × Bytes :=
  let m := jobIn s t j 0 j.w.dataLen.toNat
  let (k, s1) := drbgBytes s 48
  (s1, .ok, if typeNamed s j = .p384priv then Config.ecdsaSign384 (jobKey j) k m else Config.ecdsaSign (jobKey j) k m)

/-- ECDSA_VERIFY (R269). -/
def runSigVerify (s : State) (t : Fin 48) (j : Job) : State × Status × Bytes :=
  let d := j.w.dataLen.toNat
  let sl := if typeNamed s j = .p384pub then 96 else 64
  (s, if Config.ecOnCurve (jobKey j) && Config.ecdsaVerify (jobKey j) (jobIn s t j 0 d) (jobIn s t j d sl) then .ok else .authFail, [])

/-- ECDH: the peer is the public key of SLOT2, or a point 0x04 ‖ x ‖ y in the input; Z goes into a session slot. -/
def runEcdh (s : State) (t : Fin 48) (j : Job) : State × Status × Bytes :=
  let big := typeNamed s j = .p384priv
  let peer : Option Bytes := match slotN j.w.slot2.toNat with
    | some n => if (slotAt s n).state = .valid && isPublic (slotAt s n).type then (slotAt s n).key else none
    | none => some ((jobIn s t j 0 (if big then 97 else 65)).drop 1)
  match peer, slotN (j.w.aux.toNat % 256) with
  | some q, some n =>
    if !Config.ecOnCurve q then (s, .paramRange, [])
    else
      (writeSlot (drbgUse s) n
        { type := .secret256, usage := 4, persist := false, expireReset := true, origin := 0, lc := lcNow s
          parent := j.w.slot } (Config.ecdh (if big then 48 else 32) (jobKey j) q), .ok, [])
  | _, _ => (s, .paramRange, [])

def runRandom (s : State) (j : Job) : State × Status × Bytes :=
  let (b, s1) := drawBytes s j.w.dataLen.toNat
  (drbgUse s1, .ok, b)

/-- KEY_WRITE (R247): type, usage and PERSIST stand in AUX as in attribute word 0. DEDUCED, log 86. -/
def runKeyWrite (s : State) (t : Fin 48) (j : Job) : State × Status × Bytes :=
  match privRefusal s .keyWrite j.w j.privileged, slotN j.w.slot2.toNat, typeOf (j.w.aux.toNat % 16) with
  | some st, _, _ => (s, st, [])
  | none, some n, some ty =>
    if ty = .empty ∨ j.w.dataLen.toNat ≠ keyLen ty then (s, .paramRange, [])
    else
      (writeSlot s n
        { type := ty, usage := byte (j.w.aux.toNat / 16 % 256), persist := bitAt j.w.aux.toNat 15
          expireReset := bitAt j.w.aux.toNat 16, origin := 3, lc := lcNow s
          parent := if n.val < 160 then (if s.keys.depot then 165 else 164) else 0xFF }
        (jobIn s t j 0 (keyLen ty)), .ok, [])
  | none, _, _ => (s, .paramRange, [])

/-- IMPORT (R245, R246). DEDUCED, log 79. -/
def runImport (s : State) (t : Fin 48) (j : Job) : State × Status × Bytes :=
  let (s1, st) := importWrapped s (jobIn s t j 0 j.w.dataLen.toNat)
  (s1, st, [])

/-- TAG_LOAD (R248): slots 167, 168 and 169 go into TAG_KEY and are invalidated. -/
def tagLoad (s : State) : State × Status :=
  let rid := slotAt s 167
  let k0 := slotAt s 168
  let k1 := slotAt s 169
  match [rid, k0, k1].findSome? fun k => slotRefusal s { k with usage := 1 } 0 with
  | some st => (s, st)
  | none =>
    if rid.gen = 0xFFFFFFFF ∨ k0.gen = 0xFFFFFFFF ∨ k1.gen = 0xFFFFFFFF then (s, .paramRange) else
    let s1 := { s with tag := { s.tag with kRid := rid.key, key0 := k0.key, key1 := k1.key } }
    ((invalidate (invalidate (invalidate s1 167).1 168).1 169).1, .ok)

/-- A proof no older than 384,000 ticks (R179, R271). DEDUCED, log 88. -/
def freshAt (s : State) (t : Nat) : Bool := decide (now s ≤ t + 384000)

/-- Whether the proof records of a context bear a grant (R179, R271). DEDUCED, log 88. -/
def proofsBear (s : State) (g : Nat) (p : ProofRec) (nC ctr : W32) : Bool :=
  match g with
  | 3 => match p.press with
    | some (c, t, _) => c == ctr && freshAt s t
    | none => false
  | 4 => match p.hf with
    | some (t, _) => freshAt s t
    | none => false
  | 5 => match p.hf with
    | some (t, _) => freshAt s t
    | none => false
  | _ => match p.prove, p.report with
    | some (a, t, _), some (b, u, _) => a == nC && b == nC && freshAt s t && freshAt s u
    | _, _ => false

/-- The proofs that a latch consumes. DEDUCED, log 88. -/
def consume (g : Nat) (p : ProofRec) : ProofRec :=
  match g with
  | 3 => { p with press := none }
  | 4 => { p with hf := none }
  | 5 => { p with hf := none }
  | _ => { p with prove := none, report := none }

/-- VERDICT (R271, R272, R354): 16 bytes of input, checked against the proof records; a start verdict is refused with
EPOCH_MISMATCH while the field die may send no verdict, every grant with POLICY_DENIED in service-lock (R261).
DEDUCED, log 88. -/
def verdict (s : State) (b : Bytes) : State × Status :=
  let g := byteAt b 0
  let c := byteAt b 1
  if g == 0 || decide (5 < g) || decide (7 < byteAt b 2) || decide (15 < byteAt b 3) || !allZero (slice b 12 4) then (s, .paramRange)
  else if h : c < 160 then
    let ctx : Fin 160 := ⟨c, h⟩
    let p := s.gq.proofs[ctx]
    if s.keys.svcLock || !proofsBear s g p (BitVec.ofNat 32 (leAt b 4 4)) (BitVec.ofNat 32 (leAt b 8 4)) then (s, .policyDenied)
    else if startGrant g && !verdictsGo s then (s, .epochMismatch)
    else
      let f : VerdictFrame :=
        { grant := byte g, ctx := byte c, zone := byte (byteAt b 2), doors := BitVec.ofNat 4 (byteAt b 3), epoch := s.bar.fieldEnd.epoch }
      (latchVerdict (modProof s ctx (consume g)) f, .ok)
  else (s, .paramRange)

/-- An output of an operation that is no key, delivered by DST (R266). DEDUCED, log 83. -/
def delivered (j : Job) (r : State × Status × Bytes) : State × Status × Bytes :=
  if r.2.1 = .ok then
    let (s1, out) := deliver r.1 j false r.2.2
    (s1, .ok, out)
  else r

/-- What a running job computes: the state with its effect, its status and its output. -/
def runJob (s : State) (t : Fin 48) (j : Job) : State × Status × Bytes :=
  match j.op with
  | .aeadSeal => runSeal s t j
  | .aeadOpen => runOpen s t j
  | .cmac => delivered j (s, .ok, Config.cmac (jobKey j) (jobIn s t j 0 j.w.dataLen.toNat))
  | .cmacVerify =>
    let d := j.w.dataLen.toNat
    let m := j.w.mode.toNat
    (s, if (Config.cmac (jobKey j) (jobIn s t j 0 d)).take m = jobIn s t j d m then .ok else .authFail, [])
  | .kdf => runKdf s t j
  | .nonce => delivered j (runNonce s j)
  | .aqmosAlias => delivered j (runAlias s j)
  | .aqmosVerify => runVerify s t j
  | .stsDerive => runSts s j
  | .hash => delivered j (runHash s t j)
  | .ecdsaSign => delivered j (runSign s t j)
  | .ecdsaVerify => runSigVerify s t j
  | .ecdh => runEcdh s t j
  | .random => delivered j (runRandom s j)
  | .keyWrite => runKeyWrite s t j
  | .importKey => runImport s t j
  | .invalidate =>
    match slotN j.w.slot.toNat with
    | some n =>
      let (s1, st) := invalidate (remaskWait s n.val) n
      (s1, st, [])
    | none => (s, .paramRange, [])
  | .tagLoad =>
    if j.privileged && lcOf s = .provisioned then
      let (s1, st) := tagLoad s
      (s1, st, [])
    else (s, .wrongState, [])
  | .verdict =>
    let (s1, st) := verdict s (jobIn s t j 0 16)
    (s1, st, [])

/-- The end of a running job (R252, R264, R267, R268, R274, R279, R280): a window job takes its next segment; an orphaned job has no
effect and no output, and so has one that a steward restart or a life-cycle change overtook, with its status; a difference
between paired or repeated outputs is FAULT_MISMATCH with nothing written. The answer's status is none when no job ends. -/
def endJob (s : State) (t : Fin 48) (mismatch : Bool) : State × Option Status :=
  match jobAt s t with
  | none => (s, none)
  | some j =>
    if j.phase ≠ .running then (s, none)
    else if j.orphaned then (finishJob s t .keyOrphaned [], some .keyOrphaned)
    else if segWaits j then (setJob s t (some (takeSeg s j)), none)
    else if j.suppress then (finishJob s t (runJob s t j).2.1 [], some (runJob s t j).2.1)
    else if mismatch && j.deep && (pairedJob j || j.op == .ecdsaSign || j.op == .ecdh) then
      (finishJob s t .faultMismatch [], some .faultMismatch)
    else
      let (s1, st, out) := runJob s t j
      (finishJob s1 t st out, some st)

/-! ### The operation rows: each submits one job (R266, R269) -/

/-- AEAD_SEAL (R269, R273, R276). -/
def doAeadSeal (w : JobWords) (s : State) : State := submit .aeadSeal w s.gq.privileged s

/-- AEAD_OPEN (R269, R273 to R275). -/
def doAeadOpen (w : JobWords) (s : State) : State := submit .aeadOpen w s.gq.privileged s

/-- CMAC (R269). -/
def doCmac (w : JobWords) (s : State) : State := submit .cmac w s.gq.privileged s

/-- CMAC_VERIFY (R269). -/
def doCmacVerify (w : JobWords) (s : State) : State := submit .cmacVerify w s.gq.privileged s

/-- KDF (R233, R234, R269). -/
def doKdf (w : JobWords) (s : State) : State := submit .kdf w s.gq.privileged s

/-- NONCE (R269, R270). -/
def doNonce (w : JobWords) (s : State) : State := submit .nonce w s.gq.privileged s

/-- STS_DERIVE (R135, R269). -/
def doStsDerive (w : JobWords) (s : State) : State := submit .stsDerive w s.gq.privileged s

/-- HASH (R269). -/
def doHash (w : JobWords) (s : State) : State := submit .hash w s.gq.privileged s

/-- ECDSA_SIGN (R269, R280, R282). -/
def doEcdsaSign (w : JobWords) (s : State) : State := submit .ecdsaSign w s.gq.privileged s

/-- ECDSA_VERIFY (R269, R282). -/
def doEcdsaVerify (w : JobWords) (s : State) : State := submit .ecdsaVerify w s.gq.privileged s

/-- ECDH (R269, R280, R282). -/
def doEcdh (w : JobWords) (s : State) : State := submit .ecdh w s.gq.privileged s

/-- RANDOM (R269). -/
def doRandom (w : JobWords) (s : State) : State := submit .random w s.gq.privileged s

/-- KEY_WRITE (R247): `privileged` is the steward's bit on the bus master at submission. -/
def doKeyWrite (privileged : Bool) (w : JobWords) (s : State) : State := submit .keyWrite w privileged s

/-- IMPORT (R245, R246). -/
def doImport (w : JobWords) (s : State) : State := submit .importKey w s.gq.privileged s

/-- INVALIDATE (R251). -/
def doInvalidate (w : JobWords) (s : State) : State := submit .invalidate w s.gq.privileged s

/-- TAG_LOAD (R248). -/
def doTagLoad (privileged : Bool) (w : JobWords) (s : State) : State := submit .tagLoad w privileged s

/-- ORPHAN_ZEROISE (R251 step 5): the lowest orphan that waits and that no running job uses. -/
def doOrphanZeroise (s : State) : State :=
  match (orphansWaiting s).find? fun n => !slotInUse s n with
  | some n => zeroiseOrphan s n
  | none => s

/-- The operation of OP and MODE; none for a reserved OP (R269). -/
def opOfCode (op mode : Nat) : Option JobOp :=
  match op with
  | 0x01 => some .aeadSeal | 0x02 => some .aeadOpen | 0x03 => some .cmac | 0x04 => some .cmacVerify | 0x05 => some .kdf
  | 0x06 => some .nonce | 0x07 => some .aqmosAlias | 0x08 => some .aqmosVerify | 0x09 => some .stsDerive
  | 0x0A => some .hash | 0x0B => some .ecdsaSign | 0x0C => some .ecdsaVerify | 0x0D => some .ecdh | 0x0E => some .random
  | 0x10 => match mode with
    | 0 => some .keyWrite | 1 => some .importKey | 2 => some .invalidate | 3 => some .tagLoad | _ => none
  | 0x11 => some .verdict
  | _ => none

/-- GQ_STATUS (R292). -/
def gqStatus (s : State) : Nat :=
  tagsHeld s + 64 * b2n s.gq.engAOut + 128 * b2n s.gq.engBOut + 256 * b2n s.gq.trngOut + 512 * b2n s.gq.trngRestart + 1024 * b2n s.pres.deep

/-- KS_STATUS (R262). -/
def ksStatus (s : State) : Nat := b2n s.keys.unmasked + 2 * b2n (remasking s) + 4 * Nat.min 255 (orphansWaiting s).length

/-- A word of GQ_OUT as the steward reads it: key-class outputs read as 0 (R292). -/
def gqOutWord (s : State) (off : Nat) : Nat := if tagKeyClass s (off / 256) then 0 else leNat (memReadBytes s.gq.outBuf (off / 4 * 4) 4)

/-- The fields of the four submission words, for a tag below 48 (R266). -/
def jobWords (w : Vector W32 4) (tag : Fin 48) : JobWords :=
  { tag := tag, hold := bitAt w[0].toNat 14, prio := bitAt w[0].toNat 15, slot := fld w[0] 23 16 8, slot2 := fld w[0] 31 24 8
    dataLen := fld w[1] 15 0 16, adLen := fld w[1] 31 16 16, mode := fld w[2] 7 0 8, dst := fld w[2] 11 8 4
    area := fld w[2] 15 12 4, src := bitAt w[2].toNat 16, aux := w[3] }

/-- The tag of submission word 0; none from 48 on. -/
def subTag (w : Vector W32 4) : Option (Fin 48) := if h : bitsOf w[0] 13 8 < 48 then some ⟨bitsOf w[0] 13 8, h⟩ else none

/-- GQ_SUBMIT3 written: the job of the four words is submitted; a reserved OP, or a MODE of OP 0x10 that selects nothing,
gives BAD_OPCODE (R266, R269). DESIGN CHOICE, log 84. -/
def submitWords (s : State) : State :=
  match subTag s.gq.sub with
  | none => s
  | some t =>
    let w := jobWords s.gq.sub t
    match opOfCode (bitsOf s.gq.sub[0] 7 0) w.mode.toNat with
    | some op => submit op w s.gq.privileged s
    | none => doneAdd s t (if (jobAt s t).isSome then .busy else .badOpcode)

/-! ### Proof records, tags and completion records (R270, R292) -/

/-- The proofs of a record that have not passed 384,000 ticks. -/
def dropStale (s : State) (p : ProofRec) : ProofRec :=
  { p with
    prove := p.prove.filter fun x => freshAt s x.2.1
    report := p.report.filter fun x => freshAt s x.2.1
    press := p.press.filter fun x => freshAt s x.2.1
    hf := p.hf.filter fun x => freshAt s x.1 }

/-- The ticks of the proofs that a record holds. -/
def proofTicks (p : ProofRec) : List Nat :=
  (p.prove.toList.map fun x => x.2.1) ++ (p.report.toList.map fun x => x.2.1) ++ (p.press.toList.map fun x => x.2.1) ++
    (p.hf.toList.map fun x => x.1)

/-- PROOF_RECORD_EXPIRE (R270): 384,000 ticks after the context's oldest verification have passed. -/
def doProofRecordExpire (ctx : Fin 160) (s : State) : State :=
  match proofTicks s.gq.proofs[ctx] with
  | [] => s
  | t :: ts =>
    let s1 := elapseTo s (ts.foldl Nat.min t + 384001)
    modProof s1 ctx (dropStale s1)

/-- GQ_FREE: a completed job's tag is freed. -/
def doGqFree (tag : BitVec 6) (s : State) : State :=
  match vgetN s.gq.jobs tag.toNat none with
  | some j =>
    if j.phase = .done then
      { s with gq := { s.gq with
          jobs := vmodN s.gq.jobs tag.toNat fun _ => none
          outBuf := memClear s.gq.outBuf (256 * tag.toNat) 256 } }
    else s
  | none => s

/-- GQ_CANCEL: a held job that was not released completes with RETRY. -/
def doGqCancel (tag : BitVec 6) (s : State) : State :=
  if h : tag.toNat < 48 then
    match jobAt s ⟨tag.toNat, h⟩ with
    | some j => if j.phase = .held then finishJob s ⟨tag.toNat, h⟩ .retry [] else s
    | none => s
  else s

/-- GQ_DONE_READ: the oldest record is delivered and removed; GQ_DONE_TICK holds its tick. -/
def doGqDoneRead (s : State) : State :=
  match s.gq.dones with
  | [] => { s with lastRead := leBytes 4 0 }
  | d :: ds =>
    { s with
      lastRead := leBytes 4 ((statusCode d.status).toNat + 65536 * d.tag.val + 4194304)
      gq := { s.gq with dones := ds, doneTick := BitVec.ofNat 32 d.tick } }

/-! ### Engine tests (R281, R480) -/

/-- Known-answer tests on both AES engines: one that fails is out of service until the next Gules reset.
DESIGN CHOICE, log 166. -/
def katRun (s : State) (failA failB : Bool) : State :=
  { s with gq := { s.gq with engAOut := s.gq.engAOut || failA, engBOut := s.gq.engBOut || failB } }

/-- MISMATCH_KAT (R281): the tests after a FAULT_MISMATCH; three within 10 s with both engines passing are counted
as suspected fault injection. DESIGN CHOICE, log 166. -/
def doMismatchKat (failA failB : Bool) (s : State) : State :=
  if !s.gq.katDue then s
  else
    let s1 := katRun { s with gq := { s.gq with katDue := false } } failA failB
    let recent := s1.gq.mismatches.filter fun t => decide (now s1 ≤ t + 10 * ticksPerSec)
    if 3 ≤ recent.length ∧ s1.gq.engAOut = false ∧ s1.gq.engBOut = false then
      { s1 with
        gq := { s1.gq with mismatches := [] }
        bg := { s1.bg with pu := { s1.bg.pu with suspectFi := satInc s1.bg.pu.suspectFi } } }
    else { s1 with gq := { s1.gq with mismatches := recent } }

/-- KNOWN_ANSWER_TEST (R480): every 60 s in Chalk. DESIGN CHOICE, log 166. -/
def doKnownAnswerTest (failA failB : Bool) (s : State) : State :=
  if s.pwr.pstate = .chalk then
    let due := s.bg.times.kat + 60 * ticksPerSec
    let s1 := katRun (countLate (elapseChalk s due) due (60 * ticksPerSec)) failA failB
    { s1 with bg := { s1.bg with times := { s1.bg.times with kat := chalkNow s1 } } }
  else s

/-! ### Re-masking and the TRNG (R254, R283) -/

/-- A slot re-masked with a fresh M′ where it is VALID (R254): both shares change, the key does not. -/
def remasked (k : KeySlot) (m : Bytes) : KeySlot := if k.state = .valid then { k with mask := m } else k

/-- REMASK_PASS (R254, R444): every 5 s in Chalk every VALID slot is re-masked once, each with a draw of its own, one slot after
the other from here. DESIGN CHOICE, log 89. -/
def doRemaskPass (s0 : State) : State :=
  if s0.pwr.pstate = .chalk then
    let due := s0.bg.times.remask + 5 * ticksPerSec
    let s := countLate (elapseChalk s0 due) due (5 * ticksPerSec)
    { s with
      freeCtr := s.freeCtr + 224
      keys := { s.keys with
        slots := Vector.ofFn fun n : Fin 224 => remasked s.keys.slots[n] (Config.freeBytes (s.freeCtr + n.val) 48) }
      bg := { s.bg with remaskAt := some s.clock, times := { s.bg.times with remask := chalkNow s } } }
  else s0

/-- Running jobs that need randomness complete with a status. DESIGN CHOICE, log 89. -/
def endRandomJobs (s : State) (st : Status) : State :=
  (List.finRange 48).foldl (fun x t => match jobAt x t with
    | some j => if j.phase = .running && needsRandom j.op then finishJob x t st [] else x
    | none => x) s

/-- TRNG_HEALTH_FAIL (R283): the pending output is discarded, the source restarts. DESIGN CHOICE, log 89. -/
def doTrngHealthFail (s : State) : State :=
  if s.gq.trngOut then s
  else endRandomJobs (anomSet { s with gq := { s.gq with trngRestart := true, nTrng := satInc s.gq.nTrng } } 5) .retry

/-- TRNG_RESTART_DONE (R283): after three consecutive failed restarts the TRNG is out of service.
DESIGN CHOICE, log 89. -/
def doTrngRestartDone (ok : Bool) (s : State) : State :=
  if !s.gq.trngRestart then s
  else if ok then { s with gq := { s.gq with trngRestart := false, trngFails := 0 } }
  else if 2 ≤ s.gq.trngFails then
    endRandomJobs { s with gq := { s.gq with trngRestart := false, trngFails := 3, trngOut := true } } .wrongState
  else { s with gq := { s.gq with trngFails := s.gq.trngFails + 1 } }

/-- DRBG_RESEED (R283): 1 s after the last seeding the request count starts again. -/
def doDrbgReseed (s0 : State) : State :=
  let s := elapseTo s0 (s0.gq.drbgAt + ticksPerSec)
  { s with gq := { s.gq with drbgReqs := 0, drbgAt := now s } }

/-! ### What other families bring about (R237, R259, R268) -/

/-- A steward restart clears the queue (R268): held jobs end with RETRY, undelivered outputs are zeroed, proof
records cleared, running jobs finish with their output zeroed. The challenges that Gules holds for MAC_R and the STS key are
no proof records. DEDUCED, log 133. -/
def gulesStewardRestart (s : State) : State :=
  let s1 := (List.finRange 48).foldl (fun x t => match jobAt x t with
    | some j => if j.phase = .held then finishJob x t .retry [] else x
    | none => x) s
  { s1 with gq := { s1.gq with
      jobs := vmap s1.gq.jobs fun o => o.map fun j => if j.phase = .done then j else { j with suppress := true }
      outBuf := [], held := [], heldOk := false, heldBy := []
      proofs := vmap s1.gq.proofs fun p => { chal := p.chal, sess := p.sess } } }

/-- Every job in progress or waiting completes with a status and no output, every buffer is zeroed (R259, R294). -/
def gulesAbort (s : State) (st : Status) : State :=
  let s1 := (List.finRange 48).foldl (fun x t => match jobAt x t with
    | some j => if j.phase = .done then x else finishJob x t st []
    | none => x) s
  { s1 with gq := { s1.gq with inBuf := [], outBuf := [], held := [], heldOk := false, heldBy := [], latch := none } }

/-- A Gules reset (R250, R278, R281, R283, R352): counters resume at NEXT, engines and TRNG return to service, the
field epoch is 0, proof records are gone. -/
def gulesReset (s : State) : State :=
  let s1 := nonceReset s
  { s1 with
    gq := { s1.gq with
      engAOut := false, engBOut := false, trngOut := false, trngRestart := false, trngFails := 0, drbgReqs := 0, drbgAt := now s1
      proofs := vmap s1.gq.proofs fun _ => {}, latch := none }
    bar := { s1.bar with fieldEnd := { s1.bar.fieldEnd with epoch := 0 } } }

/-- A life-cycle change (R237, R264): queued jobs that name a slot return WRONG_STATE, running jobs finish with output
zeroed. -/
def gulesLifeCycle (s : State) : State :=
  (List.finRange 48).foldl (fun x t => match jobAt x t with
    | some j =>
      if (j.phase = .held || j.phase = .ready) && (opUse j.op).isSome then finishJob x t .wrongState []
      else if j.phase = .running then setJob x t (some { j with suppress := true })
      else x
    | none => x) s

/-! ### The commands of this file -/

/-- AEAD_SEAL (R273). -/
def execAeadSeal (w : JobWords) (s : State) : Host.Outcome State Fault Refusal :=
  done s (doAeadSeal w s)

/-- AEAD_OPEN (R274). -/
def execAeadOpen (w : JobWords) (s : State) : Host.Outcome State Fault Refusal :=
  done s (doAeadOpen w s)

/-- CMAC (R269). -/
def execCmac (w : JobWords) (s : State) : Host.Outcome State Fault Refusal :=
  done s (doCmac w s)

/-- CMAC_VERIFY (R269). -/
def execCmacVerify (w : JobWords) (s : State) : Host.Outcome State Fault Refusal :=
  done s (doCmacVerify w s)

/-- KDF (R233). -/
def execKdf (w : JobWords) (s : State) : Host.Outcome State Fault Refusal :=
  done s (doKdf w s)

/-- NONCE (R269). -/
def execNonce (w : JobWords) (s : State) : Host.Outcome State Fault Refusal :=
  done s (doNonce w s)

/-- STS_DERIVE (R135). -/
def execStsDerive (w : JobWords) (s : State) : Host.Outcome State Fault Refusal :=
  done s (doStsDerive w s)

/-- HASH (R269). -/
def execHash (w : JobWords) (s : State) : Host.Outcome State Fault Refusal :=
  done s (doHash w s)

/-- ECDSA_SIGN (R280). -/
def execEcdsaSign (w : JobWords) (s : State) : Host.Outcome State Fault Refusal :=
  done s (doEcdsaSign w s)

/-- ECDSA_VERIFY (R282). -/
def execEcdsaVerify (w : JobWords) (s : State) : Host.Outcome State Fault Refusal :=
  done s (doEcdsaVerify w s)

/-- ECDH (R280). -/
def execEcdh (w : JobWords) (s : State) : Host.Outcome State Fault Refusal :=
  done s (doEcdh w s)

/-- RANDOM (R269). -/
def execRandom (w : JobWords) (s : State) : Host.Outcome State Fault Refusal :=
  done s (doRandom w s)

/-- KEY_WRITE (R247). -/
def execKeyWrite (privileged : Bool) (w : JobWords) (s : State) : Host.Outcome State Fault Refusal :=
  done s (doKeyWrite privileged w s)

/-- IMPORT (R246). -/
def execImport (w : JobWords) (s : State) : Host.Outcome State Fault Refusal :=
  done s (doImport w s)

/-- INVALIDATE (R251). -/
def execInvalidate (w : JobWords) (s : State) : Host.Outcome State Fault Refusal :=
  done s (doInvalidate w s)

/-- ORPHAN_ZEROISE (R251). -/
def execOrphanZeroise (s : State) : Host.Outcome State Fault Refusal :=
  done s (doOrphanZeroise s)

/-- TAG_LOAD (R248). -/
def execTagLoad (privileged : Bool) (w : JobWords) (s : State) : Host.Outcome State Fault Refusal :=
  done s (doTagLoad privileged w s)

/-- PROOF_RECORD_EXPIRE (R270). -/
def execProofRecordExpire (ctx : Fin 160) (s : State) : Host.Outcome State Fault Refusal :=
  done s (doProofRecordExpire ctx s)

/-- GQ_FREE (R292). -/
def execGqFree (tag : BitVec 6) (s : State) : Host.Outcome State Fault Refusal :=
  done s (doGqFree tag s)

/-- GQ_CANCEL (R292). -/
def execGqCancel (tag : BitVec 6) (s : State) : Host.Outcome State Fault Refusal :=
  done s (doGqCancel tag s)

/-- GQ_DONE_READ (R292). -/
def execGqDoneRead (s : State) : Host.Outcome State Fault Refusal :=
  done s (doGqDoneRead s)

/-- MISMATCH_KAT (R281). -/
def execMismatchKat (failA : Bool) (failB : Bool) (s : State) : Host.Outcome State Fault Refusal :=
  done s (doMismatchKat failA failB s)

/-- KNOWN_ANSWER_TEST (R480). -/
def execKnownAnswerTest (failA : Bool) (failB : Bool) (s : State) : Host.Outcome State Fault Refusal :=
  done s (doKnownAnswerTest failA failB s)

/-- REMASK_PASS (R254). -/
def execRemaskPass (s : State) : Host.Outcome State Fault Refusal :=
  done s (doRemaskPass s)

/-- TRNG_HEALTH_FAIL (R283). -/
def execTrngHealthFail (s : State) : Host.Outcome State Fault Refusal :=
  done s (doTrngHealthFail s)

/-- TRNG_RESTART_DONE (R283). -/
def execTrngRestartDone (ok : Bool) (s : State) : Host.Outcome State Fault Refusal :=
  done s (doTrngRestartDone ok s)

/-- DRBG_RESEED (R283). -/
def execDrbgReseed (s : State) : Host.Outcome State Fault Refusal :=
  done s (doDrbgReseed s)

end Sys2Proof.Machine
end

