-- ==== Sys2Proof/Machine/Tag.lean ====
section
/-! DEFINITION. The yard tag: its pages and anti-tearing, arbitration between reader and steward, and the Gen2 commands
that it answers (R215 to R229). -/

namespace Sys2Proof.Machine

open Sys2Proof

/-! ### Pages and their copies (R224, R225) -/

/-- FLAG counts as set only at 0xA5C3. DESIGN CHOICE, log 92. -/
def flagSet (c : TagCopy) : Bool := c.flag == 0xA5C3

/-- The current copy of a page (false copy 0, true copy 1), none where neither counts; and whether copy 0 was taken
for want of a rule, which counts a tag fault. -/
def tagCurrent (p : TagPage) : Option Bool × Bool :=
  match flagSet p.c0, flagSet p.c1 with
  | false, false => (none, false)
  | true, false => (some false, false)
  | false, true => (some true, false)
  | true, true =>
    if p.c0.gen = p.c1.gen + 1 then (some false, false)
    else if p.c1.gen = p.c0.gen + 1 then (some true, false)
    else (some false, true)

/-- A page as its 64 bytes read. -/
def pageBytes (p : TagPage) : Mem :=
  match (tagCurrent p).1 with
  | some false => p.c0.data
  | some true => p.c1.data
  | none => []

def tagPage (s : State) (n : Fin 32) : TagPage := s.tag.pages[n]

def setTagPage (s : State) (n : Fin 32) (p : TagPage) : State :=
  { s with tag := { s.tag with pages := vset s.tag.pages n p } }

/-- An access to a page: where two flags are set with GEN one apart, step 4 is completed; any other pair of set flags
counts a tag fault. -/
def touchPage (s : State) (n : Fin 32) : State :=
  let p := tagPage s n
  match tagCurrent p with
  | (some b, false) =>
    if flagSet p.c0 && flagSet p.c1 then
      setTagPage s n (if b then { p with c0 := { p.c0 with flag := 0 } } else { p with c1 := { p.c1 with flag := 0 } })
    else s
  | (some _, true) => { s with tag := { s.tag with tagFault := true, nFault := satInc s.tag.nFault } }
  | (none, _) => s

/-- Steps 1 and 2 of R224: the shadow holds the new page, its FLAG unset. -/
def writeShadow (p : TagPage) (data : Mem) : TagPage :=
  if (tagCurrent p).1 = some false then { p with c1 := { p.c1 with data := data, flag := 0 } }
  else { p with c0 := { p.c0 with data := data, flag := 0 } }

/-- Step 3: the shadow's FLAG is set with GEN one higher than the other copy's. -/
def setFlag (p : TagPage) (toCopy1 : Bool) : TagPage :=
  if toCopy1 then { p with c1 := { p.c1 with flag := 0xA5C3, gen := p.c0.gen + 1 } }
  else { p with c0 := { p.c0 with flag := 0xA5C3, gen := p.c1.gen + 1 } }

/-- Step 4: the old copy's FLAG is cleared. -/
def clearOld (p : TagPage) (newCopy1 : Bool) : TagPage :=
  if newCopy1 then { p with c0 := { p.c0 with flag := 0 } } else { p with c1 := { p.c1 with flag := 0 } }

/-- Which copy a write of the page makes its shadow: the one that is not current, copy 0 where there is none. -/
def shadowIs1 (p : TagPage) : Bool := (tagCurrent p).1 == some false

/-- A whole write of a page, steps 1 to 4. -/
def writePage (p : TagPage) (data : Mem) : TagPage :=
  let b := shadowIs1 p
  clearOld (setFlag (writeShadow p data) b) b

/-- A page's content with bytes changed in place. -/
def pageWith (p : TagPage) (off : Nat) (d : Bytes) : Mem := memWriteBytes (pageBytes p) off d

/-- The steward's or a reader's write of bytes within one page. -/
def tagWriteAt (s0 : State) (n : Fin 32) (off : Nat) (d : Bytes) : State :=
  let s := touchPage s0 n
  setTagPage s n (writePage (tagPage s n) (pageWith (tagPage s n) off d))

/-- The page of a word address of user memory. -/
def wordPage (w : Nat) : Fin 32 := ⟨w / 32 % 32, Nat.mod_lt _ (by decide)⟩

/-- `n` words of user memory from word `w`, two bytes each. -/
def userBytes (s : State) (w n : Nat) : Bytes :=
  (List.range n).flatMap fun i =>
    let x := w + i
    let m := pageBytes (tagPage s (wordPage x))
    [memRead m (2 * (x % 32)), memRead m (2 * (x % 32) + 1)]

/-- Every page that `n` words from `w` touch is accessed. -/
def touchWords (s : State) (w n : Nat) : State :=
  (List.finRange 32).foldl (fun t p =>
    if decide (w / 32 ≤ p.val) && decide (p.val ≤ (w + n - 1) / 32) then touchPage t p else t) s

/-! ### Steward accesses (R226) -/

/-- A command's access ends with a status: the response is posted. -/
def tagRespond (s : State) (a : TagAccess) (st : Status) (r : Bytes) : State :=
  match a.cmd with
  | some (slot, ctag) =>
    respond s slot (if a.read.isSome then 0x0602 else 0x0603) ctag.toNat st r
  | none => s

/-- The pages of an access written in turn. -/
def tagWrites (s : State) : List (Fin 32 × Nat × Bytes) → State
  | [] => s
  | (p, off, d) :: ws => tagWrites (tagWriteAt s p off d) ws

/-- Steps 1 and 2 of an access's first page: its shadow is written and checked. -/
def tagBegin (s : State) (a : TagAccess) (as : List TagAccess) : State :=
  match a.writes with
  | [] => { s with tag := { s.tag with steward := a :: as } }
  | (p, off, d) :: _ =>
    let s1 := touchPage s p
    let g := tagPage s1 p
    let s2 := setTagPage s1 p (writeShadow g (pageWith g off d))
    { s2 with tag := { s2.tag with steward := { a with since := now s2, shadowed := true } :: as } }

/-- The shadow mismatches a second time: it holds open content, its FLAG unset, and the old content stands (R224). -/
def tagMismatch (s : State) (a : TagAccess) : State :=
  match a.writes with
  | [] => s
  | (p, _, _) :: _ =>
    let s1 := touchPage s p
    { setTagPage s1 p (writeShadow (tagPage s1 p) (memWriteBytes [] 0 (Config.freeBytes s1.freeCtr 64))) with freeCtr := s1.freeCtr + 1 }

/-- A shadow already written is taken on: step 3 and step 4 of its page, then the other pages. -/
def finishShadow (s : State) (a : TagAccess) : State :=
  match a.writes with
  | [] => s
  | (p, _, _) :: ws =>
    let g := tagPage s p
    let b := shadowIs1 g
    tagWrites (setTagPage s p (clearOld (setFlag g b) b)) ws

/-- One access served to its end. -/
def tagServeOne (s : State) (a : TagAccess) : State :=
  match a.read with
  | some (w, n) => tagRespond (touchWords s w n) a .ok (userBytes (touchWords s w n) w n)
  | none =>
    if a.bad && !a.shadowed then tagRespond (tagMismatch s a) a .retry []
    else tagRespond (if a.shadowed then finishShadow s a else tagWrites s a.writes) a .ok []

/-- The accesses that wait, served in order while no reader holds the memory. -/
def tagServeAll : List TagAccess → State → State
  | [], s => s
  | a :: as, s => tagServeAll as (tagServeOne s a)

/-- Whether a steward write is between step 1 and step 4 (TAG_STATUS.STEWARD_WR). -/
def stewardWriting (t : Tag) : Bool := t.steward.any fun a => a.shadowed

/-- The steward's waiting accesses, served where no reader holds the memory; in Ash they wait for the store's last step
(R313). DESIGN CHOICE, log 91. -/
def tagServe (s : State) : State :=
  if s.tag.readerHold || s.tag.steward.isEmpty || s.orr.ash then s
  else
    let s1 := tagServeAll s.tag.steward { s with tag := { s.tag with steward := [] } }
    if s.tag.steward.any fun a => a.cmd.isSome then passEnd s1 else s1

/-- A steward access requested: served at once unless a reader holds the memory. DESIGN CHOICE, log 91. -/
def tagAccess (s : State) (a : TagAccess) : State := tagServe { s with tag := { s.tag with steward := s.tag.steward ++ [a] } }

/-- A steward write of one page with no command behind it (R223): with the memory free, what runs ends and the write is at
step 2 when the row ends. Whether its shadow mismatches twice is free. DESIGN CHOICE, log 91. -/
def tagStewardWrite (s0 : State) (p : Fin 32) (off : Nat) (d : Bytes) : State :=
  let (r, s) := drawNat s0 2
  let a : TagAccess := { writes := [(p, off, d)], since := now s, bad := decide (r = 1) }
  if s.tag.readerHold || s.orr.ash then { s with tag := { s.tag with steward := s.tag.steward ++ [a] } }
  else if a.bad then tagServeOne (tagServe s) a
  else tagBegin (tagServe s) a []

/-- TAG_WAIT_TIMEOUT (R226): 25 ms after its request, or after step 2, the access ends with TAG_BUSY and the old content
stands; with the memory free no access waits. DESIGN CHOICE, log 91. -/
def doTagWaitTimeout (s : State) : State :=
  match s.tag.steward with
  | [] => s
  | a :: as =>
    if !s.tag.readerHold && !s.orr.ash then tagServe s
    else
    let s1 := elapseTo s (a.since + 25 * ticksPerMs)
    let s2 := { s1 with tag := { s1.tag with steward := as, nBusy := satInc s1.tag.nBusy } }
    if a.cmd.isSome then passEnd (tagRespond s2 a .tagBusy []) else tagRespond s2 a .tagBusy []

/-! ### Sessions and replies (R217) -/

/-- Session counter c: the current copy's four bytes (R217, R225). -/
def ridCtr (t : Tag) : Nat := leNat ((List.range 4).map (memRead (pageBytes t.ridPage)))

/-- The copies with c + 1 written, steps 1 to 4 (R217, R224). -/
def ridNext (t : Tag) : TagPage := writePage t.ridPage (memWriteBytes [] 0 (leBytes 4 (ridCtr t + 1)))

/-- The commit of c + 1 that the session's first reply began is complete (R217). -/
def ridSettle (t : Tag) : Tag := if t.ridCommit then { t with ridPage := ridNext t, ridCommit := false } else t

/-- An inventoried S1 flag falls back to A between 0.5 s and 5 s after it was set. PRESUMED, log 15. -/
def s1Settle (s : State) : State :=
  let t := s.tag
  if !bitAt t.inventoried.toNat 1 || decide (s.clock < t.s1At + 500 * ticksPerMs) then s
  else
    let (r, s1) := drawNat s 2
    if r = 1 ∨ t.s1At + 5 * ticksPerSec < s.clock then { s1 with tag := { t with inventoried := t.inventoried &&& 0xD } } else s1

/-- A tag command reaches the tag: its reader has the reply to the command before, so a hold has ended and the commit of the
session counter is complete. -/
def tagCommand (s : State) : State := s1Settle (tagServe { s with tag := { ridSettle s.tag with readerHold := false } })

/-- t_TAGWR in ticks (R230). -/
def tagWriteTicks : Nat := 6 * ticksPerMs

/-- A reader's Read or Write reaches the tag: the steward's first write is running when it comes, or has ended; past t_TAGWR
it has ended, before that it is free (R226). DESIGN CHOICE, log 91. -/
def tagReach (s0 : State) : State :=
  let s := s1Settle { s0 with tag := { ridSettle s0.tag with readerHold := false } }
  match s.tag.steward with
  | [] => s
  | a :: as =>
    let s1 := if a.shadowed || a.bad || s.orr.ash then s else tagBegin s a as
    let since := ((s1.tag.steward.head?).map (·.since)).getD 0
    let (r, s2) := drawNat s1 2
    if stewardWriting s2.tag && decide (r = 1 ∧ now s2 < since + tagWriteTicks) then s2 else tagServe s2

/-- A tag state: outside open and secured an authentication's access is gone (R219). -/
def setTagState (t : Tag) (x : TagState) : Tag :=
  { t with st := x, authKey := if x = .openState ∨ x = .secured then t.authKey else none }

/-- The tag backscatters; after its first reply of a session the commit of c + 1 begins (R217).
DESIGN CHOICE, log 90. -/
def tagReply (s : State) (b : Bytes) : State :=
  { s with tag := { s.tag with reply := b, ridPending := false, ridCommit := s.tag.ridCommit || s.tag.ridPending } }

/-- The tag runs on harvested energy (TAG_STATUS.HARVEST, R216). -/
def tagHarvest (t : Tag) : Bool := t.powered && !t.supplied

/-- A reply with a header bit of 0 and data, and an error reply: header 1 and the code. -/
def tagData (s : State) (d : Bytes) : State := tagReply s ((0 : Byte) :: d)

/-- An error reply with its code. PRESUMED, log 15. -/
def tagError (s : State) (code : Nat) : State := tagReply s [1, byte code]

/-- Authentication, states and handle are gone with the session. DESIGN CHOICE, log 92. -/
def tagDark (t : Tag) : Tag :=
  { t with
    powered := false, st := .ready, authKey := none, authTried := false, readerHold := false, slotCtr := 0, reply := []
    ridPending := false, trunc := none }

/-- Flags at the start of a session: S0 is A; S2, S3 and SL outlast two seconds without power or are lost, which is open, and
stay where F_VBAT powered the tag. PRESUMED, log 15. -/
def keptFlags (s : State) : State :=
  let t := s.tag
  if t.supplied then { s with tag := { t with inventoried := t.inventoried &&& 0xE } }
  else
    let (r, s1) := drawNat s 8
    { s1 with tag := { t with
        inventoried := t.inventoried &&& BitVec.ofNat 4 (2 + 4 * (r % 2) + 8 * (r / 2 % 2)), sl := t.sl && decide (4 ≤ r) } }

/-- TAG_SESSION_START (R217): power-up, or a field that rises after 2 s. DESIGN CHOICE, log 92. -/
def doTagSessionStart (s0 : State) : State :=
  let s := s1Settle (keptFlags { s0 with tag := ridSettle s0.tag })
  let (rid, s1) := match s.tag.kRid with
    | some k => ((Config.aes k ([0x52, 0x49, 0x44, 0x00] ++ beBytes 4 (ridCtr s.tag) ++ zeros 8)).take 12, s)
    | none => drawBytes s 12
  let t := tagDark s1.tag
  tagServe { s1 with tag := { t with powered := true, ridPending := true, rid := rid, nSession := satInc t.nSession } }

/-! ### Inventory (R215; ISO/IEC 18000-63) -/

/-- StoredPC: length 6 words, UMI 1, T 1 (R217). DESIGN CHOICE, log 90. -/
def storedPc : Bytes := beBytes 2 (6 * 2048 + 1024 + 256)

/-- The EPC bank: StoredCRC over StoredPC and RID, StoredPC, RID. DESIGN CHOICE, log 90. -/
def epcBank (s : State) : Bytes :=
  let body := storedPc ++ s.tag.rid
  beBytes 2 (crc16 body ^^^ 0xFFFF) ++ body

/-- Bits of a byte string, most significant first. -/
def bitsMsb (b : Bytes) : List Bool := b.flatMap msbBits

/-- Bits, most significant first, as bytes filled with zeros. -/
def packMsb : Nat → List Bool → Bytes
  | 0, _ => []
  | k + 1, l =>
    if l.isEmpty then [] else byte ((l.take 8).zipIdx.foldl (fun n p => n + 2 ^ (7 - p.2) * b2n p.1) 0) :: packMsb k (l.drop 8)

/-- The memory that Select compares: EPC bank; TID as far as it is not hidden; PUBLIC unless it is hidden.
DEDUCED, log 93. -/
def selectBits (s : State) (bank : Nat) : List Bool :=
  match bank with
  | 1 => bitsMsb (epcBank s)
  | 2 => bitsMsb (if s.tag.tidHide = 0 then Config.tagTid.take 4 else if s.tag.tidHide = 1 then Config.tagTid.take 4 else [])
  | 3 => if s.tag.publicHide then [] else bitsMsb (userBytes s 0 32)
  | _ => []

/-- Whether a Select's mask matches. DEDUCED, log 93. -/
def selectMatch (s : State) (bank ptr : Nat) (mask : List Bool) : Bool :=
  mask.isEmpty || ((selectBits s bank).drop ptr).take mask.length == mask

/-- The change of a flag under a Select action: SL asserted or an inventoried flag at A is `false` here for inventoried
flags, `true` for SL. PRESUMED, log 15. -/
def selectAct (action : Nat) (hit : Bool) (up : Bool) (x : Bool) : Bool :=
  match action, hit with
  | 0, true => up
  | 0, false => !up
  | 1, true => up
  | 2, false => !up
  | 3, true => !x
  | 4, true => !up
  | 4, false => up
  | 5, true => !up
  | 6, false => up
  | 7, false => !x
  | _, _ => x

/-- TAG_SELECT: TARGET 0 to 3 an inventoried flag, 4 SL, others reserved; the tag is then ready. TRUNCATE, with SL and the EPC
bank, has the tag answer ACK with the EPC after the mask. PRESUMED, log 15. -/
def doTagSelect (target action : BitVec 3) (bank : BitVec 2) (pointer : W16) (mask : List Bool) (truncate : Bool) (s0 : State) :
    State :=
  let s := tagCommand s0
  if !s.tag.powered then s
  else
    let hit := selectMatch s bank.toNat pointer.toNat mask
    let t := { setTagState s.tag .ready with
      trunc := if truncate ∧ target = 4 ∧ bank = 1 then some (pointer.toNat + mask.length) else none }
    let a := action.toNat
    let i := target.toNat
    if i < 4 then
      let v := selectAct a hit false (bitAt t.inventoried.toNat i)
      { s with tag := { t with
          s1At := if i = 1 ∧ v = true then s.clock else t.s1At
          inventoried := if v then t.inventoried ||| BitVec.ofNat 4 (2 ^ i) else t.inventoried &&& ~~~(BitVec.ofNat 4 (2 ^ i)) } }
    else if i = 4 then { s with tag := { t with sl := selectAct a hit true t.sl } }
    else s

/-- A slot drawn from a round of 2^Q slots: in slot 0 the tag replies with a fresh RN16.
PRESUMED, log 15. DESIGN CHOICE, log 90. -/
def drawSlot (s : State) : State :=
  let (k, s1) := drawNat s (2 ^ s.tag.q)
  if k = 0 then
    let (r, s2) := drawNat s1 65536
    tagData { s2 with tag := { setTagState s2.tag .reply with slotCtr := 0, rn16 := BitVec.ofNat 16 r } } (beBytes 2 r)
  else { s1 with tag := { setTagState s1.tag .arbitrate with slotCtr := k } }

/-- A tag in acknowledged, open or secured inverts the inventoried flag of its round when the round moves on.
PRESUMED, log 15. -/
def invertFlag (clock : Nat) (t : Tag) : Tag :=
  { t with inventoried := t.inventoried ^^^ BitVec.ofNat 4 (2 ^ t.session.val), s1At := if t.session = 1 then clock else t.s1At }

/-- Acknowledged, open or secured. -/
def tagSingled (t : Tag) : Bool := t.st = .acknowledged || t.st = .openState || t.st = .secured

/-- TAG_QUERY: link parameters DR, M and TRext, SEL, SESSION, TARGET and Q of the round. PRESUMED, log 15. -/
def doTagQuery (dr : Bool) (miller : BitVec 2) (trext : Bool) (sel : BitVec 2) (session : Fin 4) (target : Bool) (q : BitVec 4)
    (s0 : State) : State :=
  let s := tagCommand s0
  if !s.tag.powered then s
  else
    let t0 := if tagSingled s.tag && s.tag.session = session then invertFlag s.clock s.tag else s.tag
    let t := { t0 with session := session, q := q.toNat, dr := dr, miller := miller, trext := trext }
    let slOk := if sel = 2 then !t.sl else if sel = 3 then t.sl else true
    if slOk && bitAt t.inventoried.toNat session.val == target then drawSlot { s with tag := t }
    else { s with tag := setTagState t .ready }

/-- TAG_QUERY_ADJUST: UpDn 110 Q + 1, 000 Q, 011 Q − 1, others reserved. PRESUMED, log 15. -/
def doTagQueryAdjust (session : Fin 4) (upDn : BitVec 3) (s0 : State) : State :=
  let s := tagCommand s0
  if !s.tag.powered || s.tag.session != session || !(upDn = 6 || upDn = 0 || upDn = 3) then s
  else if tagSingled s.tag then { s with tag := setTagState (invertFlag s.clock s.tag) .ready }
  else if s.tag.st = .arbitrate || s.tag.st = .reply then
    let q := if upDn = 6 then Nat.min 15 (s.tag.q + 1) else if upDn = 3 then s.tag.q - 1 else s.tag.q
    drawSlot { s with tag := { s.tag with q := q } }
  else s

/-- TAG_QUERY_REP: the slot counter steps; at 0 the tag replies. PRESUMED, log 15. -/
def doTagQueryRep (session : Fin 4) (s0 : State) : State :=
  let s := tagCommand s0
  if !s.tag.powered || s.tag.session != session then s
  else if tagSingled s.tag then { s with tag := setTagState (invertFlag s.clock s.tag) .ready }
  else match s.tag.st with
    | .arbitrate =>
      let k := if s.tag.slotCtr = 0 then 32767 else s.tag.slotCtr - 1
      if k = 0 then
        let (r, s1) := drawNat s 65536
        tagData { s1 with tag := { setTagState s1.tag .reply with slotCtr := 0, rn16 := BitVec.ofNat 16 r } } (beBytes 2 r)
      else { s with tag := { s.tag with slotCtr := k } }
    | .reply => { s with tag := { setTagState s.tag .arbitrate with slotCtr := 32767 } }
    | _ => s

/-- The reply to ACK: PC and EPC, or what a truncating Select leaves of the EPC. PRESUMED, log 15. -/
def epcReply (s : State) : State :=
  match s.tag.trunc with
  | none => tagData s (storedPc ++ s.tag.rid)
  | some p => tagData s (packMsb 16 ((bitsMsb (epcBank s)).drop p))

/-- TAG_ACK: PC and EPC follow a matching RN16 or handle; any other value sends the tag back to arbitrate.
PRESUMED, log 15. -/
def doTagAck (rn : W16) (s0 : State) : State :=
  let s := tagCommand s0
  if !s.tag.powered then s
  else match s.tag.st with
    | .ready => s
    | .arbitrate => s
    | .reply =>
      if rn = s.tag.rn16 then epcReply { s with tag := setTagState s.tag .acknowledged }
      else { s with tag := setTagState s.tag .arbitrate }
    | .acknowledged =>
      if rn = s.tag.rn16 then epcReply s else { s with tag := setTagState s.tag .arbitrate }
    | _ =>
      if rn = s.tag.handle then epcReply s else { s with tag := setTagState s.tag .arbitrate }

/-- TAG_NAK: any state but ready returns to arbitrate. -/
def doTagNak (s0 : State) : State :=
  let s := tagCommand s0
  if !s.tag.powered || s.tag.st = .ready then s else { s with tag := setTagState s.tag .arbitrate }

/-- TAG_REQ_RN: from acknowledged the tag takes a handle and is open, never secured (R215); in open and secured it
answers a new RN16. PRESUMED, log 15. -/
def doTagReqRn (rn : W16) (s0 : State) : State :=
  let s := tagCommand s0
  if !s.tag.powered then s
  else if s.tag.st = .acknowledged && rn = s.tag.rn16 then
    let (h, s1) := drawNat s 65536
    tagData { s1 with tag := { setTagState s1.tag .openState with handle := BitVec.ofNat 16 h } } (beBytes 2 h)
  else if (s.tag.st = .openState || s.tag.st = .secured) && rn = s.tag.handle then
    let (r, s1) := drawNat s 65536
    tagData s1 (beBytes 2 r)
  else s

/-! ### Access (R216, R218 to R222, R226) -/

/-- An access command reaches a tag that is open or secured and names its handle. -/
def tagOpen (s : State) (handle : W16) : Bool :=
  s.tag.powered && (s.tag.st = .openState || s.tag.st = .secured) && handle == s.tag.handle

/-- Regions of user memory by word (R222): 0 PUBLIC, 1 IDENTITY, 2 LEDGER_SUMMARY, 3 CHECKPOINT, 4 WORKSPACE. -/
def regionOf (w : Nat) : Nat := if w < 0x20 then 0 else if w < 0x40 then 1 else if w < 0x140 then 2 else if w < 0x180 then 3 else 4

/-- Whether a reader may read a word of user memory. DEDUCED, log 93. -/
def mayReadUser (t : Tag) (w : Nat) : Bool := t.authKey.isSome || (regionOf w == 0 && !t.publicHide)

/-- Whether a reader may write a word of user memory. DEDUCED, log 93. -/
def mayWriteUser (t : Tag) (w : Nat) : Bool :=
  !t.userLocked && (match regionOf w with
    | 0 => true
    | 4 => t.authKey.isSome
    | _ => false)

/-- A read of `n` words of a bank; 0 words reads to the end of what stands open. The answer is an error code or the data:
memory overrun beyond word 0x3FF of user memory, memory locked for every other read that is not open (R218, R222).
DEDUCED, log 93. -/
def tagReadBank (s : State) (bank w n : Nat) : Sum Nat Bytes :=
  match bank with
  | 1 =>
    let b := epcBank s
    if b.length / 2 ≤ w ∨ b.length / 2 < w + n then .inl 0x04
    else .inr (slice b (2 * w) (2 * (if n = 0 then b.length / 2 - w else n)))
  | 2 =>
    let open_ := if s.tag.authKey.isSome then 6 else if s.tag.tidHide = 2 then 0 else 2
    if open_ ≤ w ∨ open_ < w + n then .inl 0x04
    else .inr (slice Config.tagTid (2 * w) (2 * (if n = 0 then open_ - w else n)))
  | 3 =>
    if 1024 ≤ w ∨ 1024 < w + n then .inl 0x03
    else
      let m := if n = 0 then 1024 - w else n
      if (List.range m).all fun i => mayReadUser s.tag (w + i) then .inr (userBytes s w m) else .inl 0x04
  | _ => .inl 0x04

/-- TAG_READ: the reader holds the memory until its reply has been sent (`sent`). -/
def doTagRead (handle : W16) (bank : BitVec 2) (word : W16) (count : Byte) (sent : Bool) (s0 : State) : State :=
  let s := tagReach s0
  if !tagOpen s handle then s
  else
    let s1 := if bank = 3 then touchWords s word.toNat (if count = 0 then 1024 - word.toNat else count.toNat) else s
    let s2 := match tagReadBank s1 bank.toNat word.toNat count.toNat with
      | .inl e => tagError s1 e
      | .inr d => tagData s1 d
    { s2 with tag := { s2.tag with readerHold := !sent } }

/-- TAG_WRITE: `energy`, the field gives what a Write needs; `bad`, the shadow mismatched twice. -/
def doTagWrite (handle : W16) (bank : BitVec 2) (word data : W16) (energy bad sent : Bool) (s0 : State) : State :=
  let s := tagReach s0
  if !tagOpen s handle then s
  else
    let w := word.toNat
    let s1 :=
      if tagHarvest s.tag && !energy then tagError s 0x0B
      else if bank ≠ 3 then tagError s 0x04
      else if 1024 ≤ w then tagError s 0x03
      else if !mayWriteUser s.tag w || stewardWriting s.tag then tagError s 0x04
      else if bad then tagError (touchPage s (wordPage w)) 0x0F
      else tagData (tagWriteAt s (wordPage w) (2 * (w % 32)) (leBytes 2 data.toNat)) []
    { s1 with tag := { s1.tag with readerHold := !sent } }

/-- TAG_LOCK (R221): the two User-bank bits of mask and action act; a mask on any other bank is refused.
DEDUCED, log 93. -/
def doTagLock (handle : W16) (mask action : BitVec 10) (s0 : State) : State :=
  let s := tagCommand s0
  if !tagOpen s handle || s.tag.st != .secured then s
  else
    let m := mask.toNat
    let a := action.toNat
    let lock := if bitAt m 1 then bitAt a 1 else s.tag.userLocked
    let perma := if bitAt m 0 then bitAt a 0 else s.tag.userPerma
    if 4 ≤ m ∨ (s.tag.userPerma ∧ (lock ≠ s.tag.userLocked ∨ perma = false)) then tagError s 0x04
    else tagData { s with tag := { s.tag with userLocked := lock, userPerma := perma } } []

/-- The key of a KeyID; none beyond 1 or where none is loaded. DESIGN CHOICE, log 94. -/
def tagKey (t : Tag) (id : Nat) : Option Bytes :=
  match id with
  | 0 => t.key0
  | 1 => t.key1
  | _ => none

/-- TAG_AUTHENTICATE (R219, R220): `ok`, the interrogator's response verifies under the key.
DESIGN CHOICE, log 94. -/
def doTagAuthenticate (handle : W16) (method : TagMethod) (keyId : Byte) (ok : Bool) (s0 : State) : State :=
  let s := tagCommand s0
  if !tagOpen s handle then s
  else
    let t := { s.tag with authTried := true }
    let s1 := { s with tag := t }
    if 16 ≤ t.authFails ∧ s.tag.authTried then tagError s1 0x00
    else match method with
      | .unsupported => tagError s1 0x01
      | .tam1 =>
        if (tagKey t keyId.toNat).isNone then tagError s1 0x00
        else
          let (b, s2) := drawBytes s1 16
          tagData s2 b
      | _ =>
        if ok && (tagKey t keyId.toNat).isSome then
          let (b, s2) := drawBytes s1 16
          tagData { s2 with tag := { s2.tag with
            authFails := 0, authKey := some keyId.toNat, nAuthOk := satInc s2.tag.nAuthOk
            st := if keyId = 1 then .secured else s2.tag.st } } b
        else
          tagError { s1 with tag := { t with authFails := satTo 255 t.authFails, nAuthFail := satInc t.nAuthFail } } 0x00

/-- TAG_UNTRACEABLE (R221): which part of the TID is hidden, and whether PUBLIC is; TID code 3 is reserved. -/
def doTagUntraceable (handle : W16) (tid : BitVec 2) (user : Bool) (s0 : State) : State :=
  let s := tagCommand s0
  if !tagOpen s handle || s.tag.st != .secured then s
  else if tid = 3 then tagError s 0x00
  else tagData { s with tag := { s.tag with tidHide := tid.toNat, publicHide := user } } []

/-- TAG_KILL (R215): answered as for a zero kill password, and nothing is killed. PRESUMED, log 15. -/
def doTagKill (handle : W16) (s0 : State) : State :=
  let s := tagCommand s0
  if tagOpen s handle then tagError s 0x00 else s

/-- TAG_UNSUPPORTED_COMMAND (R215): the tag does not answer. -/
def doTagUnsupportedCommand (s : State) : State := tagCommand s

/-! ### Collapse of the field or the supply (R225, R227) -/

/-- A page after its write was interrupted: a shadow torn in step 1 holds open content; a FLAG torn in step 3 is not
0xA5C3. DESIGN CHOICE, log 95. -/
def tearPage (n : Nat) (p : TagPage) (data : Mem) (point : TagPoint) : TagPage :=
  let b := shadowIs1 p
  match point with
  | .step1 => writeShadow p (memWriteBytes [] 0 (Config.freeBytes n 64))
  | .step2 => writeShadow p data
  | .step3 =>
    let q := writeShadow p data
    let f := BitVec.ofNat 16 (Config.freeNat n)
    let f' : W16 := if f = 0xA5C3 then 0 else f
    if b then { q with c1 := { q.c1 with flag := f' } } else { q with c0 := { q.c0 with flag := f' } }
  | .step3Done => setFlag (writeShadow p data) b
  | .step4Done => clearOld (setFlag (writeShadow p data) b) b

/-- The page and content of the interrupted write. DESIGN CHOICE, log 95. -/
def tearTarget (s : State) : TagTear → Option (Fin 32 × Mem)
  | .nothing => none
  | .counter => none
  | .reader w d =>
    if (s.tag.st = .openState ∨ s.tag.st = .secured) ∧ mayWriteUser s.tag w.val ∧ s.tag.powered ∧ stewardWriting s.tag = false then
      some (wordPage w.val, pageWith (tagPage s (wordPage w.val)) (2 * (w.val % 32)) (leBytes 2 d.toNat))
    else none
  | .steward =>
    match s.tag.steward with
    | [] => none
    | a :: _ =>
      match a.writes with
      | [] => none
      | (p, off, d) :: _ => some (p, pageWith (tagPage s p) off d)

/-- The copies of the session counter when the tag goes dark: a commit that is under way is cut at `point`, or has not begun;
before a page write it is complete (R217, R225). DESIGN CHOICE, log 95. -/
def tearCounter (n : Nat) (t : Tag) (w : TagTear) (point : TagPoint) : Tag :=
  match w with
  | .nothing => { t with ridCommit := false }
  | .counter =>
    if t.ridCommit then
      { t with ridCommit := false, ridPage := tearPage n t.ridPage (memWriteBytes [] 0 (leBytes 4 (ridCtr t + 1))) point }
    else t
  | _ => ridSettle t

/-- A field that collapses while F_VBAT powers the tag domain cuts nothing: a reader's Write and the counter's commit run to
their end, a hold ends, and the session stands until the field rises again (R216, R217). DESIGN CHOICE, log 95. -/
def tagFieldGone (w : TagTear) (s : State) : State :=
  let s1 := match w, tearTarget s w with
    | .reader _ _, some (p, data) => setTagPage (touchPage s p) p (writePage (tagPage (touchPage s p) p) data)
    | _, _ => s
  tagServe { s1 with tag := { ridSettle s1.tag with readerHold := false } }

/-- Where the step named for a steward's write cannot be step 1: its shadow is written already.
DESIGN CHOICE, log 95. -/
def tearPoint (s : State) (w : TagTear) (point : TagPoint) : TagPoint :=
  if w = .steward ∧ point = .step1 ∧ stewardWriting s.tag then .step2 else point

/-- TAG_FIELD_COLLAPSE: the tag loses its power part-way through a page write, or through the commit of the session counter;
every session is over. With F_VBAT present only the field is gone. DESIGN CHOICE, log 95. -/
def doTagFieldCollapse (w : TagTear) (point : TagPoint) (s : State) : State :=
  if s.tag.supplied then tagFieldGone w s
  else
  let s0 := { s with freeCtr := s.freeCtr + 1, tag := tearCounter s.freeCtr s.tag w point }
  let s1 := match tearTarget s0 w with
    | none => s0
    | some (p, data) =>
      let s2 := touchPage s0 p
      { setTagPage s2 p (tearPage s2.freeCtr (tagPage s2 p) data (tearPoint s w point)) with freeCtr := s2.freeCtr + 1 }
  let left := match w with
    | .steward => s1.tag.steward.drop 1
    | _ => s1.tag.steward.filter fun a => !a.shadowed
  { s1 with tag := { tagDark s1.tag with steward := left } }

/-- A tamper alarm abandons a steward write at its step and ends every authenticated state (R227). -/
def tagTamper (s : State) : State :=
  { s with tag := { s.tag with
      steward := []
      st := if s.tag.st = .secured then .openState else s.tag.st
      authKey := none } }

/-- K_RID and both tag keys erased (R220, R240). -/
def tagErase (s : State) : State :=
  { s with tag := { s.tag with kRid := none, key0 := none, key1 := none, authKey := none } }

/-- The tag counters copied into snapshot group 3 at an entry into Chalk (R229). -/
def tagCopyCounters (s : State) : State :=
  { s with tag := { s.tag with cSession := s.tag.nSession, cAuthOk := s.tag.nAuthOk, cAuthFail := s.tag.nAuthFail, cBusy := s.tag.nBusy } }

/-! ### The commands of this file -/

/-- TAG_SESSION_START (R217). -/
def execTagSessionStart (s : State) : Host.Outcome State Fault Refusal :=
  done s (doTagSessionStart s)

/-- TAG_SELECT (R215). -/
def execTagSelect (target : BitVec 3) (action : BitVec 3) (bank : BitVec 2) (pointer : W16) (mask : List Bool) (truncate : Bool) (s : State) : Host.Outcome State Fault Refusal :=
  done s (doTagSelect target action bank pointer mask truncate s)

/-- TAG_QUERY (R215). -/
def execTagQuery (dr : Bool) (miller : BitVec 2) (trext : Bool) (sel : BitVec 2) (session : Fin 4) (target : Bool) (q : BitVec 4) (s : State) : Host.Outcome State Fault Refusal :=
  done s (doTagQuery dr miller trext sel session target q s)

/-- TAG_QUERY_ADJUST (R215). -/
def execTagQueryAdjust (session : Fin 4) (upDn : BitVec 3) (s : State) : Host.Outcome State Fault Refusal :=
  done s (doTagQueryAdjust session upDn s)

/-- TAG_QUERY_REP (R215). -/
def execTagQueryRep (session : Fin 4) (s : State) : Host.Outcome State Fault Refusal :=
  done s (doTagQueryRep session s)

/-- TAG_ACK (R215). -/
def execTagAck (rn : W16) (s : State) : Host.Outcome State Fault Refusal :=
  done s (doTagAck rn s)

/-- TAG_NAK (R215). -/
def execTagNak (s : State) : Host.Outcome State Fault Refusal :=
  done s (doTagNak s)

/-- TAG_REQ_RN (R215). -/
def execTagReqRn (rn : W16) (s : State) : Host.Outcome State Fault Refusal :=
  done s (doTagReqRn rn s)

/-- TAG_READ (R218). -/
def execTagRead (handle : W16) (bank : BitVec 2) (word : W16) (count : Byte) (sent : Bool) (s : State) : Host.Outcome State Fault Refusal :=
  done s (doTagRead handle bank word count sent s)

/-- TAG_WRITE (R224). -/
def execTagWrite (handle : W16) (bank : BitVec 2) (word : W16) (data : W16) (energy : Bool) (bad : Bool) (sent : Bool) (s : State) : Host.Outcome State Fault Refusal :=
  done s (doTagWrite handle bank word data energy bad sent s)

/-- TAG_LOCK (R221). -/
def execTagLock (handle : W16) (mask : BitVec 10) (action : BitVec 10) (s : State) : Host.Outcome State Fault Refusal :=
  done s (doTagLock handle mask action s)

/-- TAG_AUTHENTICATE (R219). -/
def execTagAuthenticate (handle : W16) (method : TagMethod) (keyId : Byte) (ok : Bool) (s : State) : Host.Outcome State Fault Refusal :=
  done s (doTagAuthenticate handle method keyId ok s)

/-- TAG_UNTRACEABLE (R221). -/
def execTagUntraceable (handle : W16) (tid : BitVec 2) (user : Bool) (s : State) : Host.Outcome State Fault Refusal :=
  done s (doTagUntraceable handle tid user s)

/-- TAG_KILL (R215). -/
def execTagKill (handle : W16) (s : State) : Host.Outcome State Fault Refusal :=
  done s (doTagKill handle s)

/-- TAG_UNSUPPORTED_COMMAND (R215). -/
def execTagUnsupportedCommand (s : State) : Host.Outcome State Fault Refusal :=
  done s (doTagUnsupportedCommand s)

/-- TAG_WAIT_TIMEOUT (R226). -/
def execTagWaitTimeout (s : State) : Host.Outcome State Fault Refusal :=
  done s (doTagWaitTimeout s)

/-- TAG_FIELD_COLLAPSE (R225). -/
def execTagFieldCollapse (w : TagTear) (point : TagPoint) (s : State) : Host.Outcome State Fault Refusal :=
  done s (doTagFieldCollapse w point s)

end Sys2Proof.Machine
end

