-- ==== Sys2Proof/Machine/Ledger.lean ====
section
/-! DEFINITION. The ledger: appends, the chain, checkpoints, the sector erased ahead, the export mark, and the yard
tag's copies of entries (R223, R324 to R331). -/

namespace Sys2Proof.Machine

open Sys2Proof

/-! ### Entries and the chain (R324, R327) -/

/-- CHAIN before INDEX 0. -/
def chainGenesis (s : State) : Bytes := (Config.sha256 (ascii "TV8160-LEDGER" ++ serialBytes s)).take 16

/-- CHAIN of the newest present entry. -/
def chainHead (s : State) : Bytes := if s.ledger.chain.isEmpty then chainGenesis s else s.ledger.chain

/-- Bytes 0 to 39 of a checkpoint entry (R328). DEDUCED, log 97. -/
def ckptHead (part index flags : Nat) (sig : Bytes) : Bytes :=
  [0x0F, byte flags, byte part, 0] ++ leBytes 4 index ++ padTo 32 sig

/-- The chain value that an entry takes. -/
def chainNext (prev head : Bytes) : Bytes := (Config.sha256 (prev ++ head)).take 16

/-- An entry of 64 bytes: head, CHAIN, CRC, COMMIT. -/
def sealEntry (prev head : Bytes) : Bytes :=
  let b := head ++ chainNext prev head
  b ++ leBytes 4 (crc32 b) ++ leBytes 4 0x9E3761C5

/-- An entry is present when its COMMIT is set (R297, R332). -/
def entryThere (e : LedgerEntry) : Bool := leAt e.data 60 4 == 0x9E3761C5

/-- An entry that is present with a correct CRC and no uncorrectable group (R327). -/
def entryOk (e : LedgerEntry) : Bool := entryThere e && !e.ue && leAt e.data 56 4 == crc32 (e.data.take 56)

/-- The entries present, in ring order. -/
def ledgerThere (l : Ledger) : List LedgerEntry := l.ring.filter entryThere

/-- Ring sectors of 64 slots: the sector of a programmed slot. DEDUCED, log 96. -/
def sectorOf (e : LedgerEntry) : Nat := e.pos / 64

/-- The sector of the write point: that of the newest entry. -/
def writeSector (l : Ledger) : Nat :=
  match l.ring.getLast? with
  | some e => sectorOf e
  | none => 0

/-! ### The sector ahead and LEDGER_HIGH (R329) -/

/-- Entries that stand in the sector ahead of the write point. DEDUCED, log 96. -/
def aheadDirty (l : Ledger) : Bool := l.ring.any fun e => sectorOf e + 255 ≤ writeSector l

/-- The sector that is erased next, counted behind the write point. DEDUCED, log 96. -/
def eraseLag (l : Ledger) : Nat := if aheadDirty l then 255 else 254

/-- Whether the sector to be erased next holds an unexported entry. -/
def highNow (l : Ledger) : Bool :=
  l.ring.any fun e => sectorOf e + eraseLag l == writeSector l && entryThere e && decide (l.ack.toNat ≤ e.index.toNat)

/-- LEDGER_HIGH re-evaluated; EVT_STORE when it is set. -/
def highEval (s : State) : State :=
  let h := highNow s.ledger
  let s1 := { s with ledger := { s.ledger with ledgerHigh := h } }
  if h && !s.ledger.ledgerHigh then
    evtStore s1 4 3 ((writeSector s.ledger + 256 - eraseLag s.ledger) % 256 * 4096) .ok
  else s1

/-- The sector ahead erased: its 64 entries are discarded. DEDUCED, log 96. -/
def eraseAhead (s : State) : State :=
  if aheadDirty s.ledger then
    let w := writeSector s.ledger
    highEval { s with
      ledger := { s.ledger with ring := s.ledger.ring.filter fun e => !decide (sectorOf e + 255 ≤ w) }
      orr := { s.orr with nErases := satInc s.orr.nErases } }
  else s

/-- LEDGER_SECTOR_ERASE (R329). DEDUCED, log 96. -/
def doLedgerSectorErase (s : State) : State := if s.orr.ash then s else eraseAhead s

/-- An advance of OR_LEDGER_ACK committed in SYS, and whether the commit took place (R300, R329). -/
def ackCommit (v : W32) (s : State) : State × Bool := commitTry { s with ledger := { s.ledger with ack := v } } pageSys

/-- OR_LEDGER_ACK_WRITE (R329, R333): a value below the present one is ignored; an advance is committed in SYS. -/
def doOrLedgerAckWrite (v : W32) (s : State) : State :=
  if v.toNat ≤ s.ledger.ack.toNat then highEval s else highEval (ackCommit v s).1

/-! ### The yard tag's copies (R222, R223) -/

/-- IDENTITY of the tag. -/
def identityBytes (s : State) (newest : Nat) : Bytes :=
  Config.vin ++ serialBytes s ++ leBytes 2 (vidOf s) ++ leBytes 4 s.keys.rosterEpoch.toNat ++ leBytes 4 newest ++
    leBytes 4 (rtcNow s) ++ zeros 24

/-- IDENTITY and the entry's summary slot updated, in Chalk. DEDUCED, log 97. -/
def tagNote (s : State) (index : Nat) (data : Bytes) : State :=
  if s.pwr.pstate ≠ .chalk then s
  else
    let page : Fin 32 := ⟨2 + index % 8, Nat.lt_of_lt_of_le (Nat.add_lt_add_left (Nat.mod_lt _ (by decide)) 2) (by decide)⟩
    tagStewardWrite (tagStewardWrite s page 0 data) 1 0 (identityBytes s index)

/-- CHECKPOINT updated with a signed pair. DEDUCED, log 97. -/
def tagNoteCkpt (s : State) (a b : Bytes) : State :=
  if s.pwr.pstate ≠ .chalk then s else tagStewardWrite (tagStewardWrite s 10 0 a) 11 0 b

/-! ### Appends (R328, R329) -/

/-- The place that an append of INDEX `i` programs: the slot of R329, or the next one where a retry has moved the write point
beyond it (R306). DEDUCED, log 98. -/
def ledgerPos (l : Ledger) (i : W32) : Nat := match l.ring.getLast? with
  | some e => Nat.max i.toNat (e.pos + 1)
  | none => i.toNat

/-- One slot programmed; the sector ahead is erased first where it is due. -/
def ledgerPut (s : State) (i : W32) (d : Bytes) : State :=
  let p := ledgerPos s.ledger i
  let s0 := if s.ledger.ring.any fun e => sectorOf e + 256 ≤ p / 64 then eraseAhead s else s
  { s0 with ledger := { s0.ledger with ring := s0.ledger.ring ++ [{ index := i, pos := p, data := d }] } }

/-- `k` slots whose read-back mismatches, with COMMIT programmed to 0 (R306, R329). -/
def ledgerFailed (i : W32) (d : Bytes) : Nat → State → State
  | 0, s => s
  | k + 1, s => ledgerFailed i d k (ledgerPut s i (overlay d 60 (zeros 4)))

/-- One entry appended with the next INDEX; `head` is bytes 0 to 39 for that INDEX. DEDUCED, log 98. -/
def appendEntry (s : State) (head : Nat → Bytes) : State :=
  let i := s.ledger.nextIndex
  let h := head i.toNat
  let d := sealEntry (chainHead s) h
  let k := appendFails s.orr
  let s0 := ledgerPut (ledgerFailed i d k s) i d
  let s1 := { s0 with
    ledger := { s0.ledger with nextIndex := i + 1, chain := chainNext (chainHead s) h }
    orr := { s0.orr with nLedger := satInc s0.orr.nLedger, tries := s.orr.tries + k + 1 } }
  tagNote s1 i.toNat d

/-- The signature of a checkpoint pair, with the random bits `k`: over "TV8160-CKPT", SERIAL, INDEX of A and the CHAIN of the entry
before A. -/
def ckptSig (s : State) (k : Bytes) : Bytes :=
  Config.ecdsaSign ((slotAt s 162).key.getD []) k
    (ascii "TV8160-CKPT" ++ serialBytes s ++ leBytes 4 s.ledger.nextIndex.toNat ++ chainHead s)

/-- A pair appended, signed or UNSIGNED with SIGPART zero; the count starts again. -/
def appendPair (s0 : State) (signed : Bool) : State :=
  let (k, s) := if signed then drbgBytes s0 48 else ([], s0)
  let sig := if signed then ckptSig s k else zeros 64
  let fl := if signed then 0 else 32
  let s1 := appendEntry s fun i => ckptHead 0 i fl (sig.take 32)
  let s2 := appendEntry s1 fun i => ckptHead 1 i fl (sig.drop 32)
  let s3 := { s2 with ledger := { s2.ledger with sinceCkpt := 0, ckptSince := none, ckptFails := 0 } }
  match (ledgerThere s3.ledger).reverse with
  | b :: a :: _ => if signed then tagNoteCkpt s3 a.data b.data else s3
  | _ => s3

/-- Whether LSK can sign: its slot is VALID. -/
def lskUsable (s : State) : Bool := (slotAt s 162).state = .valid && (slotAt s 162).key.isSome

/-- A due pair signed; a second failed signing writes it UNSIGNED (R328). -/
def tryPair (s : State) (signOk : Bool) : State :=
  if !lskUsable s then s
  else if signOk then appendPair s true
  else if 1 ≤ s.ledger.ckptFails then appendPair s false
  else { s with ledger := { s.ledger with ckptFails := s.ledger.ckptFails + 1 } }

/-- A place of the queue freed takes the first entry that waits outside (R329). -/
def refillQueue (s : State) : State :=
  match s.ledger.outside with
  | [] => s
  | r :: rs => { s with ledger := { s.ledger with queue := s.ledger.queue ++ [r], outside := rs } }

/-- An event entry appended; at 30 since the last pair a pair is due. DEDUCED, log 98. -/
def appendEvent (s : State) (r : LedgerReq) (signOk : Bool) : State :=
  let s1 := appendEntry s (entryHead r)
  let s2 := { s1 with ledger := { s1.ledger with sinceCkpt := s1.ledger.sinceCkpt + 1 } }
  if 30 ≤ s2.ledger.sinceCkpt then tryPair { s2 with ledger := { s2.ledger with ckptSince := some (now s2) } } signOk else s2

/-- LEDGER_APPEND (R328, R329): a due pair is signed first; otherwise the head of the queue gets its INDEX. `signOk`: the
signing job of a due pair succeeds. -/
def doLedgerAppend (signOk : Bool) (s : State) : State :=
  if s.orr.ash || s.keys.lcRetire then s
  else if s.ledger.ckptSince.isSome then tryPair s signOk
  else match s.ledger.queue with
    | [] => s
    | r :: rs => appendEvent (refillQueue { s with ledger := { s.ledger with queue := rs } }) r signOk

/-- CHECKPOINT_SIGN_TIMEOUT (R328): a pair not signed within 1 s is written UNSIGNED. -/
def doCheckpointSignTimeout (s : State) : State :=
  match s.ledger.ckptSince with
  | none => s
  | some t =>
    let s1 := elapseTo s (t + ticksPerSec)
    if s1.orr.ash || decide (now s1 < t + ticksPerSec) then s1 else appendPair s1 false

/-! ### Reading (R331, R332) -/

/-- The entry with an INDEX. -/
def ledgerAt (s : State) (i : Nat) : Option LedgerEntry := s.ledger.ring.find? fun e => e.index.toNat == i && entryThere e

/-- INDEX of the oldest present entry; NEXT when there is none. -/
def ledgerOldest (s : State) : Nat :=
  match ledgerThere s.ledger with
  | [] => s.ledger.nextIndex.toNat
  | e :: _ => e.index.toNat

/-- INDEX of the A entry of the newest complete pair present: an A followed by its B. -/
def lastPair : List LedgerEntry → Option Nat
  | [] => none
  | a :: rest =>
    match lastPair rest with
    | some i => some i
    | none =>
      match rest with
      | [] => none
      | b :: _ => if byteAt a.data 0 == 0x0F && byteAt a.data 2 == 0 && byteAt b.data 0 == 0x0F && byteAt b.data 2 == 1 then some a.index.toNat else none

/-- Present entries from an INDEX on, at most `n`. -/
def ledgerFrom (s : State) (first n : Nat) : List LedgerEntry := ((ledgerThere s.ledger).filter fun e => decide (first ≤ e.index.toNat)).take n

/-! ### The commands of this file -/

/-- LEDGER_APPEND (R329). -/
def execLedgerAppend (signOk : Bool) (s : State) : Host.Outcome State Fault Refusal :=
  done s (doLedgerAppend signOk s)

/-- CHECKPOINT_SIGN_TIMEOUT (R328). -/
def execCheckpointSignTimeout (s : State) : Host.Outcome State Fault Refusal :=
  done s (doCheckpointSignTimeout s)

/-- LEDGER_SECTOR_ERASE (R329). -/
def execLedgerSectorErase (s : State) : Host.Outcome State Fault Refusal :=
  done s (doLedgerSectorErase s)

/-- OR_LEDGER_ACK_WRITE (R329). -/
def execOrLedgerAckWrite (v : W32) (s : State) : Host.Outcome State Fault Refusal :=
  done s (doOrLedgerAckWrite v s)

end Sys2Proof.Machine
end

