-- ==== Sys2Proof/Machine/Bridge.lean ====
section
/-! DEFINITION. The bridge window: what a READ of a field-side register delivers, the registers a WRITE reaches, and
the registers that clear when their bytes are delivered (R348, R371). -/

namespace Sys2Proof.Machine

open Sys2Proof

/-- LC_STATE (R262). -/
def lcStateReg (s : State) : Nat :=
  lcCode (lcOf s) + 8 * b2n s.keys.svcLock + 16 * b2n s.keys.debug + 32 * b2n s.keys.depot

/-- SNAP_H_CTRL to SNAP_H_TB_HI, by word (R61). -/
def snapWord (b : SnapBank) (i : Nat) : Nat :=
  match i with
  | 1 => b2n b.busy + 256 * b.seq.toNat
  | 2 => b.ts % 2 ^ 32
  | 3 => b.ts / 2 ^ 32 % 2 ^ 32
  | 4 => b.tb % 2 ^ 32
  | 5 => b.tb / 2 ^ 32 % 2 ^ 32
  | _ => 0

/-- Word `i` of a captured group. -/
def capWord (b : SnapBank) (g i : Nat) : Nat := (vgetN b.cap g []).getD i 0

/-- The 32-bit register at a word-aligned bridge address; none where the window maps nothing (R371). -/
def bridgeReg (s : State) (a : Nat) : Option Nat :=
  let b := s.cel.snapH
  let grp (base words g : Nat) : Option Nat :=
    if base ≤ a && a < base + 4 * words then some (capWord b g ((a - base) / 4)) else none
  if 0x010020 ≤ a && a < 0x010038 then some (snapWord b ((a - 0x010020) / 4))
  else if a = 0x050000 then some (lcStateReg s)
  else if a = 0x06000C then some s.ledger.ack.toNat
  else if a = 0x070000 then some s.bg.anom.toNat
  else if a = 0x080080 then some s.tamper.src.toNat
  else (grp 0x010038 4 0).or ((grp 0x020200 16 1).or ((grp 0x030100 8 2).or ((grp 0x040100 16 3).or
    ((grp 0x050200 8 4).or ((grp 0x060100 8 5).or (grp 0x070100 16 6))))))

/-- BR_ANOM, the one register of the window that clears as it is delivered. -/
def bridgeRcd (a : Nat) : Bool := a == 0x070000

/-- Words of a bridge read from an address; none where one of them is not mapped. DEDUCED, log 110. -/
def bridgeWords (s : State) : Nat → Nat → Option Bytes
  | _, 0 => some []
  | a, n + 1 =>
    match bridgeReg s a, bridgeWords s (a + 4) n with
    | some v, some bs => some (leBytes 4 v ++ bs)
    | _, _ => none

/-- Bits of a word that lie in the bytes of a 4-bit mask. -/
def byteMask (m : Nat) : Nat :=
  255 * b2n (bitAt m 0) + 65280 * b2n (bitAt m 1) + 16711680 * b2n (bitAt m 2) + 4278190080 * b2n (bitAt m 3)

/-- The delivered bits of BR_ANOM cleared: those that the copy carried, in the delivered bytes (R7, R348). -/
def anomClear (s : State) (copy : W32) (mask : Nat) : State :=
  { s with bg := { s.bg with anom := s.bg.anom &&& ~~~(BitVec.ofNat 9 (copy.toNat &&& byteMask mask)) } }

/-- A WRITE to the bridge window reaches SNAP_H_CTRL and OR_LEDGER_ACK only (R365, R367). -/
def bridgeWrite (s : State) (a : Nat) (v : W32) : State :=
  if a = 0x010020 then doSnapTrigger false (BitVec.ofNat 7 v.toNat) s
  else if a = 0x06000C then doOrLedgerAckWrite v s
  else s

end Sys2Proof.Machine
end

