-- ==== Sys2Proof/Machine/Geometry.lean ====
section
/-! DEFINITION. Planes, vertices and boundedness of the zone map's volumes (R151 to R153). -/

namespace Sys2Proof.Machine

open Sys2Proof

/-- A plane: normal and D. -/
structure Plane where
  x : Int
  y : Int
  z : Int
  d : Int

/-- The planes of a volume. -/
def zonePlanes (b : Bytes) (off : Nat) : List Plane :=
  (List.range (byteAt b off)).map fun k =>
    let w (i : Nat) : Int := s16 (leAt b (off + 4 + 8 * k + 2 * i) 2)
    { x := w 0, y := w 1, z := w 2, d := w 3 }

def dot (a b : Plane) : Int := a.x * b.x + a.y * b.y + a.z * b.z

/-- The cross product of two normals. -/
def cross (a b : Plane) : Plane :=
  { x := a.y * b.z - a.z * b.y, y := a.z * b.x - a.x * b.z, z := a.x * b.y - a.y * b.x, d := 0 }

def scale (k : Int) (a : Plane) : Plane := { x := k * a.x, y := k * a.y, z := k * a.z, d := 0 }

def add3 (a b c : Plane) : Plane := { x := a.x + b.x + c.x, y := a.y + b.y + c.y, z := a.z + b.z + c.z, d := 0 }

/-- Determinant of three normals. -/
def det (a b c : Plane) : Int := dot a (cross b c)

/-- The point in which three planes meet, times their determinant made positive; none where they do not meet in one point. -/
def meet (a b c : Plane) : Option (Plane × Int) :=
  let m := det a b c
  if m = 0 then none
  else
    let v := add3 (scale (16384 * a.d) (cross b c)) (scale (16384 * b.d) (cross c a)) (scale (16384 * c.d) (cross a b))
    some (if m < 0 then (scale (-1) v, -m) else (v, m))

/-- Every unordered triple of a list. -/
def triples {α : Type} : List α → List (α × α × α)
  | [] => []
  | a :: l => (pairsOf l).map (fun p => (a, p.1, p.2)) ++ triples l
where
  pairsOf : List α → List (α × α)
    | [] => []
    | a :: l => l.map (fun b => (a, b)) ++ pairsOf l

/-- A vertex inside all planes reaches beyond ±8,000 mm on an axis. -/
def farVertex (l : List Plane) (v : Plane) (m : Int) : Bool :=
  (l.all fun p => decide (dot p v ≤ 16384 * p.d * m)) &&
    (decide (8000 * m < v.x.natAbs) || decide (8000 * m < v.y.natAbs) || decide (8000 * m < v.z.natAbs))

/-- No ray stays inside: three normals are independent, and the direction of no edge leads away for ever. -/
def bounded (l : List Plane) : Bool :=
  ((triples l).any fun t => det t.1 t.2.1 t.2.2 != 0) &&
    (l.all fun a => l.all fun b =>
      let e := cross a b
      (e.x == 0 && e.y == 0 && e.z == 0) || l.any fun p => decide (0 < dot p e))

/-- A vertex of a volume: a point in which three of its planes meet, inside all of them (R152). -/
def volumeVertices (l : List Plane) : List (Plane × Int) :=
  (triples l).filterMap fun t => (meet t.1 t.2.1 t.2.2).bind fun v =>
    if l.all fun p => decide (dot p v.1 ≤ 16384 * p.d * v.2) then some v else none

end Sys2Proof.Machine
end

