-- ==== Sys2Proof/Machine/Solve.lean ====
section
/-! DEFINITION. The numerical problems of Place and Weigh: the field of a Tint, the cost J, its start points and its
Gauss-Newton solution, and the fit of the field signature (R152, R153, R163, R164). -/

namespace Sys2Proof.Machine

open Sys2Proof

/-! ### Vectors and linear systems over rationals -/

/-- A vector of three rationals. -/
structure V3 where
  x : Rat
  y : Rat
  z : Rat

def V3.zero : V3 := { x := 0, y := 0, z := 0 }

def V3.add (a b : V3) : V3 := { x := a.x + b.x, y := a.y + b.y, z := a.z + b.z }

def V3.smul (k : Rat) (a : V3) : V3 := { x := k * a.x, y := k * a.y, z := k * a.z }

def V3.sub (a b : V3) : V3 := a.add (b.smul (-1))

def V3.dot (a b : V3) : Rat := a.x * b.x + a.y * b.y + a.z * b.z

def V3.cross (a b : V3) : V3 := { x := a.y * b.z - a.z * b.y, y := a.z * b.x - a.x * b.z, z := a.x * b.y - a.y * b.x }

def V3.len (a : V3) : Rat := Config.realSqrt (a.dot a)

/-- The unit vector of a vector. -/
def V3.unit (a : V3) : V3 := a.smul (1 / a.len)

def V3.toList (a : V3) : List Rat := [a.x, a.y, a.z]

/-- The components to multiples of 2⁻⁶⁴. DESIGN CHOICE, log 12. -/
def V3.quant (a : V3) : V3 := { x := Config.quant a.x, y := Config.quant a.y, z := Config.quant a.z }

/-- The three unit vectors of the cab frame. -/
def axes3 : List V3 := [{ x := 1, y := 0, z := 0 }, { x := 0, y := 1, z := 0 }, { x := 0, y := 0, z := 1 }]

/-- Determinant of an n × n matrix by its first row. -/
def detOf : Nat → List (List Rat) → Rat
  | 0, _ => 1
  | _ + 1, [] => 1
  | n + 1, r :: rows =>
    ((List.range (n + 1)).map fun j =>
      (if j % 2 = 0 then 1 else -1) * r.getD j 0 * detOf n (rows.map fun q => q.eraseIdx j)).sum

/-- Solution of n linear equations by Cramer's rule; a singular matrix has the open solution. -/
def solveLin (n : Nat) (m : List (List Rat)) (b : List Rat) : List Rat :=
  let d := detOf n m
  if d = 0 then Config.singularStep m b
  else (List.range n).map fun j => detOf n ((m.zip b).map fun q => q.1.set j q.2) / d

/-- The inverse of an n × n matrix, column by column. -/
def inverseOf (n : Nat) (m : List (List Rat)) : List (List Rat) :=
  (List.range n).map fun j => solveLin n m ((List.range n).map fun i => if i = j then 1 else 0)

/-- One residual of a least-squares problem and its gradient. -/
structure Residual where
  value : Rat
  grad : List Rat

/-- The sum of the squared residuals. -/
def squares (rs : List Residual) : Rat := (rs.map fun r => r.value * r.value).sum

/-- The normal matrix JᵀJ. -/
def normalOf (n : Nat) (rs : List Residual) : List (List Rat) :=
  (List.range n).map fun i => (List.range n).map fun j => (rs.map fun r => r.grad.getD i 0 * r.grad.getD j 0).sum

/-- The Gauss-Newton step: (JᵀJ) δ = −Jᵀρ, to multiples of 2⁻⁶⁴. DESIGN CHOICE, log 12. -/
def gaussNewton (n : Nat) (rs : List Residual) : List Rat :=
  (solveLin n (normalOf n rs) ((List.range n).map fun i => -(rs.map fun r => r.grad.getD i 0 * r.value).sum)).map Config.quant

/-- Rounding to the nearest whole number. -/
def roundRat (q : Rat) : Int := (q + 1 / 2).floor

/-! ### The field of a Tint (R160, R163) -/

/-- Sine of an angle in turns. -/
def sinTurn (q : Rat) : Rat := Config.cosTurn (q - 1 / 4)

/-- A signed 16-bit triple of a table as a vector, in units of `k`. -/
def vec16 (b : Bytes) (off : Nat) (k : Rat) : V3 :=
  { x := k * s16 (leAt b off 2), y := k * s16 (leAt b (off + 2) 2), z := k * s16 (leAt b (off + 4) 2) }

/-- The dipole expression of R163 without its phase, for a moment in A·m² per ampere and r in metres: within 30 mm of a
term it is evaluated at 30 mm along r, at r = 0 along m. -/
def dipole (m r : V3) : V3 :=
  let d := max r.len (3 / 100)
  let u := if r.dot r = 0 then m.unit else r.unit
  ((u.smul (3 * u.dot m)).sub m).smul (1 / (4 * Config.pi * d * d * d))

/-- Its derivative along e. -/
def dipoleAlong (m r e : V3) : V3 :=
  let l := r.len
  if r.dot r = 0 then V3.zero
  else if 3 / 100 ≤ l then
    let l2 := l * l
    (((e.smul (3 * r.dot m)).add ((r.smul (3 * e.dot m)).add (m.smul (3 * r.dot e)))).sub
      (r.smul (15 * r.dot m * r.dot e / l2))).smul (1 / (4 * Config.pi * l2 * l2 * l))
  else
    let u := r.unit
    let v := (e.sub (u.smul (u.dot e))).smul (1 / l)
    ((v.smul (3 * u.dot m)).add (u.smul (3 * v.dot m))).smul (1 / (4 * Config.pi * (27 / 1000000)))

/-- The used terms of channel n: position in mm, moment, PHI in turns (R160). -/
def termsOf (fm : Bytes) (n : Nat) : List (V3 × V3 × Rat) :=
  (List.range 4).filterMap fun j =>
    let o := 16 + 64 * n + 16 * j
    if byteAt fm (o + 13) = 1 then some (vec16 fm o 1, vec16 fm (o + 6) (1 / 16384), (s8 (byteAt fm (o + 12)) : Rat) / 256) else none

/-- A complex vector. -/
structure C3 where
  re : V3
  im : V3

def C3.zero : C3 := { re := V3.zero, im := V3.zero }

def C3.add (a b : C3) : C3 := { re := a.re.add b.re, im := a.im.add b.im }

/-- A real vector turned by an angle in turns. -/
def C3.turned (v : V3) (q : Rat) : C3 := { re := v.smul (Config.cosTurn q), im := v.smul (sinTurn q) }

/-- The Hermitian norm, squared. -/
def C3.norm2 (a : C3) : Rat := a.re.dot a.re + a.im.dot a.im

/-- The sum over the slots and terms of a Tint of what `f` makes of moment and r (in metres), with current, gain and phase
applied; p in mm (R163). -/
def fieldSum (fm : Bytes) (gain phAdj : List Int) (t : Config.Tint) (p : V3) (f : V3 → V3 → V3) : C3 :=
  (t.drive.flatMap fun s => (termsOf fm s.1).map fun m => (s, m)).foldl (fun acc x =>
    let a : Rat := (x.1.2.1 : Rat) / 1000 * Config.pow10 ((gain.getD x.1.1 0 : Rat) / 200)
    let q : Rat := ((x.1.2.2 : Rat) + (phAdj.getD x.1.1 0 : Rat)) / 256 + x.2.2.2
    acc.add (C3.turned ((f x.2.2.1 ((p.sub x.2.1).smul (1 / 1000))).smul a) q)) C3.zero

/-- E_T(p) (R163). -/
def fieldE (fm : Bytes) (gain phAdj : List Int) (t : Config.Tint) (p : V3) : C3 := fieldSum fm gain phAdj t p dipole

/-- The change of E_T along the axis e, per mm. -/
def fieldAlong (fm : Bytes) (gain phAdj : List Int) (t : Config.Tint) (p e : V3) : C3 :=
  fieldSum fm gain phAdj t p fun m r => dipoleAlong m r (e.smul (1 / 1000))

/-- F_T(p) in dBµA/m (R163). -/
def fieldLevel (fm : Bytes) (gain phAdj : List Int) (t : Config.Tint) (p : V3) : Rat :=
  10 * Config.log10 ((fieldE fm gain phAdj t p).norm2 * 1000000000000) + (t.adj : Rat) / 10

/-- The gradient of F_T, per mm. -/
def fieldGrad (fm : Bytes) (gain phAdj : List Int) (t : Config.Tint) (p : V3) : List Rat :=
  let e := fieldE fm gain phAdj t p
  axes3.map fun a =>
    let d := fieldAlong fm gain phAdj t p a
    20 / Config.ln10 * (e.re.dot d.re + e.im.dot d.im) / e.norm2

/-- The level of an axis byte, L = 20 + v ⁄ 2 dBµA/m (R107, R164). -/
def axisLevel (v : Nat) : Rat := 20 + (v : Rat) / 2

/-- M_T of R153 in dBµA/m: the root sum of squares of the axes that are neither 0 nor 255. -/
def tintLevel (axes : List Nat) : Rat :=
  10 * Config.log10 (((axes.filter fun v => v != 0 && v != 255).map fun v => Config.pow10 (axisLevel v / 10)).sum)

/-! ### Place (R153) -/

/-- Position and facing normal of a port, and the axis of a pair (R392). -/
def portPos (pr : Config.PlaceProblem) (i : Nat) : V3 := vec16 pr.ports (20 * i) 1

def portNormal (pr : Config.PlaceProblem) (i : Nat) : V3 := vec16 pr.ports (20 * i + 6) (1 / 16384)

def pairAxis (pr : Config.PlaceProblem) (i : Nat) : V3 := vec16 pr.ports (120 + 12 * i + 2) (1 / 16384)

/-- The angle term s = (PDOA ⁄ 65,536) × λ ⁄ b (R142), lengths in mm. -/
def angleTerm (pr : Config.PlaceProblem) (a : Nat × Int) : Rat :=
  let lambda : Rat := 299792458000 / (if pr.channel = 9 then 7987200000 else 6489600000)
  (a.2 : Rat) / 65536 * lambda / ((leAt pr.ports (120 + 12 * a.1 + 8) 2 : Rat) / 10)

/-- The term of the range: (|p − c_TX| − r) ⁄ σ_r. -/
def rangeResidual (pr : Config.PlaceProblem) (p : V3) : List Residual :=
  match pr.range with
  | none => []
  | some g =>
    let q := p.sub (portPos pr pr.txPort)
    [{ value := (q.len - (g.1 : Rat) / 1000) / g.2, grad := (q.smul (1 / (q.len * g.2))).toList }]

/-- The term of a kept angle: (a · (p − c) ⁄ |p − c| − s) ⁄ σ_s with σ_s = 0.035. -/
def angleResidual (pr : Config.PlaceProblem) (p : V3) (a : Nat × Int) : Residual :=
  let q := p.sub (portPos pr (byteAt pr.ports (120 + 12 * a.1)))
  let ax := pairAxis pr a.1
  { value := (ax.dot q / q.len - angleTerm pr a) / (35 / 1000)
    grad := (((ax.smul (1 / q.len)).sub (q.smul (ax.dot q / (q.len * q.len * q.len)))).smul (1000 / 35)).toList }

/-- The term of a Tint: (F_T(p) − M_T) ⁄ σ_L with σ_L = 3 dB. -/
def tintResidual (pr : Config.PlaceProblem) (p : V3) (t : Config.Tint) : Residual :=
  { value := (fieldLevel pr.fieldMap pr.gain pr.phAdj t p - tintLevel t.axes) / 3
    grad := (fieldGrad pr.fieldMap pr.gain pr.phAdj t p).map (· / 3) }

/-- The terms of J(p). -/
def placeResiduals (pr : Config.PlaceProblem) (p : V3) : List Residual :=
  rangeResidual pr p ++ pr.angles.map (angleResidual pr p) ++ pr.tints.map (tintResidual pr p)

/-- J(p) (R153). -/
def placeCost (pr : Config.PlaceProblem) (p : V3) : Rat := squares (placeResiduals pr p)

/-- The centroids of the used volumes of a zone map: the mean of each volume's vertices (R152, R153). -/
def centroids (zm : Bytes) : List V3 :=
  (List.range 28).filterMap fun v =>
    let vs := volumeVertices (zonePlanes zm (8 + 68 * v))
    if byteAt zm (8 + 68 * v) = 0 || vs.isEmpty then none
    else some ((vs.foldl (fun a q =>
      V3.add a { x := (q.1.x : Rat) / q.2, y := (q.1.y : Rat) / q.2, z := (q.1.z : Rat) / q.2 }) V3.zero).smul (1 / vs.length))

/-- The candidate with the smallest J, the first of equals. -/
def bestStart (pr : Config.PlaceProblem) (cs : List V3) : Option V3 :=
  cs.foldl (fun b c => match b with
    | none => some c
    | some q => if placeCost pr c < placeCost pr q then some c else some q) none

/-- A unit vector's missing component: √(1 − q), at least 0. -/
def rest (q : Rat) : Rat := Config.realSqrt (max 0 (1 - q))

/-- The direction with components s₁ and s₂ along two axes that are not parallel, on the side that the transmit port
faces. -/
def twoAxes (pr : Config.PlaceProblem) (a b : Nat × Int) : V3 :=
  let u := pairAxis pr a.1
  let v := pairAxis pr b.1
  let c := u.dot v
  let g := u.dot u * v.dot v - c * c
  let w := (u.smul ((angleTerm pr a * v.dot v - angleTerm pr b * c) / g)).add (v.smul ((angleTerm pr b * u.dot u - angleTerm pr a * c) / g))
  let n := (u.cross v).unit
  let side : Rat := if n.dot (portNormal pr pr.txPort) < 0 then -1 else 1
  w.add (n.smul (side * rest (w.dot w)))

/-- The direction without an angle, or with angles along one axis: the facing normal, or s a + √(1 − s²) n′. -/
def oneAxis (pr : Config.PlaceProblem) : V3 :=
  let n := portNormal pr pr.txPort
  match pr.angles with
  | [] => n
  | a :: _ =>
    let u := pairAxis pr a.1
    let s := (pr.angles.map (angleTerm pr)).sum / pr.angles.length
    let m := (n.sub (u.smul (n.dot u))).unit
    (u.smul s).add (m.smul (rest (s * s)))

/-- Two kept angles of axes that are not parallel. -/
def crossed (pr : Config.PlaceProblem) : Option ((Nat × Int) × (Nat × Int)) :=
  (pr.angles.flatMap fun a => pr.angles.map fun b => (a, b)).find? fun q =>
    let c := (pairAxis pr q.1.1).cross (pairAxis pr q.2.1)
    decide (c.dot c ≠ 0)

/-- The point at range r from the transmit port in a direction. -/
def atRange (pr : Config.PlaceProblem) (um : Nat) (u : V3) : V3 := (portPos pr pr.txPort).add (u.smul ((um : Rat) / 1000))

/-- The start point of R153 step 1, by the first case that applies. -/
def placeStart (pr : Config.PlaceProblem) : V3 :=
  let far : Option V3 := pr.range.map fun g => atRange pr g.1 (oneAxis pr)
  match pr.range, crossed pr with
  | some g, some q => atRange pr g.1 (twoAxes pr q.1 q.2)
  | _, _ => ((if pr.tints.isEmpty then none else bestStart pr (centroids pr.zoneMap)) <|> far).getD V3.zero

/-- Gauss-Newton steps, at most `k`, until one is below 1 mm (R153 step 2). -/
def placeIterate (pr : Config.PlaceProblem) : Nat → V3 → V3
  | 0, p => p
  | k + 1, p =>
    let d := gaussNewton 3 (placeResiduals pr p)
    let v : V3 := { x := d.getD 0 0, y := d.getD 1 0, z := d.getD 2 0 }
    if v.dot v < 1 then p.add v else placeIterate pr k (p.add v)

/-- σ_p: the square root of the largest eigenvalue of the position covariance (R153 step 3). -/
def placeSigma (pr : Config.PlaceProblem) (p : V3) : Rat :=
  let m := normalOf 3 (placeResiduals pr p)
  if detOf 3 m = 0 then Config.singularSigma m else Config.realSqrt (Config.eigMax (inverseOf 3 m))

/-- Solution of R153: p in µm, σ_p in µm, and J in thousandths, each to the nearest. DESIGN CHOICE, log 12. -/
def placeSolve (pr : Config.PlaceProblem) : (Int × Int × Int) × Nat × Nat :=
  let p := placeIterate pr 8 (placeStart pr).quant
  ((roundRat (1000 * p.x), roundRat (1000 * p.y), roundRat (1000 * p.z)), (roundRat (1000 * placeSigma pr p)).toNat,
    (roundRat (1000 * placeCost pr p)).toNat)

/-- A position in µm as one in mm. -/
def mmPos (p : Int × Int × Int) : V3 := { x := (p.1 : Rat) / 1000, y := (p.2.1 : Rat) / 1000, z := (p.2.2 : Rat) / 1000 }

/-- M_T of R153 in 0.001 dBµA/m. DESIGN CHOICE, log 12. -/
def tintMagnitude (axes : List Nat) : Int := roundRat (1000 * tintLevel axes)

/-- F_T(p) of R163 with p in µm, in 0.001 dBµA/m. DESIGN CHOICE, log 12. -/
def tintField (fm : Bytes) (gain phAdj : List Int) (t : Config.Tint) (p : Int × Int × Int) : Int :=
  roundRat (1000 * fieldLevel fm gain phAdj t (mmPos p))

/-! ### The fit of the signature (R163, R164) -/

/-- A rotation from the cab frame to the token axes, by rows. -/
structure Rot where
  r0 : V3
  r1 : V3
  r2 : V3

def Rot.apply (q : Rot) (v : V3) : V3 := { x := q.r0.dot v, y := q.r1.dot v, z := q.r2.dot v }

def Rot.rows (q : Rot) : List V3 := [q.r0, q.r1, q.r2]

/-- A vector turned about the unit axis u by an angle with the given cosine and sine. -/
def spin (u : V3) (c s : Rat) (v : V3) : V3 := ((v.smul c).add ((u.cross v).smul s)).add (u.smul (u.dot v * (1 - c)))

/-- Q followed by the rotation of the rotation vector w, in radians: its rows in the turned token frame. -/
def Rot.turn (q : Rot) (w : V3) : Rot :=
  let a := w.len
  if w.dot w = 0 then q
  else
    let t := a / (2 * Config.pi)
    let m := axes3.map (spin w.unit (Config.cosTurn t) (sinTurn t))
    let row (i : Nat) : V3 := (List.range 3).foldl (fun acc j => acc.add (((q.rows).getD j V3.zero).smul (((m.getD j V3.zero).toList).getD i 0))) V3.zero
    { r0 := (row 0).quant, r1 := (row 1).quant, r2 := (row 2).quant }

/-- The 24 rotations of the cube group: signed permutations of the axes with determinant 1. -/
def cubeGroup : List Rot :=
  let signed := axes3.flatMap fun a => [a, a.smul (-1)]
  (signed.flatMap fun a => (signed.filter fun b => decide (a.dot b = 0)).map fun b => { r0 := a, r1 := b, r2 := a.cross b })

/-- One side of the signature: a Tint's field at p and its TRI_ADJ in dB. -/
structure FitTint where
  e : C3
  adj : Rat
  axes : List Nat

/-- What the fit searches: Q and o. -/
structure FitPoint where
  q : Rot
  o : Rat

/-- e_k · Q E_T. -/
def axisField (t : FitTint) (q : Rot) (k : Nat) : Rat × Rat :=
  (((q.apply t.e.re).toList).getD k 0, ((q.apply t.e.im).toList).getD k 0)

/-- The predicted axis level L̂_Tk(Q) in dBµA/m (R163). -/
def predicted (t : FitTint) (x : FitPoint) (k : Nat) : Rat :=
  let a := axisField t x.q k
  10 * Config.log10 ((a.1 * a.1 + a.2 * a.2) * 1000000000000) + t.adj + x.o

/-- The residual L̂_Tk − L_Tk and its gradient by the rotation vector, and by o where it is fitted. -/
def fitResidual (t : FitTint) (x : FitPoint) (free : Bool) (k : Nat) : Residual :=
  let re := x.q.apply t.e.re
  let im := x.q.apply t.e.im
  let a := axisField t x.q k
  let along (w : V3) : Rat :=
    20 / Config.ln10 * (a.1 * ((w.cross re).toList).getD k 0 + a.2 * ((w.cross im).toList).getD k 0) / (a.1 * a.1 + a.2 * a.2)
  { value := predicted t x k - axisLevel (t.axes.getD k 0), grad := axes3.map along ++ (if free then [1] else []) }

/-- The residuals over both Tints and the axes of K. -/
def fitResiduals (a b : FitTint) (ks : List Nat) (free : Bool) (x : FitPoint) : List Residual :=
  ks.map (fitResidual a x free) ++ ks.map (fitResidual b x free)

/-- At most `k` Gauss-Newton steps; a fitted o stays within ±4 dB (R164, R166). -/
def fitIterate (a b : FitTint) (ks : List Nat) (free : Bool) : Nat → FitPoint → FitPoint
  | 0, x => x
  | k + 1, x =>
    let d := gaussNewton (if free then 4 else 3) (fitResiduals a b ks free x)
    fitIterate a b ks free k
      { q := x.q.turn { x := d.getD 0 0, y := d.getD 1 0, z := d.getD 2 0 }
        o := if free then max (-4) (min 4 (x.o + d.getD 3 0)) else x.o }

/-- The best of the fits from the 24 rotations, the first of equals. -/
def bestFit (a b : FitTint) (ks : List Nat) (free : Bool) (o : Rat) : FitPoint :=
  let fits := cubeGroup.map fun q => fitIterate a b ks free 6 { q := q, o := o }
  let cost (x : FitPoint) : Rat := squares (fitResiduals a b ks free x)
  fits.foldl (fun m x => if cost x < cost m then x else m)
    (fits.headD { q := { r0 := axes3.getD 0 V3.zero, r1 := axes3.getD 1 V3.zero, r2 := axes3.getD 2 V3.zero }, o := o })

/-- The fit of R164: the levels predicted at it with o* (A_X to B_Z), and o*, in 0.001 dB to the nearest.
DESIGN CHOICE, log 12. -/
def signatureFit (f : Config.FitProblem) : List Int × Int :=
  let side (t : Config.Tint) : FitTint :=
    { e := fieldE f.fieldMap f.gain f.phAdj t (mmPos f.p), adj := (t.adj : Rat) / 10, axes := t.axes }
  let a := side f.tintA
  let b := side f.tintB
  let x := bestFit a b f.axes f.first (if f.first then 0 else (f.offset : Rat) / 1000)
  (((List.range 3).map (predicted a x) ++ (List.range 3).map (predicted b x)).map fun q => roundRat (1000 * q), roundRat (1000 * x.o))

end Sys2Proof.Machine
end

