-- ==== Sys2Proof/Machine/Press.lean ====
section
/-! DEFINITION. Press telegrams: their checks, the rolling counter, what an accepted press brings about, its
acknowledgement, and what waits for the end of an approach (R29, R110 to R115, R173, R192). -/

namespace Sys2Proof.Machine

open Sys2Proof

/-! ### VERDICT jobs of the steward (R179, R271) -/

/-- The lowest free job tag. DEDUCED, log 66. -/
def freeJobTag (s : State) : Option (Fin 48) := (List.finRange 48).find? fun t => (jobAt s t).isNone

/-- The 16 bytes of a VERDICT job. -/
def verdictInput (grant ctx zone doors nC ctr : Nat) : Bytes :=
  [byte grant, byte ctx, byte zone, byte doors] ++ leBytes 4 nC ++ leBytes 4 ctr ++ zeros 4

/-- A VERDICT job submitted under a free tag; the run remembers it. DEDUCED, log 66, 117. -/
def submitVerdict (s : State) (input : Bytes) : State :=
  match freeJobTag s with
  | none => s
  | some t =>
    let w : JobWords :=
      { tag := t, hold := false, prio := true, slot := 0, slot2 := 0, dataLen := 16, adLen := 0, mode := 0, dst := 0
        area := 0, src := false, aux := 0 }
    let s1 := { s with gq := { s.gq with inBuf := memWriteBytes s.gq.inBuf (256 * t.val) input } }
    submit .verdict w s.gq.privileged (modRun s1 fun r => { r with verdicts := r.verdicts ++ [t] })

/-! ### The acknowledgement (R115, R192) -/

/-- Ticks of the 120 bits of the acknowledgement. -/
def ackTicks (profile : Nat) : Nat := if profile = 2 then 240000 else 480000

/-- The 15 bytes of an acknowledgement. -/
def ackFrame (s : State) (key : Bytes) (c : Fin 160) (ctr result : Nat) : Bytes :=
  let mac := (Config.cmac key ([0x41] ++ idVid s c ++ beBytes 4 ctr ++ [byte result])).take 4
  let body := beBytes 4 ctr ++ [byte result] ++ mac
  [0xAA, 0xAA, 0x6C, 0x3A] ++ body ++ beBytes 2 (crc16 body)

/-- The acknowledgement handed to Tenné as an untimed transmit. DEDUCED, log 49. -/
def sendAck (s : State) (key : Bytes) (c : Fin 160) (ctr result burstEnd : Nat) : State :=
  let pr := pressProfile s
  if s.tn.utx.phase ≠ .idle then s
  else
    let e := sniffEntry s
    let s1 := { s with tn := { s.tn with
      txbuf := memWriteBytes s.tn.txbuf 0 (ackFrame s key c ctr result)
      utx := { s.tn.utx with nb := BitVec.ofNat 32 (burstEnd + 76800), dl := BitVec.ofNat 32 (burstEnd + 1536000 - ackTicks pr - 10752) } } }
    utxGo (BitVec.ofNat 32 (e + 8 * pr + 64 * pwrMaxOf s e + 4096 * b2n (s.tn.coex[0]).enabled)) s1

/-! ### What an accepted press does (R173) -/

/-- UNLOCK: a button entry grant to every door, then a Hail; while a run is going on the Hail waits for its end.
DEDUCED, log 50. -/
def pressUnlock (s : State) (c : Fin 160) (ctr : Nat) : State :=
  let s1 := submitVerdict s (verdictInput 3 c.val 0 (allDoors s).toNat 0 ctr)
  if s1.pres.run.isSome then holdTouch s1 0 false else wakeApproach s1 0 false

/-- LOCK: an open entry session ends, or EVT_SESSION_END with session 0. -/
def pressLock (s : State) : State := if s.pres.entry.isSome then endEntry s 3 1 else evtSessionEnd s 0 3 1 0 0

/-- The effect and RESULT of an accepted press. DEDUCED, log 50. -/
def pressEffect (s : State) (c : Fin 160) (ctr : Nat) (btn : Byte) : State × Nat :=
  if (lcOf s ≠ .provisioned ∧ lcOf s ≠ .fielded) ∨ s.bar.fieldEnd.synced = false then (s, 2)
  else if bitAt btn.toNat 1 then (pressUnlock s c ctr, 1)
  else if bitAt btn.toNat 0 then (pressLock s, 1)
  else (s, 2)

/-- The link key of a context where its slot can serve Aqmos jobs (R244, R255, R256). DEDUCED, log 46. -/
def linkKey (s : State) (c : Fin 160) : Option Bytes :=
  let k := slotAt s (slotKt c)
  if (slotRefusal s k useAqmos).isNone then k.key else none

/-- An accepted press is acted on: its MAC_K stands verified in Gules from now, EVT_PRESENCE, the effect, the
acknowledgement. Where the key has gone since, the press is reported and has no other effect (R114).
DEDUCED, log 50. -/
def pressAct (s : State) (h : HeldPress) : State :=
  match linkKey s h.ctx with
  | none => evtPress s h false
  | some key =>
    let s1 := modProof s h.ctx fun x => { x with press := some (h.ctr, now s, h.ctx.val) }
    let (s2, res) := pressEffect (evtPress s1 h false) h.ctx h.ctr.toNat h.btn
    sendAck s2 key h.ctx h.ctr.toNat res h.burstEnd

/-! ### The counter (R113) -/

/-- What the counter test makes of a telegram. -/
inductive CtrVerdict where
  | duplicate | rejected | accepted | hold
  deriving DecidableEq, Repr

/-- The counter test of R113. DEDUCED, log 48. -/
def ctrTest (t : TokenCtx) (ctr : W32) (tick : Nat) : CtrVerdict :=
  let n := ctr.toNat
  let l := t.ctrL.toNat
  let near (a : Option Nat) : Bool := match a with
    | some x => decide (tick ≤ x + 400 * ticksPerMs)
    | none => false
  let dupCand := match t.resync with
    | some (c, at_) => c == ctr && near (some at_)
    | none => false
  let completes := match t.resync with
    | some (c, at_) => n == c.toNat + 1 && decide (tick ≤ at_ + 30 * ticksPerSec)
    | none => false
  if (n == l && near t.ctrAt) || dupCand then .duplicate
  else if n ≤ l then .rejected
  else if completes || decide (n ≤ l + 256) then .accepted
  else if n ≤ l + 65536 then .hold
  else .rejected

/-! ### PRESS_TELEGRAM (R113) -/

def modCtx (s : State) (c : Fin 160) (f : TokenCtx → TokenCtx) : State := { s with ctxs := vmod s.ctxs c f }

/-- A telegram that R113 rejects is counted in telemetry. -/
def pressReject (s : State) : State :=
  { s with bg := { s.bg with pu := { s.bg.pu with pressRej := satInc s.bg.pu.pressRej } } }

/-- The enrolled context with an ID. -/
def ctxOfId (s : State) (id : Nat) : Option (Fin 160) :=
  (List.finRange 160).find? fun c => (s.ctxs[c]).valid && (s.ctxs[c]).id.toNat == id

/-- A MAC failure naming an ID: ten within 60 s block it for 60 s. -/
def macFailed (s : State) (c : Fin 160) : State :=
  let s1 := pressReject s
  modCtx s1 c fun t =>
    let l := (t.macFails.filter fun x => decide (now s ≤ x + 60 * ticksPerSec)) ++ [now s]
    if 10 ≤ l.length then { t with macFails := [], macBlock := some (now s + 60 * ticksPerSec) }
    else { t with macFails := l }

/-- Whether a telegram is held until Grant: its token is a candidate of the running approach (R29). -/
def pressHeld (s : State) (c : Fin 160) : Bool :=
  match s.pres.run with
  | some r => r.kind = .approach && r.candidates.contains c
  | none => false

/-- A telegram with CRC, context and MAC_K in order. A telegram accepted within L + 256 ends the hold of a resynchronisation
candidate. DEDUCED, log 47. DESIGN CHOICE, log 174. -/
def pressVerified (s : State) (c : Fin 160) (key : Bytes) (h : HeldPress) : State :=
  match ctrTest (s.ctxs[c]) h.ctr (now s) with
  | .duplicate => s
  | .rejected => pressReject s
  | .accepted =>
    let s1 := modCtx s c fun t => { t with ctrL := h.ctr, ctrAt := some (now s), resync := none }
    let s2 := appendCtr s1 c h.ctr.toNat 0 0
    if pressHeld s2 c then { s2 with pres := { s2.pres with heldPress := s2.pres.heldPress ++ [h] } } else pressAct s2 h
  | .hold =>
    let s1 := modCtx s c fun t => { t with resync := some (h.ctr, now s) }
    let s2 := appendCtr s1 c (s.ctxs[c]).ctrL.toNat h.ctr.toNat (rtcNow s)
    sendAck (evtPress s2 h true) key c h.ctr.toNat 3 h.burstEnd

/-- A telegram whose CRC holds: block, roster lookup, MAC_K, which takes a use of the slot (R249).
DEDUCED, log 46, 47. DESIGN CHOICE, log 165. -/
def pressKnown (s : State) (p : Bytes) : State :=
  match ctxOfId s (beAt p 0 8) with
  | none => pressReject s
  | some c =>
    if (match (s.ctxs[c]).macBlock with
        | some t => decide (now s < t)
        | none => false) then s
    else if beAt p 8 2 ≠ vidOf s then pressReject s
    else
      let h : HeldPress :=
        { ctx := c, ctr := BitVec.ofNat 32 (beAt p 10 4), btn := byte (byteAt p 14), flags := byte (byteAt p 15)
          burstEnd := now s + byteAt p 20 * copyTicks (pressProfile s) }
      match linkKey s c with
      | none => pressReject s
      | some key =>
        let s1 := spendUse s (slotKt c)
        if (Config.cmac key ([0x4B] ++ p.take 16)).take 4 = slice p 16 4 then pressVerified s1 c key h else macFailed s1 c

/-- Tenné's receiver and synthesiser off after a sniff or its search, unless a program or an untimed transmit has taken
them (R193). -/
def sniffOff (s : State) : State :=
  { s with tn := { s.tn with
      sniffUntil := none
      rxOn := s.tn.rxOn && seqRuns s .tenne
      synth := if seqRuns s .tenne || s.tn.utx.phase == .synth || s.tn.utx.phase == .sending then s.tn.synth
        else { s.tn.synth with on := false, locked := false } } }

/-- SYNC found in the search that follows a sniff freezes the offset estimate for the frame, whose last bit ends now (R187). -/
def sniffSync (s : State) : State :=
  { s with tn := { s.tn with
      dcocFrozen := s.tn.dcocAt, dcocOk := dcocValid s.tn.dcocAt (now s - copyTicks (pressProfile s)) } }

/-- PRESS_TELEGRAM (R113, R187, R193, R194): received in the press window or in the search that follows a sniff, the 23 payload
bytes of a format 2 frame lie in the staging window at `off`, and its last bit ends now. DEDUCED, log 47. -/
def doPressTelegram (off : BitVec 12) (s : State) : State :=
  if !windowKept s && s.tn.sniffUntil.isNone then s
  else
  let p := memReadBytes s.cel.win off.toNat 23
  let s1 := if s.tn.sniffUntil.isSome then sniffOff (sniffSync s) else s
  passEnd (if pressCrcOk p then pressKnown s1 p else pressReject s1)

/-- RESYNC_CANDIDATE_EXPIRY (R113): 30 s after the hold. -/
def doResyncCandidateExpiry (ctx : Fin 160) (s : State) : State :=
  match (s.ctxs[ctx]).resync with
  | none => s
  | some (_, t) => passEnd (modCtx (elapseTo s (t + 30 * ticksPerSec + 1)) ctx fun x => { x with resync := none })

/-- MAC_FAIL_BLOCK_EXPIRY (R113): the 60 s have passed. -/
def doMacFailBlockExpiry (ctx : Fin 160) (s : State) : State :=
  match (s.ctxs[ctx]).macBlock with
  | none => s
  | some t => passEnd (modCtx (elapseTo s t) ctx fun x => { x with macBlock := none })

/-! ### The commands of this file -/

/-- PRESS_TELEGRAM (R113). -/
def execPressTelegram (off : BitVec 12) (s : State) : Host.Outcome State Fault Refusal :=
  done s (doPressTelegram off s)

/-- RESYNC_CANDIDATE_EXPIRY (R113). -/
def execResyncCandidateExpiry (ctx : Fin 160) (s : State) : Host.Outcome State Fault Refusal :=
  done s (doResyncCandidateExpiry ctx s)

/-- MAC_FAIL_BLOCK_EXPIRY (R113). -/
def execMacFailBlockExpiry (ctx : Fin 160) (s : State) : Host.Outcome State Fault Refusal :=
  done s (doMacFailBlockExpiry ctx s)

end Sys2Proof.Machine
end

