-- ==== Sys2Proof/Machine/Hf.lean ====
section
/-! DEFINITION. The HF reader: field, card detection, the credential exchange and its outcomes, HF grants
(R204 to R214, R228 to R230). -/

namespace Sys2Proof.Machine

open Sys2Proof

def modHf (s : State) (f : HfReader → HfReader) : State := { s with hf := f s.hf }

/-- Ticks of t_GUARD and of the pause after the field, 5.1 ms (R207, R230). -/
def hfGuard : Nat := 195840

/-- The HF reader may emit: in Chalk, outside service-lock (R205, R261). -/
def hfAllowed (s : State) : Bool := s.pwr.pstate = .chalk && !s.keys.svcLock

/-! ### Field and frames (R204, R207, R208, R228) -/

/-- The field goes off; no command sequence starts for 5.1 ms (R207). -/
def hfFieldOff (s : State) : State :=
  if s.hf.field then
    modHf s fun h => { h with field := false, phase := .idle, offUntil := now s + hfGuard, nR := [], conf := none, uid := [] }
  else s

/-- The HF reader silent: in service-lock and in Ash (R261, R412). -/
def hfSilent (s : State) : State := modHf (hfFieldOff s) fun h => { h with lpcd := false, lingerUntil := none }

/-- HF_FIELD_ON (R207, R228): not before the field has been off for 5.1 ms; t_GUARD and the 50 ms count from here. -/
def doHfFieldOn (s0 : State) : State :=
  if !hfAllowed s0 || s0.hf.field then s0
  else
    let s := elapseTo s0 s0.hf.offUntil
    modHf s fun h => { h with field := true, phase := .guard, detectedAt := now s, cards := 0 }

/-- HF_FIELD_OFF (R228). -/
def doHfFieldOff (s : State) : State := releaseTouch (hfFieldOff s)

/-- The frames that the reader sends (R204, R208). -/
inductive HfFrame where
  | reqa | wupa | antic | select | hlta | hauth | hconf
  deriving DecidableEq, Repr

/-- A frame by its bytes before CRC_A: REQA 26, WUPA 52, ANTICOLLISION and SELECT at cascade levels 1 to 3 (93, 95, 97; SELECT
with 70), HLTA 50 00, HAUTH B1 with 12 bytes, HCONF B3 with 10; every other frame is not supported (R204).
PRESUMED, log 16. -/
def hfFrame (b : Bytes) : Option HfFrame :=
  let b0 := byteAt b 0
  let sel := b0 == 0x93 || b0 == 0x95 || b0 == 0x97
  if b.length = 1 then (if b0 = 0x26 then some .reqa else if b0 = 0x52 then some .wupa else none)
  else if sel && decide (byteAt b 1 = 0x70 ∧ b.length = 7) then some .select
  else if sel && decide (0x20 ≤ byteAt b 1 ∧ byteAt b 1 < 0x70 ∧ b.length ≤ 7) then some .antic
  else if b.length = 2 ∧ b0 = 0x50 ∧ byteAt b 1 = 0 then some .hlta
  else if b.length = 12 ∧ b0 = 0xB1 then some .hauth
  else if b.length = 10 ∧ b0 = 0xB3 then some .hconf
  else none

/-- The rate of a frame: HCONF at HF_RATE, every other at 106 kb/s (R204, R208). -/
def hfRateFor (s : State) (f : HfFrame) : Nat := if f = .hconf then hfRate s else 0

/-- A frame placed in HF_TXBUF. -/
def hfTx (s : State) (b : Bytes) : State :=
  modHf s fun h => { h with txbuf := memWriteBytes (memClear h.txbuf 0 64) 0 b, txLen := byte b.length }

/-- The frame in HF_TXBUF. -/
def hfTxFrame (h : HfReader) : Option HfFrame := hfFrame (memReadBytes h.txbuf 0 h.txLen.toNat)

/-- HAUTH: VID, N_R that Gules draws for it, DR (R208). DESIGN CHOICE, log 4. -/
def hfAuthFrame (s : State) : Bytes × State :=
  let (n, s1) := drawBytes s 8
  ([0xB1] ++ beBytes 2 (vidOf s) ++ n ++ [byte (hfRate s)], s1)

/-- A frame goes out, no earlier than t_GUARD after the field came on (R207); a HAUTH carries a fresh N_R and awaits its
HRESP. DEDUCED, log 118. -/
def hfSend (s0 : State) (f : HfFrame) (b : Bytes) : State :=
  let s := if s0.hf.phase = .guard then elapseTo s0 (Nat.max (s0.hf.detectedAt + hfGuard) s0.hf.offUntil) else s0
  let (b1, s1) := if f = .hauth then hfAuthFrame s else (b, s)
  modHf (hfTx s1 b1) fun x => { x with
    done := false, rxResult := 0, rate := BitVec.ofNat 2 (hfRateFor s f)
    phase := if f = .hauth then .authSent else if f = .hconf then .accepted else .active
    nR := if f = .hauth then slice b1 3 8 else x.nR }

/-- HF_GO (R204, R208, R212, R228): HF_TXBUF goes out under the field where it holds a frame that the reader supports, at
that frame's rate. The steward sends no HAUTH while the HF path is locked out. DEDUCED, log 118. -/
def doHfGo (rate : BitVec 2) (s : State) : State :=
  let b := memReadBytes s.hf.txbuf 0 s.hf.txLen.toNat
  match hfFrame b with
  | none => s
  | some f =>
    if !s.hf.field || (decide (f = .hauth) && lockedOut s .hf) || decide (rate.toNat ≠ hfRateFor s f) then s else hfSend s f b

/-- HLTA ends an exchange (R211). PRESUMED, log 16. -/
def hfHalt (s : State) : State := hfSend (modHf s fun h => { h with uid := [] }) .hlta [0x50, 0x00]

/-! ### Detection (R205 to R207) -/

/-- HF_LPCD_START (R205): in Chalk; a baseline is learned again. -/
def doHfLpcdStart (s : State) : State := lpcdStart s

/-- HF_LPCD_STOP (R228). -/
def doHfLpcdStop (s : State) : State := modHf s fun h => { h with lpcd := false }

/-- Whether a ping departs from the baseline: amplitude in 0.25 % of the baseline amplitude, phase in 0.1° (R205).
DEDUCED, log 115. -/
def pingDeparts (h : HfReader) (amp : W16) (ph : Int) : Bool :=
  let da := (16 * (amp.toNat : Int) - h.baseAmp).natAbs
  let dp := (16 * ph - h.basePh).natAbs
  decide ((h.thrA.toNat : Int) * h.baseAmp < 400 * (da : Int)) || decide (16 * h.thrPh.toNat < dp)

/-- A ping with its measurement: learning, detection, or the baseline moved by one sixteenth. DEDUCED, log 115. -/
def pingResult (s : State) (amp : W16) (ph : Int) : State :=
  let h := s.hf
  if h.learned < 4 then
    modHf s fun x => { x with
      learned := x.learned + 1, baseAmp := x.baseAmp + 4 * (amp.toNat : Int), basePh := x.basePh + 4 * ph, pingAt := now s }
  else if pingDeparts h amp ph then
    if h.served then modHf s fun x => { x with lostPings := 0, pingAt := now s }
    else modHf s fun x => { x with
      detect := true, nDetect := satInc x.nDetect, field := true, phase := .guard, detectedAt := now s, cards := 0, pingAt := now s }
  else
    modHf s fun x => { x with
      baseAmp := x.baseAmp + (16 * (amp.toNat : Int) - x.baseAmp) / 16
      basePh := x.basePh + (16 * ph - x.basePh) / 16
      served := x.served && decide (x.lostPings = 0)
      lostPings := if x.served then x.lostPings + 1 else 0
      pingAt := now s }

/-- HF_PING (R205): 1 ms apart while the baseline is learned, else every t_PINGPER of 250 ms; suspended from Wake to
Grant (R29) and while the field is on. DEDUCED, log 115. -/
def doHfPing (amp : W16) (ph : W16) (s : State) : State :=
  if !s.hf.lpcd || s.hf.suspended || s.hf.field || decide (s.pwr.pstate ≠ .chalk) then s
  else
    let gap := if s.hf.learned < 4 then ticksPerMs else 250 * ticksPerMs
    pingResult (elapseTo s (s.hf.pingAt + gap)) amp (s16 ph.toNat)

/-- HF_GUARD_EXPIRY (R207): REQA goes out t_GUARD after the detection. -/
def doHfGuardExpiry (s : State) : State :=
  if s.hf.field && s.hf.phase == .guard then hfSend s .reqa [0x26] else s

/-- HF_FIELD_TIMEOUT (R207): 50 ms after detection. -/
def doHfFieldTimeout (s : State) : State :=
  if s.hf.field then
    let s1 := hfFieldOff (elapseTo s (s.hf.detectedAt + 50 * ticksPerMs))
    releaseTouch (modHf s1 fun h => { h with served := true, lostPings := 0 })
  else s

/-- HF_LINGER_EXPIRY (R206): detection stops. -/
def doHfLingerExpiry (s : State) : State :=
  match s.hf.lingerUntil with
  | none => s
  | some t => modHf (elapseTo s t) fun h => { h with lingerUntil := none, lpcd := false }

/-! ### The credential exchange (R208 to R213) -/

/-- Whether a context has an HF credential (R255, R256). -/
def hfEnrolled (s : State) (c : Fin 160) : Bool :=
  (s.ctxs[c]).valid &&
    (if s.keys.depot then s.keys.hfMask.contains c
     else decide (c.val < 16) && decide ((slotAt s (slotKhf c)).state ≠ .empty))

/-- The session slot that holds a Depot K_HF. DEDUCED, log 118. -/
def slotHfSession : Fin 224 := 192

/-- K_HF of a context with the slot that holds it: Keyring slot 16 + n; in Depot derived into a session slot when the
credential presents its ID (R256). DEDUCED, log 118. -/
def hfKey (s : State) (c : Fin 160) : State × Option (Bytes × Fin 224) :=
  if s.keys.depot then
    let e := slotAt s slotEpoch
    if e.state = .valid ∧ (slotAt s slotHfSession).gen ≠ 0xFFFFFFFF then
      let k := Config.kdf (e.key.getD []) (ascii "AQMOS-HF") (idVid s c) 128
      let s1 := writeSlot s slotHfSession
        { type := .aes128, usage := 0x80, persist := false, expireReset := true, origin := 0, lc := lcNow s, parent := 165 } k
      (s1, some (k, slotHfSession))
    else (s, none)
  else
    let k := slotAt s (slotKhf c)
    (s, if (slotRefusal s k useAqmos).isNone then k.key.map fun x => (x, slotKhf c) else none)

/-- HCONF goes out with RESULT 1 where the device acted on the credential, else 2 (R208, R209). DEDUCED, log 117. -/
def hfConf (s : State) (c : Fin 160) (nK : Bytes) (acted : Bool) : State :=
  match hfKey s c with
  | (s1, none) => hfHalt s1
  | (s1, some (key, _)) =>
    let r : Byte := if acted then 1 else 2
    let mac := (Config.cmac key ([0x76] ++ idVid s1 c ++ nK ++ s1.hf.nR ++ [r])).take 8
    hfSend (modHf s1 fun h => { h with conf := none }) .hconf ([0xB3, r] ++ mac)

/-- The VERDICT job that an accepted credential brings about: a pending start request takes it, else HF entry (R213).
DEDUCED, log 117. -/
def hfGrant (s : State) (c : Fin 160) : Option Bytes :=
  let lcOk := lcOf s = .provisioned || lcOf s = .fielded
  let v := s.bar.vstate
  let pend := match s.pres.startReq with
    | some q => !q.sent
    | none => false
  if hfRoleStart s && pend && lcOk && verdictsGo s && v.valid && v.standstill && !v.engineRun then some (verdictInput 5 c.val 0 0 0 0)
  else if hfRoleEntry s && lcOk && s.bar.fieldEnd.synced then some (verdictInput 4 c.val 0 (hfDoors s).toNat 0 0)
  else none

/-- The verdict of an accepted credential submitted: HCONF waits for its end, and goes out at once where there is none
(R208, R213). DEDUCED, log 117. -/
def hfActs (s : State) (c : Fin 160) (nK : Bytes) : State :=
  match hfGrant s c, freeJobTag s with
  | some input, some t =>
    let s1 := if byteAt input 0 = 5 then
        { s with pres := { s.pres with startReq := s.pres.startReq.map fun q => { q with sent := true } } }
      else s
    submitVerdict (modHf s1 fun h => { h with phase := .accepted, conf := some (t, c, nK) }) input
  | _, _ => hfConf s c nK false

/-- The verdict for which an HCONF waits has ended (R208). -/
def hfVerdictEnded (s : State) (t : Fin 48) (st : Status) : State :=
  match s.hf.conf with
  | some (u, c, nK) => if u = t then hfConf s c nK (decide (st = .ok)) else s
  | none => s

/-- An HRESP of an enrolled credential (R209 to R211): a key that cannot serve ends the exchange with no count; the check takes
a use of the slot (R249). DEDUCED, log 116. -/
def hfJudge (s : State) (c : Fin 160) (r : Bytes) : State :=
  match hfKey s c with
  | (s0, none) => hfHalt s0
  | (s0, some (key, slot)) =>
    let s1 := spendUse s0 slot
    let f := s1.hf.fdt.toNat
    let nK := slice r 9 8
    if decide (8260 ≤ f) && decide (f ≤ 8292) &&
        (Config.cmac key ([0x68] ++ idVid s1 c ++ s1.hf.nR ++ nK)).take 8 = slice r 17 8 then
      hfActs (modHf (modProof s1 c fun x => { x with hf := some (now s1, slot.val) }) fun h =>
        { h with nAccept := satInc h.nAccept }) c nK
    else
      hfHalt (addFailure (modHf s1 fun h => { h with nFail := satInc h.nFail }) .hf)

/-- An HRESP from no enrolled credential: noise, counted in telemetry with the noise of hail replies (R211).
DESIGN CHOICE, log 192. -/
def hfNoise (s : State) : State :=
  hfHalt { s with bg := { s.bg with pu := { s.bg.pu with noise := satInc s.bg.pu.noise } } }

/-- The outcome of a HAUTH (R211): lost without an answer within FDT_H + 64 ⁄ fc or with a CRC error; noise; failed; accepted.
DEDUCED, log 116. -/
def hfOutcome (s : State) (result : BitVec 2) (data : Bytes) (fdt : W16) : State :=
  if result ≠ 1 ∨ 8340 < fdt.toNat ∨ data.length ≠ 25 ∨ byteAt data 0 ≠ 0xB2 then hfHalt s
  else match ctxOfId s (beAt data 1 8) with
    | some c => if hfEnrolled s c then hfJudge s c data else hfNoise s
    | none => hfNoise s

/-- The reply that a GO received. DEDUCED, log 116. -/
def hfStored (s : State) (result : BitVec 2) (data : Bytes) (fdt : W16) : State :=
  modHf s fun h => { h with
    done := true, rxResult := result, rxLen := byte data.length, fdt := if result = 0 then h.fdt else fdt
    rxbuf := if result = 0 then h.rxbuf else memWriteBytes (memClear h.rxbuf 0 64) 0 (data.take 64) }

/-! ### Activation (R204, R207, R212, R214; ISO/IEC 14443-3) -/

/-- Bits, least significant first, as bytes. -/
def packBits : Nat → List Bool → Bytes
  | 0, _ => []
  | k + 1, l => if l.isEmpty then [] else byte ((l.take 8).zipIdx.foldl (fun n p => n + 2 ^ p.2 * b2n p.1) 0) :: packBits k (l.drop 8)

/-- SEL of a cascade level. PRESUMED, log 16. -/
def selByte (level : Nat) : Byte := byte (0x91 + 2 * level)

/-- ANTICOLLISION at a level with the UID bits known so far. PRESUMED, log 16. -/
def hfAntic (s : State) (level : Nat) (bits : List Bool) : State :=
  hfSend (modHf s fun h => { h with uid := bits }) .antic
    ([selByte level, byte (16 * (2 + bits.length / 8) + bits.length % 8)] ++ packBits 5 bits)

/-- The level of the frame in HF_TXBUF. -/
def hfLevel (s : State) : Nat := ((memRead s.hf.txbuf 0).toNat - 0x91) / 2

/-- The reply to ANTICOLLISION: after a collision the next one chooses bit 1 (R214); with 40 bits known SELECT follows.
PRESUMED, log 16. -/
def hfAnticReply (s : State) (result : BitVec 2) (data : Bytes) (valid : Nat) : State :=
  let got := (data.flatMap lsbBits).take valid
  let bits := (s.hf.uid ++ got).take 40
  if result = 3 then (if bits.length < 40 then hfAntic s (hfLevel s) (bits ++ [true]) else s)
  else if result = 0 ∨ bits.length < 40 then s
  else hfSend s .select ([selByte (hfLevel s), 0x70] ++ packBits 5 bits)

/-- The reply to SELECT: the next cascade level where SAK says that the UID is not complete; else HAUTH, or HLTA while the
HF path is locked out (R212). PRESUMED, log 16. -/
def hfSelected (s : State) (result : BitVec 2) (data : Bytes) : State :=
  if result ≠ 1 then s
  else if bitAt (byteAt data 0) 2 then (if hfLevel s < 3 then hfAntic s (hfLevel s + 1) [] else s)
  else if lockedOut s .hf then hfHalt s
  else hfSend s .hauth []

/-- After HLTA the card is served: with two served the field goes off, else REQA looks for another (R204, R207, R214). -/
def hfHalted (s0 : State) : State :=
  let s := modHf s0 fun h => { h with cards := h.cards + 1, served := true, lostPings := 0 }
  if 2 ≤ s.hf.cards then releaseTouch (hfFieldOff s) else hfSend s .reqa [0x26]

/-- No ATQA to REQA or WUPA: WUPA follows REQA for the first card; with neither answered the detection was false, it is
counted and the baseline is learned again (R205). -/
def hfNoCard (s : State) (f : HfFrame) : State :=
  if 1 ≤ s.hf.cards then releaseTouch (hfFieldOff s)
  else if f = .reqa then hfSend s .wupa [0x52]
  else releaseTouch (modHf (hfFieldOff s) fun h => { h with nFalse := satInc h.nFalse, learned := 0, baseAmp := 0, basePh := 0 })

/-- HF_GO_DONE (R205, R207, R211): the frame in HF_TXBUF has had its reply, of which `valid` bits came before a collision, and
what follows from it goes out. PRESUMED, log 16. DEDUCED, log 116. -/
def doHfGoDone (result : BitVec 2) (data : Bytes) (valid : BitVec 6) (fdt : W16) (s : State) : State :=
  if s.hf.phase = .idle ∨ s.hf.phase = .guard ∨ s.hf.conf.isSome = true then s
  else
    let s1 := hfStored s result data fdt
    passEnd (match hfTxFrame s.hf with
      | some .hauth => if s.hf.phase = .authSent then hfOutcome s1 result data fdt else s1
      | some .hconf => hfHalt s1
      | some .hlta => hfHalted s1
      | some .antic => hfAnticReply s1 result data valid.toNat
      | some .select => hfSelected s1 result data
      | some f => if result = 0 then hfNoCard s1 f else hfAntic s1 1 []
      | none => s1)

/-! ### The commands of this file -/

/-- HF_FIELD_ON (R228). -/
def execHfFieldOn (s : State) : Host.Outcome State Fault Refusal :=
  done s (doHfFieldOn s)

/-- HF_FIELD_OFF (R228). -/
def execHfFieldOff (s : State) : Host.Outcome State Fault Refusal :=
  done s (doHfFieldOff s)

/-- HF_GO (R228). -/
def execHfGo (rate : BitVec 2) (s : State) : Host.Outcome State Fault Refusal :=
  done s (doHfGo rate s)

/-- HF_GO_DONE (R228). -/
def execHfGoDone (result : BitVec 2) (data : Bytes) (valid : BitVec 6) (fdt : W16) (s : State) : Host.Outcome State Fault Refusal :=
  done s (doHfGoDone result data valid fdt s)

/-- HF_LPCD_START (R205). -/
def execHfLpcdStart (s : State) : Host.Outcome State Fault Refusal :=
  done s (doHfLpcdStart s)

/-- HF_LPCD_STOP (R228). -/
def execHfLpcdStop (s : State) : Host.Outcome State Fault Refusal :=
  done s (doHfLpcdStop s)

/-- HF_PING (R205). -/
def execHfPing (amp : W16) (ph : W16) (s : State) : Host.Outcome State Fault Refusal :=
  done s (doHfPing amp ph s)

/-- HF_GUARD_EXPIRY (R207). -/
def execHfGuardExpiry (s : State) : Host.Outcome State Fault Refusal :=
  done s (doHfGuardExpiry s)

/-- HF_FIELD_TIMEOUT (R207). -/
def execHfFieldTimeout (s : State) : Host.Outcome State Fault Refusal :=
  done s (doHfFieldTimeout s)

/-- HF_LINGER_EXPIRY (R206). -/
def execHfLingerExpiry (s : State) : Host.Outcome State Fault Refusal :=
  done s (doHfLingerExpiry s)

end Sys2Proof.Machine
end

