-- ==== Sys2Proof/Machine/Plan.lean ====
section
/-! DEFINITION. The frames that the steward plans: what a Vert program sends and drives, the coils that stand for a set, and
the programs that are a hail frame or a challenge frame with given Tints (R80, R82, R96, R102, R105). -/

namespace Sys2Proof.Machine

open Sys2Proof

/-! ### What a Vert program does on air -/

/-- A slot as a program's run leaves it: channel, amplitude, phase, the byte of the LF data buffer added to the phase, and the
offset of the WAIT_TB before the DRIVE_ON that drives it. -/
structure SlotPlan where
  ch : Option Nat := none
  amp : Nat := 0
  ph : Option Nat := some 0
  add : Option Nat := none
  on : Option Nat := none
  deriving DecidableEq, Repr

/-- A SEND of a run: its WAIT_TB offset, bits, first bit, and the slots it drives. -/
structure SendPlan where
  at_ : Nat
  n : Nat
  first : Nat
  drives : List SlotPlan
  deriving DecidableEq, Repr

/-- A run of a Vert program as the steward reads it: the last WAIT_TB offset, the slots, the frequency, every SEND, the slots
that each MEASURE finds driven, and the offset of each DRIVE_OFF. -/
structure FramePlan where
  wait : Nat := 0
  slots : List SlotPlan := List.replicate 3 {}
  freq : Option (Bool × Nat) := none
  sends : List SendPlan := []
  measures : List (List (Nat × SlotPlan)) := []
  offs : List Nat := []
  deriving DecidableEq, Repr

/-- Slots of a mask changed. -/
def FramePlan.mask (p : FramePlan) (m : Nat) (f : SlotPlan → SlotPlan) : FramePlan :=
  { p with slots := p.slots.zipIdx.map fun x => if bitAt m x.2 then f x.1 else x.1 }

/-- One instruction of a run. A byte added twice, or a phase taken from the buffer, is none the steward knows. -/
def frameStep (p : FramePlan) (x : TraceOp) : FramePlan :=
  match x.op with
  | .waitTb o => { p with wait := o + x.off }
  | .sel s c => p.mask (2 ^ s) fun y => { y with ch := c }
  | .setAmp s a => p.mask (2 ^ s) fun y => { y with amp := a }
  | .setPh s v => p.mask (2 ^ s) fun y => { y with ph := some v, add := none }
  | .setPhBuf s true b => p.mask (2 ^ s) fun y => if y.add.isSome then { y with ph := none } else { y with add := some b }
  | .setPhBuf s false _ => p.mask (2 ^ s) fun y => { y with ph := none, add := none }
  | .setFreq t f => { p with freq := some (t, f) }
  | .driveOn m => p.mask m fun y => { y with on := some p.wait }
  | .driveOff m => { p.mask m fun y => { y with on := none } with offs := p.offs ++ [p.wait] }
  | .send m n b =>
    let d := (p.slots.zipIdx.filter fun y => bitAt m y.2).map (·.1)
    { p.mask m fun y => { y with on := none } with sends := p.sends ++ [{ at_ := p.wait, n := n, first := b, drives := d }] }
  | .measure _ _ _ =>
    { p with measures := p.measures ++ [(p.slots.zipIdx.filter fun y => y.1.on.isSome).map fun y => (y.2, y.1)] }
  | _ => p

/-- A program as the steward reads it. -/
def framePlan (ops : List ProgOp) : Option FramePlan := (unroll ops).map fun t => t.foldl frameStep {}

/-! ### The coils that stand for a set (R80) -/

/-- The first in-service substitute of a channel that the set does not hold already. DEDUCED, log 70. -/
def subFor (s : State) (held : List Nat) (c : Nat) : Option Nat :=
  (lfSubs s c).find? fun d => bitAt s.vert.svc.toNat d && !held.contains d

/-- What stands for each channel of a set: itself in service, else its first in-service substitute; none: the stage runs
without it. -/
def coilsGo (s : State) : List Nat → List Nat → List (Option Nat)
  | _, [] => []
  | held, c :: cs =>
    let x := if bitAt s.vert.svc.toNat c then some c else subFor s held c
    x :: coilsGo s (held ++ x.toList) cs

/-- The coils for a set. -/
def coilsFor (s : State) (cs : List Nat) : List (Option Nat) := coilsGo s cs cs

/-- Whether a stage on the set can be planned at all. -/
def anyCoil (s : State) (cs : List Nat) : Bool := (coilsFor s cs).any (·.isSome)

/-- The stage runs on the remaining coils, so that the approach is marked as degraded. DEDUCED, log 70. -/
def coilMissing (s : State) (cs : List Nat) : Bool := (coilsFor s cs).any (·.isNone)

/-! ### Tint triples (R82, R160) -/

/-- A byte of a Tint triple in the field map (R160). -/
def tripleByte (s : State) (t i : Nat) : Nat := byteAt (secOf s 3) (784 + 16 * t + i)

/-- A triple that the map uses. -/
def tripleListed (s : State) (t : Nat) : Bool := decide (t < 16) && tripleByte s t 0 != 0xFF

/-- The primary that a triple stands for. -/
def primaryOf (s : State) (t : Nat) : Nat := if tripleByte s t 13 = 0xFF then t else tripleByte s t 13

/-- The channels of a triple. -/
def tripleChannels (s : State) (t : Nat) : List Nat := (List.range 3).map (tripleByte s t)

/-- The triple to drive for a primary: the variant for the substituted set where the map lists one, else the primary itself
(R80). -/
def tripleFor (s : State) (p : Nat) : Nat :=
  let want := coilsFor s (tripleChannels s p)
  if want = (tripleChannels s p).map some then p
  else ((List.range 16).find? fun t =>
    tripleListed s t && tripleByte s t 13 == p && decide ((tripleChannels s t).map some = want)).getD p

/-- The three slots of a Tint on the triple that stands for a primary: channel, amplitude, phases in Tint A and B. A slot
without a coil in service stays empty (R80). -/
def tintSlots (s : State) (p : Nat) : List (Nat × Nat × Nat × Nat × Nat) :=
  let t := tripleFor s p
  ((coilsFor s (tripleChannels s p)).zipIdx).filterMap fun x =>
    x.1.map fun c => (x.2, c, tripleByte s t (3 + x.2), tripleByte s t (6 + x.2), tripleByte s t (9 + x.2))

/-- A Tint as a MEASURE must find it: every slot on its channel with the bundle's phase, and with offset `k` + slot of the LF
data buffer added where the exchange carries offsets. -/
def tintDrives (slots : List (Nat × Nat × Nat × Nat × Nat)) (b : Bool) (start : Nat) (k : Option Nat) : List (Nat × SlotPlan) :=
  slots.map fun x =>
    (x.1, { ch := some x.2.1, amp := x.2.2.1, ph := some (if b then x.2.2.2.2 else x.2.2.2.1), add := k.map (· + x.1), on := some start })

/-- The slots that a SEND drives were driven from the program's start on, so that its lead is a continuous carrier (R102, R105). -/
def leads (x : SendPlan) : Bool := !x.drives.isEmpty && x.drives.all fun y => decide (y.on = some 0)

/-- A program that is a challenge frame (R82, R96, R105): F_LF, one SEND of the challenge on coils in service, Tint A and
Tint B as asked, measured and held for five bit periods each. DEDUCED, log 179. -/
def challengeFrame (s : State) (ops : List ProgOp) (select offs : Bool) (p : Nat) : Bool :=
  let a0 := if select then 225600 else 177600
  let b0 := if select then 254400 else 206400
  let k := if select then 5 else 4
  let slots := tintSlots s p
  let a := tintDrives slots false a0 (if offs then some k else none)
  let b := tintDrives slots true b0 (if offs then some (k + 3) else none)
  match framePlan ops with
  | none => false
  | some f =>
    decide (f.freq = some (false, 50000)) &&
    (match f.sends with
    | [x] => x.at_ == (if select then 28800 else 19200) && x.n == (if select then 40 else 32) && x.first == 0 && leads x &&
        x.drives.all fun y => y.ch.any fun c => bitAt s.vert.svc.toNat c
    | _ => false) &&
    (f.measures.all fun m => decide (m = a) || decide (m = b)) && f.measures.contains a && f.measures.contains b &&
    decide (f.offs = [a0 + 24000, b0 + 24000])

/-! ### Hail frames (R80, R102, R103) -/

/-- The channels that a program's frames drive. -/
def sendChannels (ops : List ProgOp) : List Nat :=
  ((framePlan ops).map fun f => f.sends.flatMap fun x => x.drives.filterMap (·.ch)).getD []

/-- The Vert program that the bundle loads at a word address. -/
def bundleProgram (s : State) (start : Nat) : Option (List ProgOp) :=
  ((s.cmds.bundle.map (·.secs)).getD []).findSome? fun x =>
    if x.1 = 12 ∧ byteAt x.2 0 = 0 ∧ leAt x.2 2 2 = start then
      decodeRun .vert (leAt x.2 4 2) ((List.range (leAt x.2 4 2)).map fun i => leAt x.2 (8 + 2 * i) 2)
    else none

/-- The hail set of a program: the channels of the bundle's program at its address, or its own where the bundle has none.
DEDUCED, log 70. -/
def hailSet (s : State) (start : Nat) (ops : List ProgOp) : List Nat := sendChannels ((bundleProgram s start).getD ops)

/-- A program that is a hail frame (R80, R96, R102, R103): F_LF, one SEND of its 32 bits after eight periods of lead, in phase
on the coils that stand for the hail set. DEDUCED, log 179. -/
def hailFrame (s : State) (start : Nat) (ops : List ProgOp) : Bool :=
  let want := (coilsFor s (hailSet s start ops)).filterMap id
  match framePlan ops with
  | none => false
  | some f =>
    decide (f.freq = some (false, 50000)) &&
    match f.sends with
    | [x] => x.at_ == 38400 && x.n == 32 && x.first == 0 && leads x &&
        (x.drives.all fun y => decide (y.ph = (x.drives.headD {}).ph ∧ y.add = (x.drives.headD {}).add)) && decide (x.drives.filterMap (·.ch) = want)
    | _ => false

end Sys2Proof.Machine
end

