-- ==== Sys2Proof/Machine/Presence.lean ====
section
/-! DEFINITION. The presence pipeline: Hail, Prove, Range, Place, Weigh, Grant, tracking, roles, and the timers of
sessions, requests and lock-outs (R24 to R29, R101 to R118, R134 to R156, R160 to R183, R478). -/

namespace Sys2Proof.Machine

open Sys2Proof

/-! ### Starting, serving and settling runs (R29, R183, R478) -/

/-- What a run planned and did not see complete is stopped with CANCEL_STOP. -/
def cancelPlans (s : State) (r : Run) : State :=
  let stop (t : State) (n : Fin 128) : State := if entryActive (entryOf t n) then (cancelStopEntry t n .launchLate).1 else t
  r.plans.foldl (fun t p => stop (stop t p.1) p.2) s

/-- A tracking run is stopped; its tokens stay due (R183). DEDUCED, log 62. -/
def stopTracking (s : State) : State :=
  match s.pres.run with
  | some r =>
    if r.kind = .tracking then
      let s1 := cancelPlans s r
      { s1 with pres := { s1.pres with run := none }, hf := { s1.hf with suspended := false } }
    else s
  | none => s

/-- A lock-out of the passive path ends it for every token of the run, stops what it planned and tracking (R29, R178); a
pending start request ends with LOCKED_OUT (R395). -/
def passiveLockedOut (s : State) : State :=
  let s1 := endRun (match s.pres.run with
    | some r => cancelPlans s r
    | none => s)
  match s1.pres.startReq with
  | some _ => endStartReq s1 .lockedOut 0
  | none => s1

/-- A failed Prove: telemetry and the failure list; where the lock-out is reached, the end of the passive path (R29, R118,
R176). -/
def passiveFailure (s : State) : State :=
  let s1 := addFailure { s with bg := { s.bg with pu := { s.bg.pu with proveFail := satInc s.bg.pu.proveFail } } } .passive
  if lockedOut s1 .passive then passiveLockedOut s1 else s1

/-- A pending start request is served: at once, or after Grant where an approach runs (R29, R183, R478). -/
def startPath (s0 : State) : State :=
  let s := stopTracking s0
  match s.pres.run with
  | some r =>
    if r.kind = .approach then
      { s with pres := { s.pres with startReq := s.pres.startReq.map fun q => { q with held := true } } }
    else s
  | none =>
    pathFrom { s with pres := { s.pres with startReq := s.pres.startReq.map fun q => { q with held := false, lastTry := now s } } } 1 []

/-- A touch or PRES_WAKE: handle-table entries join a running approach, or an approach begins (R29, R172). Those of a
touch during a start path wait for the end of the path. DEDUCED, log 62, 63. -/
def startApproach (s0 : State) (touched : BitVec 4) (wake : Bool) : State :=
  let s := stopTracking s0
  match s.pres.run with
  | some r => if r.kind = .start then holdTouch s touched wake else modRun s fun x => { x with touched := x.touched ||| touched }
  | none => wakeApproach s touched wake

/-- What waited for the end of a run: held presses in order, a touch, then a held start request (R29).
DEDUCED, log 63. -/
def followUp (s : State) : State :=
  if s.pres.run.isSome then s
  else
    let s1 := releaseTouch (s.pres.heldPress.foldl pressAct { s with pres := { s.pres with heldPress := [] } })
    match s1.pres.startReq with
    | some q => if q.held && !q.sent then startPath s1 else s1
    | none => s1

/-- A run that has brought no grant: the next step of its path, or its end (R182, R478). DEDUCED, log 62. -/
def nextStep (s : State) : State :=
  match s.pres.run with
  | none => s
  | some r =>
    if r.path = 0 ∨ 3 ≤ r.path then endRun s
    else if r.kind = .start then (if s.pres.startReq.isSome then pathFrom s (r.path + 1) (r.toks.map (·.ctx)) else endRun s)
    else if passiveRuns s then beginRun s { hailRun s .approach 3 r.touched r.touchWake with deep := r.deep, double := r.double, degraded := r.degraded }
    else endRun s

/-- A run past Hail for whose tokens nothing is left to do. -/
def settle (s : State) : State :=
  match s.pres.run with
  | some r => if r.stage ≠ .hail ∧ r.stage ≠ .grant ∧ (r.toks.all fun t => t.ended) then nextStep s else s
  | none => s

/-! ### Hail (R102 to R104, R116, R117) -/

/-- The 32 bits SOF to EOF of a hail frame, as the first four bytes of the LF data buffer. -/
def hailBits (vid : Nat) (hailNew : Bool) (nH : Byte) : Nat :=
  let f := vid * 1024 + (if hailNew then 2 else 1) * 256 + nH.toNat
  let bits := (List.range 26).map fun i => bitAt f (25 - i)
  f * 32 + crc4 bits * 2

/-- A Tenné program receives frames of a format. -/
def receives (ops : List ProgOp) (f : Nat) : Bool := ops.any fun o => match o with
  | .tnRxFrame g _ _ _ => g == f
  | _ => false

/-- The Vert program of a frame planned at an absolute tick with the window of a reply in format `f`; at PRIO 3 where the
frame is urgent (R196). DEDUCED, log 179. -/
def plannedFrame (s : State) (frame reply : Fin 128) (f : Nat) (urgent : Bool) : Option (List ProgOp) :=
  let e := entryOf s frame
  let w := entryOf s reply
  let window : Bool := match programAt s .tenne w.arg.toNat with
    | some ops => receives ops f
    | none => false
  if e.island = 0 ∧ e.action = 1 ∧ e.tx ∧ !e.trig ∧ w.island = 2 ∧ w.action = 1 ∧ window ∧ (!urgent ∨ (e.prio = 3 ∧ w.prio = 3)) then
    programAt s .vert e.arg.toNat
  else none

/-- An alias job queued for the next enrolled token under a free tag (R103). DESIGN CHOICE, log 180. -/
def aliasOne (s : State) : State :=
  match s.pres.run with
  | none => s
  | some r =>
    match r.aliasDue, freeJobTag s with
    | c :: cs, some t =>
      if 32 ≤ r.aliasTags.length then s
      else
        let w : JobWords :=
          { tag := t, hold := false, prio := false, slot := byte c.val, slot2 := 0, dataLen := 0, adLen := 0, mode := 0, dst := 0
            area := 0, src := false, aux := BitVec.ofNat 32 c.val }
        submit .aqmosAlias w s.gq.privileged (modRun s fun x => { x with aliasDue := cs, aliasTags := x.aliasTags ++ [t] })
    | _, _ => s

/-- Alias jobs queued as far as tags are free. -/
def aliasQueue (s : State) : State := Nat.repeat aliasOne 32 s

/-- Every alias job of the hail has ended. -/
def aliasesIn (s : State) (r : Run) : Bool :=
  r.aliasDue.isEmpty && r.aliasTags.all fun t => match jobAt s t with
    | some j => j.op != .aqmosAlias || j.phase = .done
    | none => true

/-- CMD of a round's hail frame: HAIL after a collision, and a repeated round keeps its own (R117).
DEDUCED, log 61. -/
def hailCmd (r : Run) (hailNew : Bool) : Bool := if r.round ≠ 0 then false else if r.hailed then r.hailNew else hailNew

/-- A hail round is planned: a fresh N_H, the frame in the LF data buffer, an alias job for every enrolled token (R80, R103,
R117). It waits for the judgement of the round before; with no coil of the set left the approach ends and the HF linger
starts. DEDUCED, log 73, 179. DESIGN CHOICE, log 165. -/
def planHail (s : State) (hailNew : Bool) (frame reply : Fin 128) : State :=
  match s.pres.run with
  | none => s
  | some r =>
    if r.stage ≠ .hail ∨ r.hailPlan.isSome ∨ lockedOut s .passive then s
    else if 3 ≤ r.jammed then nextStep s
    else match plannedFrame s frame reply 0 (r.kind = .start || r.denied != 0) with
      | none => s
      | some ops =>
        let start := (entryOf s frame).arg.toNat
        let set := hailSet s start ops
        if anyCoil s set = false then startLinger (endRun s) (tHfLinger s)
        else if !s.gq.nHFresh || !hailFrame s start ops then s
        else
          let cmd := hailCmd r hailNew
          let s1 := { s with
            gq := { s.gq with nHFresh := false }
            pres := { s.pres with nH := s.gq.nH, aliases := [] }
            vert := { s.vert with buf := memWriteBytes s.vert.buf 0 (beBytes 4 (hailBits (vidOf s) cmd s.gq.nH)) } }
          aliasQueue (modRun s1 fun x => { x with
            hailed := true, hailNew := cmd, hailEnd := some (tickOf (entryOf s frame) + 192000)
            aliasDue := (List.finRange 160).filter fun c => (s.ctxs[c]).valid, aliasTags := []
            hailPlan := some (frame, reply), pressWindow := none, plans := x.plans ++ [(frame, reply)]
            degraded := x.degraded || coilMissing s set })

/-- Class of a hail slot or reply window (R116). -/
inductive SlotClass where
  | empty | decoded | collided
  deriving DecidableEq, Repr

/-- A hail slot as classed: its class, alias, and the enrolled tokens that match. -/
structure HailSlot where
  k : Nat
  cls : SlotClass
  alias_ : Byte
  cands : List (Fin 160)
  /-- an enrolled token matched, among those too whose passive path is ignored -/
  known : Bool
  deriving DecidableEq, Repr

/-- HAIL_SLOT_CLASS (R116): record `k` of eight bytes; more than four candidates count as COLLIDED (R118).
DEDUCED, log 61. -/
def hailSlot (s : State) (rec : Bytes) (k : Nat) : HailSlot :=
  let b := slice rec (8 * k) 8
  let code := byteAt b 0 % 4
  let cls : SlotClass := if code = 0 then .empty else if code = 1 ∧ bitAt (byteAt b 0) 2 then .decoded else .collided
  let al := byteAt b 6
  let all := if cls = .decoded then
      (List.finRange 160).filter fun c => (s.ctxs[c]).valid && s.pres.aliases.any fun a =>
        a.1 == c && byteAt a.2 0 % 8 == k && byteAt a.2 1 == al
    else []
  let cs := all.filter fun c => !relayIgnored s c
  { k := k, cls := if 4 < cs.length then .collided else cls, alias_ := byte al
    cands := if 4 < cs.length then [] else cs, known := !all.isEmpty }

/-- Noise: a decoded reply of no enrolled token. DEDUCED, log 61. -/
def isNoise (x : HailSlot) : Bool := x.cls = .decoded && !x.known

/-- Two candidate slots share this slot's alias. -/
def dupAlias (xs : List HailSlot) (x : HailSlot) : Bool :=
  !x.cands.isEmpty && decide (1 < (xs.filter fun y => !y.cands.isEmpty && y.alias_ == x.alias_).length)

/-- The tokens of candidate slots, in slot order. -/
def toksOf (s : State) (xs : List HailSlot) : List TokenRun :=
  xs.flatMap fun x => x.cands.map fun c => { ctx := c, slot := x.k, hailAlias := x.alias_, nH := s.pres.nH }

/-- A tracked token that answered a hail holds the alias of that hail from now on (R109). DEDUCED, log 61. -/
def noteAliases (s : State) (ts : List TokenRun) : State :=
  ts.foldl (fun x t => modTracked x t.ctx fun y => { y with hailAlias := t.hailAlias, nH := t.nH }) s

/-- HAIL_ROUND_RESULT (R117). A lone candidate that is tracked too is challenged openly, as any lone candidate.
DEDUCED, log 61. DESIGN CHOICE, log 185. -/
def hailRound (s : State) (off : Nat) : State :=
  match s.pres.run with
  | none => s
  | some r =>
    if r.stage ≠ .hail ∨ r.hailPlan = none ∨ aliasesIn s r = false then s
    else
      let rec_ := memReadBytes s.cel.win off 64
      let xs := (List.range 8).map (hailSlot s rec_)
      let noise := (xs.filter isNoise).length
      let coll := (xs.filter fun x => x.cls = .collided).length
      let cand := xs.filter fun x => !x.cands.isEmpty
      let pu := s.bg.pu
      let s0 := noteAliases s (toksOf s cand)
      let s1 := modRun { s0 with bg := { s0.bg with pu := { pu with noise := (List.range noise).foldl (fun n _ => satInc n) pu.noise } } }
        fun x => { x with
          hailPlan := none
          candidates := x.candidates ++ (cand.flatMap (·.cands)).filter fun c => !x.candidates.contains c }
      if 6 ≤ coll then
        modRun s1 fun x => { x with jammed := x.jammed + 1, pressWindow := some (now s + 330 * ticksPerMs) }
      else if cand.isEmpty ∧ coll = 0 then nextStep s1
      else if coll = 0 ∧ (cand.any (dupAlias xs)) = false then
        let lone := decide (cand.length = 1) && xs.all fun x => x.cls = .empty || !x.cands.isEmpty
        modRun s1 fun x => { x with round := x.round + 1, stage := .prove, openOk := lone, toks := toksOf s cand }
      else if r.round < 2 then modRun s1 fun x => { x with round := x.round + 1 }
      else
        let keep := cand.filter fun x => !dupAlias xs x
        let dropped := coll + (cand.filter (dupAlias xs)).length
        let s2 := { s1 with bg := { s1.bg with pu := { s1.bg.pu with
          dropped := (List.range dropped).foldl (fun n _ => satInc n) s1.bg.pu.dropped } } }
        if keep.isEmpty then nextStep s2
        else modRun s2 fun x => { x with round := x.round + 1, stage := .prove, toks := toksOf s keep }

/-! ### Prove (R101, R105, R118, R177) -/

/-- Another primary triple that serves a zone and can be driven (R166). -/
def furtherTriple (s : State) (used : List Nat) (zone : Nat) : Bool :=
  (List.range 16).any fun t =>
    tripleListed s t && tripleByte s t 13 == 0xFF && bitAt (tripleByte s t 12) zone && !used.contains t &&
      anyCoil s (tripleChannels s t)

/-- The exchanges that a token's Weigh needs (R25, R27, R182). -/
def weighNeeds (s : State) (r : Run) (t : TokenRun) : Nat :=
  (if t.tracked || !r.deep then 1 else 2) + b2n (s.ctxs[t.ctx]).firstUse + b2n t.further

/-- The challenge on the way to a token. -/
def chalOf (s : State) (c : Fin 160) : Option Challenge :=
  s.pres.run.bind fun r => r.chals.find? fun x => x.cands.contains c

/-- Two tokens that answered in one slot with one alias: one challenge tries them all (R118). -/
def sameSlot (t u : TokenRun) : Bool := !t.tracked && !u.tracked && t.slot == u.slot && t.hailAlias == u.hailAlias

/-- A token's turn: those before it, slots in ascending order or the order of the start path, have begun (R117, R478). -/
def chalTurn (r : Run) (t : TokenRun) : Bool :=
  (r.toks.takeWhile fun u => u.ctx != t.ctx).all fun u => chalBegun r u || sameSlot t u

/-- Whether a challenge carries TRNG offsets (R82): in Deep every one but a token's first, and every one to a tracked
token, one that answered a hail too; in first use the extra exchange and its repeats. DEDUCED, log 196. -/
def chalOffsets (s : State) (r : Run) (t : TokenRun) : Bool :=
  if r.deep then
    t.tracked || t.again || !t.exchanges.isEmpty || decide (0 < t.lost) || s.pres.tracked.any fun x => x.ctx == t.ctx
  else (s.ctxs[t.ctx]).firstUse && !t.further && !t.exchanges.isEmpty

/-- Whether a primary triple suits a challenge (R166): the further exchange runs on another one that serves the placed zone,
the exchanges of first use on the same one. -/
def tripleSuits (s : State) (t : TokenRun) (p : Nat) : Bool :=
  let used := t.exchanges.map fun x => primaryOf s x.triple.val
  if t.further then
    !used.contains p && (match t.placement with
      | some g => bitAt (tripleByte s p 12) g.zone.val
      | none => false)
  else if (s.ctxs[t.ctx]).firstUse then used.all (· == p)
  else true

/-- Whether an open challenge is due: after a round with one lone candidate, its lead no later than 576,000 ticks after the
hail frame's end (R117, R120). -/
def openDue (r : Run) (start : Nat) : Bool :=
  r.openOk && match r.hailEnd with
    | some x => decide (start ≤ x + 576000)
    | none => false

/-- The tokens that a challenge tries: those of a slot with the same alias until one has proved itself. -/
def chalCands (r : Run) (t : TokenRun) : List (Fin 160) :=
  if t.proven.isSome ∨ t.tracked then [t.ctx] else ((r.toks.filter fun x => sameSlot t x && !x.ended).map (·.ctx))

/-- A challenge goes out: SEL in the LF data buffer, the nonce and offsets of the NONCE job used up, what Gules verifies the
replies against. -/
def sendChallenge (s : State) (r : Run) (t : TokenRun) (triple : Fin 16) (frame reply : Fin 128) : State :=
  let cands := sortBy (fun x : Fin 160 => x.val) (chalCands r t)
  let nC := s.gq.nC
  let select := !openDue r (tickOf (entryOf s frame))
  let ch : Challenge :=
    { cands := cands, nC := nC, select := select, triple := triple, frame := frame, reply := reply
      replyEnd := tickOf (entryOf s frame) + (if select then 278400 else 230400) + 177600
      offs := if chalOffsets s r t then s.gq.offs else [] }
  let s1 := cands.foldl (fun x d => modProof x d fun p => { p with chal := some (t.nH, byte (b2n select), nC) }) s
  let s2 := { s1 with
    gq := { s1.gq with nCFresh := false }
    vert := { s1.vert with buf := if select then memWrite s1.vert.buf 0 t.hailAlias else s1.vert.buf } }
  modRun (cands.foldl (fun x d => modTok x d fun y => { y with repeatAt := none, urgent := false }) s2) fun x => { x with
    openOk := false
    degraded := x.degraded || coilMissing s (tripleChannels s (primaryOf s triple.val))
    chals := x.chals ++ [ch]
    plans := x.plans ++ [(frame, reply)] }

/-- A challenge is planned once it is the token's turn, with a fresh N_C, on a triple that suits and the coils that stand for
it, in the form of R105 with the phases of R82: an open one only under R117, else a select challenge with SEL in the LF data
buffer. A triple with no coil left in service ends the run for the token, and the HF linger starts (R80).
DEDUCED, log 59, 73, 179. -/
def planChallenge (s : State) (c : Fin 160) (triple : Fin 16) (frame reply : Fin 128) : State :=
  match s.pres.run, tokOf s c with
  | some r, some t =>
    let p := primaryOf s triple.val
    let due := t.ended = false ∧ r.stage ≠ .hail ∧ r.stage ≠ .grant ∧ lockedOut s .passive = false ∧ (chalOf s c).isNone ∧
      t.exchanges.length < weighNeeds s r t ∧ chalTurn r t
    if ¬due ∨ !tripleListed s triple.val ∨ !tripleSuits s t p then s
    else if anyCoil s (tripleChannels s p) = false then startLinger (endTok s c) (tHfLinger s)
    else
      let e := entryOf s frame
      let offs := chalOffsets s r t
      match plannedFrame s frame reply 1 (r.kind = .start || t.urgent) with
      | none => s
      | some ops =>
        if s.gq.nCFresh ∧ (!offs ∨ s.gq.offs.length = 6) ∧ tripleFor s p = triple.val ∧ t.repeatAt.all (· == tickOf e) ∧
            challengeFrame s ops (!openDue r (tickOf e)) offs p then
          sendChallenge s r t triple frame reply
        else s
  | _, _ => s

def modChal (s : State) (ch ch' : Challenge) : State :=
  modRun s fun r => { r with chals := r.chals.map fun x => if x = ch then ch' else x }

/-- The exchange ran on the primary triple with its own coils (R168). -/
def ownCoils (s : State) (ch : Challenge) : Bool :=
  let cs := tripleChannels s ch.triple.val
  let own (r : LfResult) : Bool :=
    ([r.s0, r.s1, r.s2].zip cs).all fun p => !p.1.valid || p.1.ch.toNat == p.2
  tripleByte s ch.triple.val 13 == 0xFF && own ch.resA && own ch.resB

/-- Prove succeeds for a token (R118): its exchange is kept, the other candidates of the slot were not the answerer. -/
def proveOk (s : State) (ch : Challenge) (c : Fin 160) (sig : Bytes) : State :=
  let s1 := dropChal s ch
  let x : TintExchange :=
    { sig := sig, nC := ch.nC, select := ch.select, triple := ch.triple, ownCoils := ownCoils s ch, offs := ch.offs, resA := ch.resA, resB := ch.resB }
  let s2 := modTok s1 c fun t => { t with proven := some ch.nC, provenAt := now s1, replyEnd := ch.replyEnd, exchanges := t.exchanges ++ [x], macR := none }
  let s3 := (ch.cands.filter fun d => d ≠ c).foldl endTok s2
  modTracked s3 c fun t => { t with
    lastExchange := now s, lost := if s.pres.run.any fun r => r.kind == .tracking then 0 else t.lost }

/-- A failed Prove stage (R118). -/
def proveFail (s : State) (ch : Challenge) : State := passiveFailure (ch.cands.foldl endTok (dropChal s ch))

/-- The candidates tried in roster order (R118): none while one's job is still to end, else the first whose MAC_P verified. -/
def proveFirst (rs : List (Fin 160 × Status)) : List (Fin 160) → Option (Option (Fin 160))
  | [] => some none
  | c :: cs => match rs.find? fun r => r.1 == c with
    | none => none
    | some (_, .ok) => some (some c)
    | some _ => proveFirst rs cs

/-- Every candidate has been tried without success (R118): a failed Prove where a MAC failed and no bit was weak, else a lost
reply; without any judged MAC the exchange is over. -/
def proveNone (s : State) (ch : Challenge) (weak : Nat) : State :=
  if ch.results.all fun r => r.2 != .authFail then dropChal s ch
  else if weak = 0 then proveFail s ch
  else loseReply s ch

/-- An exchange is judged once its reply window has closed with a decoded reply and the jobs that decide it have ended (R118):
FAULT_MISMATCH repeats it. DEDUCED, log 60. -/
def judgeProve (s : State) (ch : Challenge) : State :=
  match ch.answer with
  | none => s
  | some (sig, weak) =>
    if ch.results.any fun r => r.2 = .faultMismatch then loseReply s ch
    else match proveFirst ch.results ch.cands with
      | none => s
      | some (some d) => proveOk s ch d sig
      | some none => proveNone s ch weak

/-- PROVE_OUTCOME (R118): a candidate's verification job has ended, before or after the steward has classed the reply window.
One whose key could not be used is out of the exchange without a count. DEDUCED, log 60. -/
def proveOutcome (s : State) (c : Fin 160) (st : Status) : State :=
  match chalOf s c with
  | none => s
  | some ch =>
    let ch' := { ch with results := ch.results ++ [(c, st)] }
    let s1 := modChal s ch ch'
    judgeProve (if st = .ok ∨ st = .authFail ∨ st = .faultMismatch then s1 else endTok s1 c) ch'

/-- A reply window has closed (R116, R118): a decoded reply keeps SIG, WEAK and the Tint records for its judgement;
any other is a lost reply. -/
def replyWindow (s : State) (c : Fin 160) (off : Nat) (recA recB : Fin 16) : State :=
  match chalOf s c with
  | none => s
  | some ch =>
    let b := memReadBytes s.cel.win off 16
    if byteAt b 0 % 4 = 1 then
      let ch' := { ch with
        answer := some (slice b 6 6, byteAt b 2), resA := s.vert.res[recA], resB := s.vert.res[recB] }
      judgeProve (modChal s ch ch') ch'
    else loseReply s ch

/-! ### Range (R134, R139 to R141, R149) -/

/-- TS, CLASS and flags, and the signed fields of a timestamp record. DEDUCED, log 57. -/
def tsOf (b : Bytes) (i : Nat) : Nat := leAt b (12 * i) 5

def tsFlags (b : Bytes) (i : Nat) : Nat := byteAt b (12 * i + 5)

def tsPdoa (b : Bytes) (i : Nat) : Int := s16 (leAt b (12 * i + 8) 2)

def tsCfo (b : Bytes) (i : Nat) : Int := s16 (leAt b (12 * i + 10) 2)

/-- A timestamp difference modulo 2⁴⁰. -/
def tsDiff (a b : Nat) : Nat := (a + 2 ^ 40 - b) % 2 ^ 40

/-- ToF as a fraction (R140): Single 256·10⁶-ths of half a unit, Double by the DS-TWR quotient. -/
def tofOf (b : Bytes) (double : Bool) : Int × Nat :=
  let t1 := tsOf b 0
  let t4 := tsOf b 1
  let dB1 : Int := beAt b 50 4
  let ra : Int := tsDiff t4 t1
  if double then
    let da : Int := tsDiff (tsOf b 2) t4
    let rb2 : Int := beAt b 54 4
    (ra * rb2 - da * dB1, (ra + da + rb2 + dB1).toNat)
  else (ra * 256000000 - dB1 * (256000000 - tsCfo b 1), 512000000)

/-- FTYPE and SEQ of every PSDU of exchange `e`: the REPORT's, and the RESP's where the entry in force gives it one
(R133, R141). -/
def psdusMatch (s : State) (b : Bytes) (double : Bool) (e : Nat) : Bool :=
  byteAt b 48 == (if double then 0xA4 else 0xA3) && byteAt b 49 == 4 * e + 3 &&
    ((phyNow s).sp = 3 || s.az.resp.take 2 = [0xA1, byte (4 * e + 1)])

/-- A received record fails by its CLASS, or was cut or orphaned (R138, R141). -/
def frameBad (b : Bytes) (i : Nat) : Bool :=
  let f := tsFlags b i
  f % 4 == 0 || f % 4 == 2 || bitAt f 3 || bitAt f 4

/-- The first check of R141 that an exchange fails: 0 CLASS, 1 PSDU, 2 MAC_R, 3 D_B1, 4 CFO, 5 ToF.
DEDUCED, log 57. -/
def exchangeFails (s : State) (b : Bytes) (double : Bool) (e : Nat) (mac : Option Bool) : Option (Fin 6) :=
  let dB1 := beAt b 50 4
  let tof := tofOf b double
  if frameBad b 1 || frameBad b 3 then some 0
  else if tsFlags b 1 % 4 == 3 || tsFlags b 3 % 4 == 3 || !psdusMatch s b double e then some 1
  else if mac ≠ some true then some 2
  else if dB1 < (15360 - 256) * 1664 ∨ (15360 + 256) * 1664 < dB1 then some 3
  else if 12800 < (tsCfo b 1).natAbs then some 4
  else if tof.2 = 0 ∨ tof.1 < -64 * (tof.2 : Int) then some 5
  else none

/-- An exchange overtaken by R138. -/
def exchangeOrphan (b : Bytes) : Bool := bitAt (tsFlags b 1) 3 || bitAt (tsFlags b 3) 3

/-- The range in µm: ToF × 4.69176 mm, 0 for a ToF from −64 to 0 units (R140), to the nearest.
DESIGN CHOICE, log 12. -/
def rangeUm (tof : Int × Nat) : Nat :=
  if tof.1 ≤ 0 then 0 else (tof.1.toNat * 469176 + 50 * tof.2) / (100 * tof.2)

/-- Timebase of an RMARKER timestamp that lies less than 2⁴⁰ units back. -/
def tickOfTs (s : State) (ts : Nat) : Nat :=
  let n := now s * 1664
  (n - tsDiff (n % 2 ^ 40) ts) / 1664

/-- The transmit port in place of a configured one: itself, or its first substitute in service (R145). -/
def txFor (s : State) (p : Fin 6) : Option (Fin 6) :=
  if portIn s p then some p
  else ((uwbPortSubs s p.val).map fun q => (Fin.ofNat 6 q)).find? (portIn s)

/-- A configured pair with both ports in service. -/
def pairIn (s : State) (i : Nat) : Bool :=
  (uwbPairs s).any fun q => q.1 == i && bitAt s.az.svc.toNat q.2.1 && bitAt s.az.svc.toNat q.2.2

/-- The pair in place of a configured one: itself, or its first substitute in service (R145). -/
def pairSub (s : State) (p : Fin 6) : Option (Fin 6) :=
  ([p.val, byteAt (uwbPair s p.val) 10, byteAt (uwbPair s p.val) 11].filter fun i => decide (i < 6) && pairIn s i).head?.map (Fin.ofNat 6)

/-- The pair that measures an angle; none: reception on a single chain, with no pair left or a chain out of service (R143,
R145). -/
def pairFor (s : State) (p : Fin 6) : Option (Fin 6) := if s.az.chainA && s.az.chainB then pairSub s p else none

/-- A substitution of R145 in an exchange: a transmit port or a pair that is replaced, or that has none in its place.
DEDUCED, log 70. -/
def substituted (s : State) (tx : Fin 6) (pairs : List (Fin 6)) : Bool :=
  decide (txFor s tx ≠ some tx) || pairs.any fun p => decide (pairSub s p ≠ some p)

/-- The angle of a received record: none while NLOS, and none with chain B off (R142). -/
def angleOf (s : State) (b : Bytes) (p : Option (Fin 6)) (i : Nat) : List (Fin 6 × Int) :=
  match p.bind (pairFor s) with
  | some q => if bitAt (tsFlags b i) 5 || !bitAt s.az.recB.toNat i then [] else [(q, tsPdoa b i)]
  | none => []

/-- An invalid exchange counted by its first failing check (R141). -/
def countInvalid (s : State) (k : Fin 6) : State := { s with az := { s.az with nInvalid := vmod s.az.nInvalid k satInc } }

/-- RANGE_COMPUTE (R137, R140, R141, R145, R156): a valid exchange gives the range; the first invalid one is repeated, unless its
key was orphaned; after the second, and without a transmit port in service, Place proceeds without. `tx` and the pairs
are the configured ones, for which the steward puts substitutes. DEDUCED, log 57, 58. -/
def rangeWork (s : State) (c : Fin 160) (st : Status) (off : Nat) (tx : Fin 6) (pResp pReport : Option (Fin 6)) : State :=
  match s.pres.run, tokOf s c with
  | some r, some t =>
    if (rangeNext r).map (·.ctx) ≠ some c then s
    else
      let b := memReadBytes s.cel.win off 64
      let double := rangesDouble s r t
      let e := (t.poll.map (·.2)).getD 0
      let subst := substituted s tx (pResp.toList ++ pReport.toList)
      let s1 := modRun s fun x => { x with stage := .range }
      let leave (u : State) : State := clearSts (modRun u fun x => { x with rangeStart := none, rangeDenied := false, rangeAlt := none }) c
      let fails := if st = .ok then exchangeFails s b double e t.macR else some 0
      match txFor s tx, fails with
      | some p, none =>
        let rr : RangeResult :=
          { valid := true, um := rangeUm (tofOf b double), nlos := bitAt (tsFlags b 1) 5, pollTick := tickOfTs s (tsOf b 0)
            txPort := p, ch9 := (phyNow s).chan == 1, angles := angleOf s b pResp 1 ++ angleOf s b pReport 3, subst := subst }
        leave (modTok { s1 with az := { s1.az with nValid := satInc s1.az.nValid } } c fun x => { x with range := some rr })
      | p, _ =>
        let none_ : RangeResult :=
          { valid := false, um := 0, nlos := false, pollTick := (t.poll.map (·.1)).getD 0, txPort := tx, ch9 := true, angles := [], subst := subst }
        let last := p.isNone || decide (1 ≤ t.invalidRanges) || (st = .ok && exchangeOrphan b) || st = .keyOrphaned
        let s2 := modTok (if p.isNone then s1 else countInvalid s1 (fails.getD 0)) c fun x => { x with
          invalidRanges := x.invalidRanges + 1, macR := none, range := if last then some none_ else none }
        let s3 := if last then leave s2 else s2
        if last && st = .coexDenied then evtCoex s3 1 3 else s3
  | _, _ => s

/-! ### Place (R142, R151 to R155) -/

/-- |s| ≤ 0.9 for an angle term s = (PDOA ⁄ 65,536) × λ ⁄ b (R142), in whole numbers. -/
def angleKept (s : State) (ch9 : Bool) (pair : Nat) (pdoa : Int) : Bool :=
  let f := if ch9 then 7987200000 else 6489600000
  let b := leAt (uwbPair s pair) 8 2
  decide (0 < b) && decide (pdoa.natAbs * 299792458 * 100000 ≤ 9 * 65536 * f * b)

/-- The driven slots of a Tint record (R163). -/
def tintDrive (r : LfResult) : List (Nat × Nat × Nat) :=
  ([r.s0, r.s1, r.s2].filter fun x => x.valid).map fun x => (x.ch.toNat, x.iMeas.toNat, x.ph.toNat)

/-- Tint A or B of an exchange, with the TRI_ADJ of its primary triple. -/
def tintOf (s : State) (x : TintExchange) (b : Bool) : Config.Tint :=
  let p := primaryOf s x.triple.val
  { drive := tintDrive (if b then x.resB else x.resA)
    adj := vgetN (if b then s.pres.cal.triB else s.pres.cal.triA) p 0
    axes := (slice x.sig (if b then 3 else 0) 3).map (·.toNat) }

/-- An axis byte that measured. -/
def axisOk (n : Nat) : Bool := n != 0 && n != 255

/-- A plane of the zone map: normal and D. -/
def planeOf (m : Bytes) (base i : Nat) : Int × Int × Int × Int :=
  let at_ (k : Nat) : Int := s16 (leAt m (base + 4 + 8 * i + 2 * k) 2)
  (at_ 0, at_ 1, at_ 2, at_ 3)

/-- Depth of p (µm) inside a plane, times the normal's length: 16,384 × D − n · p. -/
def planeDepth (p : Int × Int × Int) (q : Int × Int × Int × Int) : Int :=
  16384 * q.2.2.2 * 1000 - (q.1 * p.1 + q.2.1 * p.2.1 + q.2.2.1 * p.2.2)

def volumePlanes (m : Bytes) (z v : Nat) : List (Int × Int × Int × Int) :=
  let base := 8 + 68 * (4 * (z - 1) + v)
  (List.range (byteAt m base)).map (planeOf m base)

/-- The used volumes of zone z that contain p. -/
def volumesAt (m : Bytes) (z : Nat) (p : Int × Int × Int) : List (List (Int × Int × Int × Int)) :=
  ((List.range 4).map (volumePlanes m z)).filter fun v => !v.isEmpty && v.all fun q => decide (0 ≤ planeDepth p q)

/-- p lies at least σ (µm) inside every plane of a volume. -/
def deepIn (p : Int × Int × Int) (sigma : Nat) (v : List (Int × Int × Int × Int)) : Bool :=
  v.all fun q =>
    let d := planeDepth p q
    decide (0 ≤ d) && decide ((q.1 * q.1 + q.2.1 * q.2.1 + q.2.2.1 * q.2.2.1) * (sigma * sigma : Nat) ≤ d * d)

/-- ZONE_ASSIGN (R154): the first zone in PRECEDENCE with a volume that contains p, and ZONE_CONF. -/
def zoneAssign (m : Bytes) (p : Int × Int × Int) (sigma : Nat) : Fin 8 × Bool :=
  let order := (List.range 8).map fun i => leAt m 2 4 / 16 ^ i % 16
  if 400000 < sigma then (0, false)
  else match order.find? fun z => z != 0 && decide (z < 8) && !(volumesAt m z p).isEmpty with
    | some z => (Fin.ofNat 8 z, (volumesAt m z p).any (deepIn p sigma))
    | none => (0, false)

/-- µm to whole millimetres, nearest. DESIGN CHOICE, log 12. -/
def mmOf (x : Int) : Int := (x + 500) / 1000

/-- The placement of a token from its range, kept angles and latest Tints (R153 to R155). DEDUCED, log 59. -/
def placementFor (s : State) (r : Run) (x : TintExchange) (g : RangeResult) : Placement :=
  let kept := g.angles.filter fun a => angleKept s g.ch9 a.1.val a.2
  let tints := ([tintOf s x false, tintOf s x true]).filter fun t => t.axes.any axisOk
  if !g.valid && kept.isEmpty && tints.isEmpty then { pollTick := g.pollTick, degraded := r.degraded || g.subst }
  else
    let sol := placeSolve
      { txPort := g.txPort.val, range := if g.valid then some (g.um, if g.nlos then 150 else 50) else none
        channel := if g.ch9 then 9 else 5, angles := kept.map fun a => (a.1.val, a.2), tints := tints
        zoneMap := secOf s 6, fieldMap := secOf s 3, ports := secOf s 5
        gain := s.pres.cal.gain.toList, phAdj := s.pres.cal.phAdj.toList }
    let p := sol.1
    let z := zoneAssign (secOf s 6) p sol.2.1
    { pos := some { x := mmOf p.1, y := mmOf p.2.1, z := mmOf p.2.2 }, um := p, sigma := (sol.2.1 + 500) / 1000
      range := if g.valid then (g.um + 500) / 1000 else 0xFFFF, zone := z.1, zoneConf := z.2, noRange := !g.valid
      angles := kept.length, nlos := g.nlos, degraded := r.degraded || g.subst, inconsistent := decide (16000 < sol.2.2)
      pollTick := g.pollTick }

/-- PLACE (R153). -/
def placeWork (s : State) (c : Fin 160) : State :=
  match s.pres.run, tokOf s c with
  | some r, some t =>
    match t.exchanges.getLast?, t.range with
    | some x, some g =>
      if t.ended then s
      else modTok (modRun s fun y => { y with stage := .place }) c fun y => { y with placement := some (placementFor s r x g) }
    | _, _ => s
  | _, _ => s

/-! ### Weigh (R160 to R168) -/

/-- The axes of K: measured in both Tints (R164). -/
def axesK (sig : Bytes) : List Nat := (List.range 3).filter fun k => axisOk (byteAt sig k) && axisOk (byteAt sig (3 + k))

/-- Level of a signature byte, 0.001 dBµA/m (R107). -/
def levelOf (v : Nat) : Int := 20000 + 500 * v

/-- Spread of a list of numbers: greatest less least. -/
def spread (l : List Int) : Int :=
  match l with
  | [] => 0
  | x :: xs => xs.foldl (fun a y => if a < y then y else a) x - xs.foldl (fun a y => if y < a then y else a) x

/-- Measured contrast C: the spread of δ over K, 0.001 dB (R164). -/
def contrast (sig : Bytes) : Int :=
  spread ((axesK sig).map fun k => levelOf (byteAt sig (3 + k)) - levelOf (byteAt sig k))

/-- Predicted contrast Ĉ. -/
def contrastHat (sig : Bytes) (levels : List Int) : Int :=
  spread ((axesK sig).map fun k => levels.getD (3 + k) 0 - levels.getD k 0)

/-- Differences measured less predicted over K in a Tint. -/
def residuals (sig : Bytes) (levels : List Int) (b : Bool) : List Int :=
  (axesK sig).map fun k =>
    let i := if b then 3 + k else k
    levelOf (byteAt sig i) - levels.getD i 0

/-- A parameter of the field map in 0.001 dB: C_RELAY 6, C_MIN 7, C_TOL 8, RHO_PALE 9, RHO_DEEP 10 (R160). -/
def mapParam (s : State) (i : Nat) : Int := 500 * (byteAt (secOf s 3) i : Nat)

/-- The verdict of one exchange (R165): the first matching row. -/
def exchangeVerdict (s : State) (deep : Bool) (p : Placement) (x : TintExchange) : WeighVerdict :=
  let c := contrast x.sig
  let ch := contrastHat x.sig x.levels
  let ds := residuals x.sig x.levels false ++ residuals x.sig x.levels true
  let lim := mapParam s (if deep then 10 else 9)
  let excess (b : Bool) : Int :=
    tintMagnitude (tintOf s x b).axes -
      tintField (secOf s 3) s.pres.cal.gain.toList s.pres.cal.phAdj.toList (tintOf s x b) p.um - x.fitO
  if (axesK x.sig).length < 2 ∨ p.noRange ∨ p.zone = 0 then .noFix
  else if p.inconsistent ∧ (6000 < excess false ∨ 6000 < excess true) then .relay
  else if mapParam s 7 ≤ ch ∧ c < mapParam s 6 then .relay
  else if (ds.length : Int) * lim * lim < (ds.map fun d => d * d).sum ∨ mapParam s 8 < ((c - ch).natAbs : Int) ∨ p.inconsistent then .mismatch
  else if ch < mapParam s 7 then .inconclusive
  else .consistent

/-- An exchange with its fit and verdict (R164, R165): in first use o is fitted. -/
def weighExchange (s : State) (c : Fin 160) (deep : Bool) (p : Placement) (x : TintExchange) : TintExchange :=
  let ctx := s.ctxs[c]
  let fit := signatureFit
    { fieldMap := secOf s 3, gain := s.pres.cal.gain.toList, phAdj := s.pres.cal.phAdj.toList, tintA := tintOf s x false
      tintB := tintOf s x true, p := p.um, axes := axesK x.sig, first := ctx.firstUse, offset := ctx.offset }
  let y := { x with levels := fit.1, fitO := if ctx.firstUse then fit.2 else ctx.offset }
  { y with verdict := some (exchangeVerdict s deep p y) }

/-- Precedence of verdicts (R166). -/
def weighRank : WeighVerdict → Nat
  | .relay => 4 | .mismatch => 3 | .noFix => 2 | .inconclusive => 1 | .consistent => 0

/-- The verdicts of a Weigh's exchanges combined (R166). -/
def combine (l : List WeighVerdict) : WeighVerdict :=
  l.foldl (fun a v => if weighRank a < weighRank v then v else a) .consistent

/-- The verdict of a Weigh: a further exchange replaces INCONCLUSIVE; in first use every exchange must be CONSISTENT and the fitted
offsets may differ by 1.5 dB (R166). -/
def weighVerdict (first further : Bool) (xs : List TintExchange) : WeighVerdict :=
  let vs := xs.filterMap (·.verdict)
  let v := if further then vs.getLastD .inconclusive else combine vs
  if !first || v != .consistent then v
  else if vs.any (· != .consistent) then .inconclusive
  else if 1500 < spread (xs.map (·.fitO)) then .mismatch else v

/-- Mean of a list, rounded down. DEDUCED, log 69. -/
def meanInt (l : List Int) : Int := if l.isEmpty then 0 else l.sum / (l.length : Int)

/-- A residual added to a primary triple's accumulator; the 64th moves TRI_ADJ by the rounded mean (R168).
DEDUCED, log 69. -/
def accumulate (s : State) (t : Nat) (b : Bool) (resid : Int) : State :=
  let a := vgetN s.pres.acc t {}
  let sum := (if b then a.sumB else a.sumA) + resid
  let n := (if b then a.nB else a.nA) + 1
  let put (sm : Int) (k : Nat) : Vector TriAcc 16 := vmodN s.pres.acc t fun x =>
    if b then { x with sumB := sm, nB := k } else { x with sumA := sm, nA := k }
  if n < 64 then { s with pres := { s.pres with acc := put sum n } }
  else
    let step (v : Int) : Int := clampInt (-30) 30 (v + roundDiv sum 6400)
    let cal := s.pres.cal
    markDirty { s with pres := { s.pres with
      acc := put 0 0
      cal := if b then { cal with triB := vmodN cal.triB t step } else { cal with triA := vmodN cal.triA t step } } } calField

/-- CALIBRATION_ADJUST (R168) for a token past first use. DEDUCED, log 69. -/
def calibrate (s : State) (c : Fin 160) (p : Placement) (xs : List TintExchange) : State :=
  if p.zoneConf && p.angles == 2 && !p.nlos && !p.degraded then
    let o := (s.ctxs[c]).offset
    let ds := xs.flatMap fun x => residuals x.sig x.levels false ++ residuals x.sig x.levels true
    let rbar := meanInt ds + o
    let o' := clampInt (-4000) 4000 (o + (rbar - o) / 8)
    let n := (s.ctxs[c]).weighed + 1
    let s1 := modCtx s c fun t => { t with offset := o', weighed := n }
    if n < 8 then s1
    else (xs.filter fun x => x.ownCoils).foldl (fun t x =>
      let add (u : State) (b : Bool) : State := accumulate u x.triple.val b (meanInt (residuals x.sig x.levels b) + o - o')
      add (add t false) true) s1
  else s

/-- |p| of `b` exceeds that of `a` by at most 1 mm, from their squares in mm²: √b ≤ √a + 1. -/
def within1mm (a b : Nat) : Bool := decide (b ≤ a + 1) || decide ((b - a - 1) * (b - a - 1) ≤ 4 * a)

/-- The start rule of R171 over candidates with their placements: the smallest |p|; among those within 1 mm of it the smaller
σ_p, then the lower context. DEDUCED, log 68. -/
def startRule (l : List (Fin 160 × Placement)) : Option (Fin 160) :=
  let n (x : Fin 160 × Placement) : Nat := normSq x.2.pos
  match (sortBy n l).head? with
  | none => none
  | some m => ((sortBy (fun x => x.2.sigma * 160 + x.1.val) (l.filter fun x => within1mm (n m) (n x))).head?).map (·.1)

/-- The zone 3 winner among tracked tokens (R169, R171). DEDUCED, log 68. -/
def zone3Winner (l : List Tracked) : Option (Fin 160) :=
  startRule ((l.filter fun t => t.verdict == 0 && t.placement.zone = 3 && t.placement.zoneConf).map fun t => (t.ctx, t.placement))

/-- A token with a CONSISTENT Weigh is tracked; a ninth displaces the one with the oldest last exchange that is not the
zone 3 winner (R169). -/
def trackEnter (s : State) (t : TokenRun) (p : Placement) : State :=
  if s.pres.tracked.any fun x => x.ctx == t.ctx then s
  else
    let s1 := if s.pres.tracked.length < 8 then s
      else
        let w := zone3Winner s.pres.tracked
        match sortBy (fun x : Tracked => x.lastExchange) (s.pres.tracked.filter fun x => some x.ctx != w) with
        | x :: _ => departTracked s x.ctx
        | [] => s
    { s1 with pres := { s1.pres with tracked := s1.pres.tracked ++
      [{ ctx := t.ctx, placement := p, lastExchange := now s, hailAlias := t.hailAlias, nH := t.nH }] } }

/-- A tracked token's new placement; the third tracking placement in a row in zone 7 or zone 0 ends tracking (R170). -/
def trackPlace (s : State) (c : Fin 160) (tracking : Bool) (p : Placement) : State :=
  let s1 := modTracked s c fun t => { t with
    placement := p
    away := if !tracking then t.away else if p.zone = 7 ∨ p.zone = 0 then t.away + 1 else 0 }
  if s1.pres.tracked.any fun t => t.ctx == c && decide (3 ≤ t.away) then departTracked s1 c else s1

/-- What a verdict brings about (R166 to R170). DEDUCED, log 67. -/
def weighed (s : State) (r : Run) (t : TokenRun) (p : Placement) (xs : List TintExchange) (v : WeighVerdict) : State :=
  let c := t.ctx
  let first := (s.ctxs[c]).firstUse
  let code := match v with
    | .consistent => 0 | .inconclusive => 1 | .mismatch => 2 | .relay => 3 | .noFix => 4
  let s1 := modTok s c fun x => { x with exchanges := xs, verdict := some v, further := false }
  let s2 := evtPresence s1 c p code 0 0 0 0
  let pu := s2.bg.pu
  let s3 := { s2 with bg := { s2.bg with pu := match v with
    | .relay => { pu with relay := satInc pu.relay }
    | .mismatch => { pu with wMismatch := satInc pu.wMismatch }
    | .noFix => { pu with noFix := satInc pu.noFix }
    | _ => pu } }
  modTracked (match v with
  | .relay => departTracked (modCtx s3 c fun x => { x with relayUntil := some (now s + 30 * ticksPerSec) }) c
  | .consistent =>
    let s4 := trackPlace (trackEnter s3 t p) c (r.kind = .tracking) p
    if first then modCtx s4 c fun x => { x with firstUse := false, offset := meanInt (xs.map (·.fitO)), weighed := 0 }
    else calibrate s4 c p xs
  | _ => trackPlace s3 c (r.kind = .tracking) p) c fun x => { x with verdict := byte code }

/-- WEIGH (R164 to R167): every exchange that the token owes is in; an INCONCLUSIVE verdict asks once for a further
exchange where another primary triple serves the zone. DEDUCED, log 58. -/
def weighWork (s : State) (c : Fin 160) : State :=
  match s.pres.run, tokOf s c with
  | some r, some t =>
    match t.placement with
    | none => s
    | some p =>
      if t.ended ∨ t.verdict ≠ none ∨ t.exchanges.length < weighNeeds s r t then s
      else
        let xs := t.exchanges.map (weighExchange s c r.deep p)
        let v := weighVerdict (s.ctxs[c]).firstUse t.further xs
        let s1 := modRun s fun x => { x with stage := .weigh }
        if v = .inconclusive ∧ t.further = false ∧
            furtherTriple s (xs.map fun x => primaryOf s x.triple.val) p.zone.val = true then
          modTok s1 c fun x => { x with further := true }
        else weighed s1 r t p xs v
  | _, _ => s

/-! ### Roles and grants (R171, R172, R179) -/

/-- Eligible for a start: CONSISTENT, in zone 3 with ZONE_CONF = 1 (R171). -/
def mayStart (t : TokenRun) : Bool :=
  !t.ended && (match t.placement with
    | some p => t.verdict = some .consistent && p.zone = 3 && p.zoneConf
    | none => false)

/-- The start winner among the tokens of a run (R171). -/
def startWinner (l : List TokenRun) : Option TokenRun :=
  match startRule ((l.filter mayStart).filterMap fun t => t.placement.map fun p => (t.ctx, p)) with
  | none => none
  | some c => l.find? fun t => t.ctx == c

/-- Doors that a token opens: those of the touched handle-table entries whose near zone holds it (R29, R172). -/
def entryDoors (s : State) (touched : BitVec 4) (t : TokenRun) : BitVec 4 :=
  match t.placement with
  | none => 0
  | some p =>
    let policy := bitAt (byteAt (secOf s 3) 11) 0
    if t.ended then 0
    else if t.verdict = some .consistent ∨ (t.verdict = some .inconclusive ∧ policy ∧ p.zoneConf) then
      (handles s).foldl (fun m h =>
        if bitAt touched.toNat h.1 && h.2.zone == p.zone.val then m ||| BitVec.ofNat 4 (2 ^ h.2.door) else m) 0
    else 0

/-- An entry grant of a token, where it has doors. -/
def grantToken (touched : BitVec 4) (s : State) (t : TokenRun) : State :=
  let d := entryDoors s touched t
  match t.placement, t.proven with
  | some p, some nC =>
    if d = 0 then s else submitVerdict s (verdictInput 1 t.ctx.val p.zone.val d.toNat nC.toNat 0)
  | _, _ => s

/-- Whether the vehicle state as the field die last saw it allows a start (R20). -/
def fieldAllows (v : VState) : Bool := v.valid && v.standstill && !v.engineRun

/-- The start grant of a pending request's winner, every exchange of whose Weigh was CONSISTENT (R172, R179).
DEDUCED, log 71. -/
def grantStart (s : State) (w : Option TokenRun) : State :=
  match s.pres.startReq, w with
  | some q, some t =>
    match t.placement, t.proven with
    | some p, some nC =>
      if q.sent || p.noRange || !(t.exchanges.all fun x => x.verdict = some .consistent) then s
      else if !fieldAllows s.bar.vstate then endStartReq s .policyDenied 8
      else
        submitVerdict { s with pres := { s.pres with startReq := some { q with sent := true } } }
          (verdictInput 2 t.ctx.val p.zone.val 0 nC.toNat 0)
    | _, _ => s
  | _, _ => s

/-- DRIVER_ZONE_CHANGE (R171): the occupant differs from the last logged one at three placement rounds in a row that
span at least 10 s. DEDUCED, log 68. -/
def seatRound (s : State) (w : Option TokenRun) : State :=
  let occ := w.map (·.ctx)
  let x := s.pres.seat
  if occ = x.logged then { s with pres := { s.pres with seat := { x with cand := occ, rounds := 0, since := 0 } } }
  else
    let since := if x.rounds = 0 then now s else x.since
    if 2 ≤ x.rounds ∧ since + 10 * ticksPerSec ≤ now s then
      let prev := slotByte x.logged
      let pos := (w.bind (·.placement)).bind (·.pos)
      ledgerAdd { s with pres := { s.pres with seat := { logged := occ, cand := occ } } } 3
        (8 * b2n (match w.bind (·.placement) with
          | some p => p.degraded
          | none => false)) (if occ.isSome then 3 else 0) occ ([prev, 0] ++ posBytes pos)
    else { s with pres := { s.pres with seat := { x with cand := occ, rounds := x.rounds + 1, since := since } } }

/-- ROLE_DECISION (R171, R172): once every token of the round has its verdict. DEDUCED, log 66. -/
def rolesWork (s : State) : State :=
  match s.pres.run with
  | none => s
  | some r =>
    if r.stage = .hail ∨ r.stage = .grant ∨ (r.toks.all fun t => t.ended || t.verdict.isSome) = false then s
    else
      let w := startWinner r.toks
      let placed := r.toks.any fun t => t.placement.isSome
      let s1 := modRun (if placed then seatRound s w else s) fun x => { x with stage := .grant, verdicts := [] }
      let s2 := if passiveRuns s1 then grantStart (r.toks.foldl (grantToken r.touched) s1) w else s1
      match s2.pres.run with
      | some x => if x.verdicts.isEmpty then nextStep s2 else s2
      | none => s2

/-! ### SCHEDULER_EVENT (R38) -/

/-- The work that the steward plans on an event. DESIGN CHOICE, log 56. -/
def stageWork (s : State) : StageWork → State
  | .planHail hailNew frame reply => planHail s hailNew frame reply
  | .planChallenge c triple frame reply => planChallenge s c triple frame reply
  | .hailRound off => hailRound s off.toNat
  | .replyWindow c off recA recB => replyWindow s c off.toNat recA recB
  | .range c st off tx pResp pReport => rangeWork s c st off.toNat tx pResp pReport
  | .place c => placeWork s c
  | .weigh c => weighWork s c
  | .roles => rolesWork s
  | .other => s

/-- SCHEDULER_EVENT (R38, R452): the oldest posted event is taken; without one nothing happens.
DESIGN CHOICE, log 56. -/
def doSchedulerEvent (work : StageWork) (s : State) : State :=
  match s.pres.schedEvents with
  | [] => s
  | _ :: es => passEnd (followUp (settle (stageWork { s with pres := { s.pres with schedEvents := es } } work)))

/-! ### Completed jobs that the pipeline waits for (R118, R141, R354) -/

/-- A VERDICT job of the steward has ended: its tag is freed; after the last of a run Grant is over (R29).
DEDUCED, log 66. -/
def verdictEnded (s : State) (t : Fin 48) (grant : Nat) (st : Status) : State :=
  let s1 := hfVerdictEnded (doGqFree (BitVec.ofNat 6 t.val) s) t st
  let s2 := if startGrant grant then
      (match st with
        | .ok => s1
        | .epochMismatch => endStartReq s1 .epochMismatch 9
        | _ => { s1 with pres := { s1.pres with startReq := s1.pres.startReq.map fun q => { q with sent := false } } })
    else s1
  match s2.pres.run with
  | some r =>
    if r.verdicts.contains t then
      let left := r.verdicts.filter fun x => x ≠ t
      let s3 := modRun s2 fun x => { x with verdicts := left }
      if left.isEmpty && r.stage = .grant then followUp (endRun s3) else s3
    else s2
  | none => s2

/-- An alias job of the hail has ended: its tag is freed for the next (R103). -/
def aliasEnded (s : State) (t : Fin 48) : State :=
  if (match s.pres.run with
      | some r => r.aliasTags.contains t
      | none => false) then
    aliasQueue (modRun (doGqFree (BitVec.ofNat 6 t.val) s) fun r => { r with aliasTags := r.aliasTags.filter fun x => x ≠ t })
  else s

/-- What the pipeline makes of a completed job: `grant` is byte 0 of the job's input. -/
def pipelineJob (s : State) (t : Fin 48) (j : Job) (grant : Nat) (st : Status) : State :=
  match j.op, auxCtx j.w with
  | .aqmosVerify, some c =>
    if j.w.mode = 0 then followUp (settle (proveOutcome s c st))
    else if j.w.mode = 1 then modTok s c fun x => { x with macR := some (decide (st = .ok)) }
    else s
  | .aqmosAlias, _ => aliasEnded s t
  | .verdict, _ => verdictEnded s t grant st
  | _, _ => s

/-! ### Timers (R167, R169, R174 to R178, R478) -/

/-- Cadence of tracking: 5 s while the host reports the engine running, else 20 s (R169). -/
def trackCadence (s : State) : Nat := (if s.bar.vstate.valid && s.bar.vstate.engineRun then 5 else 20) * ticksPerSec

/-- From when a tracked token's cadence counts: its last exchange, or the tracking exchange lost since. -/
def trackFrom (t : Tracked) : Nat := Nat.max t.lastExchange t.lastTry

/-- TRACKING_TIMER (R169): in Chalk, outside a run, the tokens whose re-challenge is due form a tracking round. -/
def doTrackingTimer (s : State) : State :=
  match sortBy trackFrom s.pres.tracked with
  | [] => s
  | t :: _ =>
    let s1 := elapseTo s (trackFrom t + trackCadence s)
    if s1.pwr.pstate ≠ .chalk ∨ s1.pres.run.isSome ∨ passiveRuns s1 = false then s1
    else
      let due := s1.pres.tracked.filter fun x => decide (trackFrom x + trackCadence s1 ≤ now s1)
      passEnd (beginRun s1 (trackedRun s1 .tracking 0 0 false due))

/-- START_PATH_RETRY (R478): every 2 s while the request stays pending. DEDUCED, log 71. -/
def doStartPathRetry (s : State) : State :=
  match s.pres.startReq with
  | none => s
  | some q =>
    if q.sent then s else passEnd (startPath (elapseTo s (q.lastTry + 2 * ticksPerSec)))

/-- START_REQUEST_EXPIRY (R213, R395, R478): 15 s without an eligible token.
DEDUCED, log 71. DESIGN CHOICE, log 192. -/
def doStartRequestExpiry (s : State) : State :=
  match s.pres.startReq with
  | none => s
  | some q =>
    if q.sent then s
    else
      let s1 := endStartReq (elapseTo s (q.since + 15 * ticksPerSec)) .policyDenied 2
      passEnd (match s1.pres.run with
        | some r => if r.kind = .start then followUp (endRun s1) else s1
        | none => s1)

/-- ENTRY_SESSION_TIMEOUT (R174): a door that opens in the deadline's own tick goes before it (R183).
DEDUCED, log 183. -/
def doEntrySessionTimeout (s : State) : State :=
  match s.pres.entry with
  | none => s
  | some e => passEnd (endEntry (elapseTo s (e.deadline + 1)) 2 1)

/-- START_SESSION_TIMEOUT (R175): PERMIT_STOP goes to Argent, the session ends with reason TIMEOUT; an engine report of the
deadline's own tick goes before it (R183). DEDUCED, log 183. -/
def doStartSessionTimeout (s : State) : State :=
  match s.pres.start with
  | none => s
  | some t => passEnd (stopStart (elapseTo s (t.deadline + 1)) 2 2)

/-- FAILURE_AGE_OUT (R176, R212, R238): the oldest listed failure has become too old. DEDUCED, log 72. -/
def doFailureAgeOut (path : LockPath) (s : State) : State :=
  match (lockOf s path).fails with
  | [] => s
  | f :: _ =>
    let s1 := elapseToRtc s (f + lockWindow path + 1)
    passEnd (setLock s1 path { (lockOf s1 path) with fails := freshFails s1 path })

/-- LOCKOUT_EXPIRY (R177): the stored end is written as 0 before EVT_LOCKOUT. -/
def doLockoutExpiry (path : LockPath) (s : State) : State :=
  if lockedOut s path then passEnd (endLockout (elapseToRtc s (lockOf s path).endAt) path) else s

/-- RELAY_IGNORE_EXPIRY (R167). -/
def doRelayIgnoreExpiry (ctx : Fin 160) (s : State) : State :=
  match (s.ctxs[ctx]).relayUntil with
  | none => s
  | some t => passEnd (modCtx (elapseTo s t) ctx fun x => { x with relayUntil := none })

/-! ### The commands of this file -/

/-- SCHEDULER_EVENT (R38). -/
def execSchedulerEvent (work : StageWork) (s : State) : Host.Outcome State Fault Refusal :=
  done s (doSchedulerEvent work s)

/-- TRACKING_TIMER (R169). -/
def execTrackingTimer (s : State) : Host.Outcome State Fault Refusal :=
  done s (doTrackingTimer s)

/-- START_PATH_RETRY (R478). -/
def execStartPathRetry (s : State) : Host.Outcome State Fault Refusal :=
  done s (doStartPathRetry s)

/-- START_REQUEST_EXPIRY (R213). -/
def execStartRequestExpiry (s : State) : Host.Outcome State Fault Refusal :=
  done s (doStartRequestExpiry s)

/-- ENTRY_SESSION_TIMEOUT (R174). -/
def execEntrySessionTimeout (s : State) : Host.Outcome State Fault Refusal :=
  done s (doEntrySessionTimeout s)

/-- START_SESSION_TIMEOUT (R175). -/
def execStartSessionTimeout (s : State) : Host.Outcome State Fault Refusal :=
  done s (doStartSessionTimeout s)

/-- FAILURE_AGE_OUT (R176). -/
def execFailureAgeOut (path : LockPath) (s : State) : Host.Outcome State Fault Refusal :=
  done s (doFailureAgeOut path s)

/-- LOCKOUT_EXPIRY (R177). -/
def execLockoutExpiry (path : LockPath) (s : State) : Host.Outcome State Fault Refusal :=
  done s (doLockoutExpiry path s)

/-- RELAY_IGNORE_EXPIRY (R167). -/
def execRelayIgnoreExpiry (ctx : Fin 160) (s : State) : Host.Outcome State Fault Refusal :=
  done s (doRelayIgnoreExpiry ctx s)

end Sys2Proof.Machine
end

