-- ==== Sys2Proof/Machine/PowerOps.lean ====
section
/-! DEFINITION. Leaving and entering power states, the link's going down, the XO fallback, the telemetry fold, and
zeroisation: operations that many rows of the power, start-up and life-cycle chapters share (R259, R350, R402 to R406,
R413 to R427, R448). -/

namespace Sys2Proof.Machine

open Sys2Proof

/-! ### The link goes down (R199, R350) -/

/-- COEX pins of the host side low (R199). -/
def coexPinsLow (s : State) : State :=
  { s with tn := { s.tn with coex := s.tn.coex.map fun c => { c with reqPin := false, priPin := false } } }

/-- The link is DOWN; HST_STATUS.FPSTATE reads 3, COEX pins are low, and the reads that Argent holds are discarded, which
clears nothing in the field die (R199, R370, R379). DESIGN CHOICE, log 107. -/
def linkDownCore (s : State) (slept : Bool) : State :=
  let s1 := { s with
    bar := { s.bar with link := .down, slept := slept, retrain := false, trainSince := s.clock, rcd := [] }
    host := { s.host with fpstate := 3, bridge := [] } }
  let s2 := coexPinsLow s1
  if s.bar.link = .up then irqSet s2 1 else s2

/-- Whether both dies take part in the link: Chalk, from S13 on or in the service-lock of an earlier step (R350, R436). -/
def linkPowered (s : State) : Bool := s.pwr.pstate = .chalk && (decide (13 ≤ s.boot.step) || s.boot.locked) && !s.clk.hostHeld

/-! ### The telemetry fold (R448) -/

/-- The 76 counters in group and offset order (R449). DEDUCED, log 128. -/
def telemCounters (s : State) : List Nat := (List.range 7).flatMap (groupCounters s)

/-- One total after a fold that reads counter `c`: a counter that reads lower has been reset by a cold start; a
saturated counter adds nothing. DEDUCED, log 128. -/
def foldTotal (t : TelemTotal) (c : Nat) : TelemTotal :=
  let sat := c == 0xFFFFFFFF
  let inc := if c < t.base then c else c - t.base
  { total := t.total + BitVec.ofNat 64 inc, sat := t.sat || sat, base := c }

/-- A capture of bank S that is under way completes at its T_S (R59). -/
def snapEnds (s0 : State) : State :=
  if s0.cel.snapS.busy then
    let s := elapseTo s0 s0.cel.snapS.pendTs
    let b := s.cel.snapS
    { s with cel := { s.cel with snapS := { b with
        busy := false, pend := 0, seq := b.seq + 1, ts := b.pendTs, tb := if bitAt b.pend.toNat 0 then b.pendTs else b.tb
        cap := Vector.ofFn fun g => if bitAt b.pend.toNat g.val then groupCounters s g.val else b.cap[g] } } }
  else s0

/-- TELEMETRY_FOLD's effect: a trigger of bank S, once a capture under way is complete, captures every group 16 ticks later, the
totals rise, TELEM is committed (R59, R448). DEDUCED, log 128. -/
def telemFold (s0 : State) : State :=
  let sT := snapEnds s0
  let s := elapseTo sT (now sT + tSnap)
  let b := s.cel.snapS
  let cs := telemCounters s
  let chalk := s.bg.pu.chalkTicks / ticksPerSec
  let base75 := (vgetN s.orr.telem.totals 75 {}).base
  let s1 := { s with
    cel := { s.cel with snapS := { b with
      busy := false, pend := 0, seq := b.seq + 1, ts := now s, tb := now s
      cap := Vector.ofFn fun g => groupCounters s g.val } }
    orr := { s.orr with telem := { s.orr.telem with
      totals := Vector.ofFn fun k => foldTotal s.orr.telem.totals[k] (cs.getD k.val 0)
      foldS := s.rtc.secs
      chalkS := s.orr.telem.chalkS + (if chalk < base75 then chalk else chalk - base75) } }
    bg := { s.bg with times := { s.bg.times with fold := chalkNow s } } }
  commitPart s1 telemPages

/-! ### Zeroisation (R259) -/

/-- R259 in its order: CANCEL_ALL, the STS key port with the exchange's records discarded (R156), the key store SRAM with the engines' working shares and every job
buffer; jobs complete with TAMPERED. The KDF datapath holds nothing between derivations. Every staging area is zeroed
(R391), and the field epoch becomes 0 with Gules's reset (R250, R352). -/
def tamperZeroise (s : State) : State :=
  let s1 := cancelAll s .tampered true
  let s2 := zeroiseSts { s1 with az := { s1.az with tsbuf := [], resp := [], recsUsed := 0 } }
  let s3 := gulesAbort s2 .tampered
  let s4 := zeroiseStore (gulesReset s3)
  let s5 := tagTamper (if s4.tn.utx.phase = .idle then s4 else utxEnd s4 .tampered)
  { s5 with cmds := { s5.cmds with area0 := {}, area1 := {}, area2 := {} } }

/-! ### The boot record (R299, R300, R438) -/

/-- The boot record as its page reads: zeros without a valid copy (R299). DESIGN CHOICE, log 129. -/
def bootLoad (b : Boot) : BootRecord := bootOf (match currentCopy b.page with
  | some c => c.data
  | none => zeros 256)

/-- The page of the boot record after a commit with `k` failed read-backs (R300 steps 2 to 6). -/
def bootPut (g : NvPage) (data : Bytes) (k : Nat) : NvPage :=
  if k < 2 then
    let b := targetBank g
    setCopy (nvCommit g data 0) (!b) {}
  else { nvProgram g data 0 with worn := true }

/-- A changed boot record is committed under the page rule, and whether that took place; the boot sector has no store code and
no counters of its own (R299, R300, R438). DESIGN CHOICE, log 129. -/
def bootTry (s : State) (r : BootRecord) : State × Bool :=
  let d := bootBytes r
  if (currentCopy s.boot.page).any fun c => c.data == d then ({ s with boot := { s.boot with record := r } }, true)
  else
    let k := mismatches s.orr.tries 2
    ({ s with
      orr := { s.orr with tries := s.orr.tries + k + 1 }
      boot := { s.boot with record := r, page := bootPut s.boot.page d k } }, decide (k < 2))

def bootCommit (s : State) (r : BootRecord) : State := (bootTry s r).1

/-! ### What survives without the field die (R413, R426) -/

/-- A staging area without power: UNVERIFIED stays (R275). -/
def areaOff (x : StageArea) : StageArea := { unverified := x.unverified }

/-- A key slot without power: its generation and NV record. DEDUCED, log 78. -/
def slotOff (k : KeySlot) : KeySlot := { gen := genStored k, genA := k.genA, genB := k.genB, nv := k.nv }

/-- The nonce records that both copies of the generation table hold: those of slots without EXPIRE_RESET; a counter goes
on at NEXT (R277, R278). -/
def nvNonces (s : State) : List NonceRec :=
  (s.gq.nonces.filter fun r => !(slotAt s r.slot).expireReset).map fun r => { r with ctr := r.next }

/-- The record store without power: NV only. -/
def storeOff (o : Store) : Store :=
  { pages := vmap o.pages fun g => { nv := g.nv }
    ringCtr := o.ringCtr, ringSec := o.ringSec, journal := o.journal
    lw := o.lw, lwStatus := o.lwStatus, tries := o.tries }

/-- A loss of all supply may cut a lazy commit that runs: the target copy of the page dirty longest stays without its COMMIT
(R300, R301). DESIGN CHOICE, log 195. -/
def cutCommit (s : State) : State :=
  match oldestDirty s with
  | none => s
  | some p =>
    let (n, s1) := drawNat s 2
    if s.pwr.pstate = .chalk ∧ n = 1 then
      { s1 with orr := { s1.orr with pages := vmod s1.orr.pages p fun g => { g with nv := nvProgram g.nv (pageImage s p) 0 } } }
    else s1

/-- A touch channel stopped: its configuration stays in Sable, its baseline is taken anew (R417). -/
def touchOff (c : TouchChannel) : TouchChannel := { en := c.en, thr := c.thr, confirm := c.confirm, stuck := c.stuck }

/-- WRITE frames that Argent still holds for a field die that has not taken them: they go once the link is up again
(R343, R365). DESIGN CHOICE, log 107. -/
def heldWrites (b : Barrier) : List BulkFrame := b.bulkToField.frames.filter fun f => !f.taken && f.type = .write

/-- The lane to the field die with those frames, its credits full again. -/
def heldLane (b : Barrier) : BulkLane :=
  { frames := heldWrites b, seq := b.bulkToField.seq, creditP := 32, creditN := 8 }

/-- STAGE_BUSY stands while a frame of the staged command is not acknowledged (R368). -/
def stagedHeld (b : Barrier) : Nat := ((heldWrites b).filter stageFrame).length

/-- The field die loses every domain but Sable and the tag (R413, R414): entry into Jet, or a loss of all supply. What
remains is NV, OTP, Sable, the tag domain and the host die. -/
def fieldOff (s0 : State) : State :=
  let s := linkDownCore s0 false
  { s with
    cel := {}, seqs := {}, vert := { vlfUv := s.vert.vlfUv }, tn := {}, ctxs := Vector.replicate 160 {}
    az := {}, pres := {}, hf := {}, creds := {}, gq := { nonces := nvNonces s }, ev := {}, bg := {}
    cmds := { area0 := areaOff s.cmds.area0, area1 := areaOff s.cmds.area1, area2 := areaOff s.cmds.area2 }
    tag := { s.tag with steward := s.tag.steward.filter fun a => a.shadowed && a.cmd.isNone }
    keys := { s.keys with
      debug := false, depot := false, unmasked := false, rosterEpoch := 0, rosterCount := 0, hfMask := []
      slots := vmap s.keys.slots slotOff }
    rtc := { s.rtc with windows := 0 }
    tamper := { s.tamper with ePending := false }
    ledger := { ring := s.ledger.ring, nextIndex := s.ledger.nextIndex, chain := s.ledger.chain }
    orr := storeOff s.orr
    bar := { s.bar with
      fieldEnd := {}, toHost := {}, toField := {}, bulkToHost := { creditP := 64 }
      bulkToField := heldLane s.bar, rcd := [], heldEntry := [], awaiting := [], vstate := {}
      anomaly := false, wakeFrom := none, wakes := 0 }
    host := { s.host with stageLeft := stagedHeld s.bar }
    clk := { rc32Ok := s.clk.rc32Ok, attempt := s.clk.attempt, attempts := s.clk.attempts, recs := s.clk.recs
             hostHeld := s.clk.hostHeld, winRtc := s.clk.winRtc, winHost := s.clk.winHost, hostReady := s.clk.hostReady }
    pwr := { s.pwr with
      rest := .chalk, holdOk := s.pwr.holdOk, refused := false, woken := false, idleSince := 0, idle := false, going := none, entering := none
      touch := vmap s.pwr.touch touchOff }
    boot := {
      count := s.boot.count, jseq := s.boot.jseq, record := s.boot.record, page := s.boot.page, images := s.boot.images
      endorse := s.boot.endorse
      arbDevice := s.boot.arbDevice, lastStep := s.boot.lastStep, wdLatched := s.boot.wdLatched
      brownout := s.boot.brownout, excused := s.boot.excused } }

/-- Jet: only Sable is retained. DEDUCED, log 138. -/
def enterJet (s : State) : State :=
  let s1 := fieldOff s
  { s1 with pwr := { s1.pwr with pstate := .jet } }

/-- A cold start stands before S0: the device leaves Jet, or resets through it (R414); `src` are WAKE_SRC bits. -/
def coldBegin (s : State) (src : Nat) : State :=
  let s1 := fieldOff s
  { s1 with
    pwr := { s1.pwr with pstate := .chalk, cold := true, wakeSrc := s1.pwr.wakeSrc ||| BitVec.ofNat 9 src }
    boot := { s1.boot with startAt := s1.clock, stepAt := s1.clock, hotFails := 0 } }

/-- Sable's supply falls below V_SABLEMIN (R426): it keeps nothing: the RTC, the tamper latch, CLK_ATTEMPT, a pending TAMPER
entry, EN and ENCL_POL of TMP_CFG; LOCK is that of the life-cycle fuses; a service-lock recorded in NV stays.
DEDUCED, log 138. -/
def supplyLost (s : State) : State :=
  let s1 := fieldOff (cutCommit s)
  { s1 with
    pwr := {}
    clk := { winHost := s1.clk.winHost, hostHeld := s1.clk.hostHeld, hostReady := s1.clk.hostReady }
    rtc := { coeff := s1.rtc.coeff }
    tag := { s1.tag with supplied := false }
    keys := { s1.keys with svcLock := s1.keys.svcLock && !s1.tamper.lockLatch }
    tamper := { lock := s1.tamper.lock, live := s1.tamper.live, pin := s1.tamper.pin }
    boot := { s1.boot with wdLatched := false, brownout := none, lastStep := 0 } }

/-! ### Umber and Amber (R413, R415, R417) -/

/-- A resting state as a power state. -/
def pstateOf : RestTarget → PState
  | .chalk => .chalk | .umber => .umber | .amber => .amber | .jet => .jet

/-- Rights under passwords end; failures and blocks stay (R317). -/
def endRights (v : Vector PartRight 8) : Vector PartRight 8 := vmap v fun r => { r with read := false, write := false }

/-- Retention begins: Celeste's clock stops, island clocks stop, the watched set is fixed (R30, R413, R417).
DEDUCED, log 136. -/
def beginRetention (s : State) (p : PState) : State :=
  let s1 := vcalSettle (tbHold s)
  { s1 with
    pwr := { s1.pwr with
      pstate := p, entering := none, going := none, woken := false
      touch := vmap s1.pwr.touch fun c => { c with watched := c.en } }
    clk := { s1.clk with xoRdy := false, rc16Rdy := false, pllcLock := false, plllLock := false, plluLock := false, ready := 0 }
    hf := { s1.hf with field := false, phase := .idle, lpcd := false, conf := none }
    pres := { s1.pres with heldTouch := none }
    tn := { s1.tn with synth := { s1.tn.synth with on := false, locked := false }, rxOn := false, txOn := false, vcal := none, sniffAt := s1.clock }
    az := { s1.az with synthOn := false, locked := false }
    orr := { s1.orr with wbuf := [], rights := endRights s1.orr.rights } }

/-- The entry under way completes, once the link has been put to sleep or is down. DEDUCED, log 136. -/
def completeEntry (s : State) : State :=
  match s.pwr.entering with
  | none => s
  | some .jet => enterJet s
  | some p => beginRetention s p

/-- The link is DOWN; an entry into a resting state that waited for it completes. -/
def linkDown (s : State) (slept : Bool) : State := completeEntry (linkDownCore s slept)

/-- An agreed SLEEP: DOWN with empty lanes and no silence reported (R350). DEDUCED, log 136. -/
def linkSleep (s : State) : State :=
  if s.bar.link = .up then
    let s1 := linkDownCore s true
    completeEntry { s1 with
      bar := { s1.bar with toHost := {}, toField := {}, bulkToHost := { creditP := 64 }, bulkToField := heldLane s1.bar }
      host := { s1.host with stageLeft := stagedHeld s1.bar }
      cmds := { s1.cmds with posted := [] } }
  else s

/-- Or is clean: no dirty page, an empty ledger queue. -/
def orClean (s : State) : Bool :=
  (dirtyPages s).isEmpty && s.ledger.queue.isEmpty && s.ledger.outside.isEmpty

/-- The conditions of R415's first row for a target. DEDUCED, log 139. -/
def mayRest (s : State) (t : RestTarget) : Bool :=
  !launchActive s && orClean s && (t != .amber || (amberEn s && !s.keys.svcLock))

/-- REST_AFTER's code of a resting state (R428, R438). -/
def restCode : RestTarget → Nat
  | .chalk => 0 | .umber => 1 | .amber => 2 | .jet => 3

/-- A resting state by its code (R428). -/
def restOf : Nat → RestTarget
  | 0 => .chalk | 1 => .umber | 2 => .amber | _ => .jet

/-- The power sequencer leaves Chalk for a resting state (R415): the tracked set is cleared, CONTROL SLEEP is sent;
with the link not UP retention begins at once. A pending activation makes the entry a cold start (R440). -/
def leaveChalk (s : State) (t : RestTarget) : State :=
  if s.boot.record.actPend then
    coldBegin (bootCommit s { s.boot.record with restAfter := BitVec.ofNat 2 (restCode t) }) 0
  else
    let s1 := clearTracked s
    let s2 := { s1 with pwr := { s1.pwr with entering := some (pstateOf t), going := none } }
    if s2.bar.link = .up then pump (sendShort s2 true 7 2) else completeEntry s2

/-- The device is in Chalk again from Umber or Amber (R24, R31, R415): the timebase advances, islands are granted ready, the
tag counters are copied, the link trains, and the profiles that waited for this Wake are in force.
DEDUCED, log 64. DESIGN CHOICE, log 127. -/
def wakeChalk (s : State) (src : Nat) : State :=
  let s1 := tbRestart s (if s.clk.fallback then .rc16 else .xo)
  let az := !s1.clk.fallback && bitAt s1.clk.gate.toNat 9
  tagCopyCounters { s1 with
    pwr := { s1.pwr with
      pstate := .chalk, cold := false, woken := true, idleSince := rtcNow s1, idle := true
      wakeSrc := s1.pwr.wakeSrc ||| BitVec.ofNat 9 src
      touch := vmap s1.pwr.touch fun c => { c with watched := false } }
    clk := { s1.clk with
      xoRdy := !s1.clk.fallback, rc16Rdy := true, pllcLock := true, plllLock := true, plluLock := az
      ready := if az then 0x7F else 0x6F }
    pres := { s1.pres with deep := s1.pres.nextDeep, double := s1.pres.nextDouble }
    bar := { s1.bar with slept := false, wakeFrom := none, wakes := 0 } }

/-! ### The XO fallback (R403 to R405) -/

/-- REF is RC16: the fallback of R403. Azure stops, Purpure's divider goes to 13, tracking and a passive start path end,
the tracked set is cleared. -/
def enterFallback (s : State) : State :=
  let s1 := { s with
    clk := { s.clk with
      fallback := true, refRc16 := true, xoRdy := false, winXo := 0, retryAt := s.clock, plluLock := false
      gate := s.clk.gate &&& ~~~(0x300 : BitVec 12), ready := s.clk.ready &&& ~~~(0x10 : BitVec 7)
      divPurpure := 13 }
    cel := if s.cel.tbRun then { s.cel with tbSrc := .rc16 } else s.cel }
  clearTracked (match s1.pres.run with
    | some r => if r.kind = .approach then s1 else endRun s1
    | none => s1)

end Sys2Proof.Machine
end

