-- ==== Sys2Proof/Machine/Startup.lean ====
section
/-! DEFINITION. Start-up: steps S0 to S15, service-lock, the boot journal's records and EVT_BOOT (R402, R430 to R443,
R312, R232, R240, R330). A run of start-up goes as far as its outcome carries it; what it then waits for is a row of its
own. -/

namespace Sys2Proof.Machine

open Sys2Proof

/-! ### Records, EVT_BOOT and service-lock (R435, R436) -/

/-- KIND codes of the journal (R434). -/
def kPass : Nat := 0

def kFail : Nat := 1

def kSkipped : Nat := 2

def kAlternate : Nat := 3

def kLocked : Nat := 4

/-- The 4 step-specific DETAIL bytes of a failed attempt. DEDUCED, log 121. -/
def failDetail (step : Nat) : Bytes := (List.range 4).map (Config.stepDetail step)

/-- A PASS record of the step in progress with the attempt that passed (R433), and the next step.
DEDUCED, log 121. -/
def passStep (s : State) (detail : Bytes) (attempt : Nat := 1) : State :=
  let s1 := journalAdd s s.boot.step kPass 0 attempt detail
  { s1 with boot := { s1.boot with step := s1.boot.step + 1, stepAt := s1.clock } }

/-- FAIL records of attempts 1 to n of a step. DEDUCED, log 121. -/
def failAttempts (s : State) (step : Nat) (n : Nat) : State :=
  (List.range n).foldl (fun t k => journalAdd t step kFail (stepStatus step) (k + 1) (failDetail step)) s

/-- The step in progress takes its alternate after attempt `n` and start-up goes on. DEDUCED, log 121. -/
def takeAlternate (s : State) (n : Nat) : State :=
  let k := s.boot.step
  let s1 := journalAdd s k kAlternate (stepStatus k) n [byte k]
  { s1 with boot := { s1.boot with fallStep := some k, step := k + 1, stepAt := s1.clock } }

/-- The step in progress is skipped. -/
def skipStep (s : State) (n : Nat) : State :=
  let k := s.boot.step
  let s1 := journalAdd s k kSkipped (if n = 0 then 0 else stepStatus k) n (if n = 0 then [] else failDetail k)
  { s1 with boot := { s1.boot with step := k + 1, stepAt := s1.clock } }

/-- EVT_BOOT (R395). DEDUCED, log 121. -/
def evtBoot (s : State) (st : W16) (step outcome : Nat) : State :=
  let body := [byte step, byte outcome, byte (imageCode s.boot.running), byte (b2n (onTrial s.boot))] ++ leBytes 4 s.boot.jseq.toNat
  { s with ev := evtPush s.ev { code := 9, status := st, rtcS := s.rtc.secs, tb := tbField s, body := body } }

/-- Start-up stops in service-lock at the step in progress (R431, R436): a LOCKED record once the journal can take one;
recorded in NV from S6 on, in Sable's latch before. DEDUCED, log 122. -/
def lockStep (s : State) (attempt : Nat) : State :=
  let k := s.boot.step
  let s1 := if 6 ≤ k then journalAdd s k kLocked (stepStatus k) attempt [] else s
  let s2 := { s1 with
    keys := { s1.keys with svcLock := true }
    tamper := { s1.tamper with lockLatch := if s1.keys.svcLock then s1.tamper.lockLatch else decide (k < 6) }
    orr := { s1.orr with wel := false }
    boot := { s1.boot with locked := true } }
  evtBoot s2 (stepStatus k) k 1

/-- A buffered outcome of S0 to S4 (R435). DEDUCED, log 121. -/
def bufferOutcome (s : State) (step kind : Nat) (st : W16) (attempt : Nat) (detail : Bytes) : State :=
  { s with boot := { s.boot with buffered := s.boot.buffered ++ [outcomeNow s step kind st attempt detail] } }

/-- A buffered PASS of the step in progress with the attempt that passed (R433), and the next step.
DEDUCED, log 121. -/
def bufferPass (s : State) (attempt : Nat := 1) : State :=
  let s1 := bufferOutcome s s.boot.step kPass 0 attempt []
  { s1 with boot := { s1.boot with step := s1.boot.step + 1, stepAt := s1.clock } }

/-! ### S0 to S4 (R231, R400, R402) -/

/-- S0: counted at its pass; a failure returns to Jet. -/
def step0 (o : StartOutcome) (s : State) : State :=
  if o.supplyOk then
    bufferPass { s with
      tag := { s.tag with supplied := true }
      boot := { s.boot with count := s.boot.count + 1, startAt := s.clock } }
  else enterJet s

/-- S1: a failure is retried every 100 ms. -/
def step1 (o : StartOutcome) (s : State) : State :=
  let n := (s.boot.buffered.filter fun x => x.step == 1).length
  if s.clk.rc32Ok || o.rc32Ok then bufferPass { s with clk := { s.clk with rc32Ok := true } } (Nat.min 3 (n + 1))
  else bufferOutcome s 1 kFail (stepStatus 1) (Nat.min 3 (n + 1)) (failDetail 1)

/-- S2: both areas torn leave no usable root area; a TRNG failure fails the step (R231, R283). DEDUCED, log 122. -/
def step2 (o : StartOutcome) (s : State) : State :=
  if areaTorn (rootArea s.keys) || !o.trng2 then
    let s1 := bufferOutcome (bufferOutcome s 2 kFail (stepStatus 2) 1 (failDetail 2)) 2 kFail (stepStatus 2) 2 (failDetail 2)
    lockStep (bufferOutcome s1 2 kLocked (stepStatus 2) 3 []) 3
  else bufferPass s

/-- The generation of R231 where no root is committed: RS and M are drawn inside Gules, share B, share A, CHECK and then
ROOT_DONE are programmed. The device receives its identity endorsement, which the boot sector holds from then on (R17, R287). -/
def rootGen (s : State) : State :=
  if !(rootArea s.keys).committed && !areaTorn (rootArea s.keys) && !s.keys.lcRetire then
    let (rs, s1) := drawBytes s 32
    let (m, s2) := drawBytes s1 32
    let a : RootArea := { shareB := m, shareA := xorBytes rs m, check := (Config.sha256 rs).take 4, committed := true }
    let s3 := if areaTorn s2.keys.area0 then { s2 with keys := { s2.keys with area1 := a } }
      else { s2 with keys := { s2.keys with area0 := a } }
    { s3 with boot := { s3.boot with endorse := endorsement s3 } }
  else s

/-- Clocks after S4: every node but PLLU and AZURE is enabled, PLL_C and PLL_L are locked, Celeste counts from 0.
DEDUCED, log 124. -/
def clocksUp (s : State) (rc16 : Bool) : State :=
  { s with
    clk := { s.clk with
      xoRdy := !rc16, rc16Rdy := true, pllcLock := true, plllLock := true, refRc16 := rc16, fallback := rc16, attempt := 0
      gate := 0xCFF, ready := 0x6F
      divPurpure := if rc16 then 13 else 8, curPurpure := if rc16 then 13 else 8 }
    cel := { s.cel with tbRun := true, tbSrc := if rc16 then .rc16 else .xo } }

/-- S3 and S4, judged together: both sources ready pass; otherwise the 20 ms of R402 run. -/
def step3 (o : StartOutcome) (s : State) : State :=
  let s1 := { s with clk := { s.clk with xoRdy := o.xoReady && o.rc16Ready, rc16Rdy := o.rc16Ready } }
  if o.xoReady && o.rc16Ready then rootGen (clocksUp (bufferPass (bufferPass s1)) false)
  else s1

/-- SOURCE_GIVEUP's effect, 20 ms after the sources' start (R402): the XO's alternate, RC16's service-lock, or Jet with a
CLK_ATTEMPT record. -/
def sourceGiveup (o : StartOutcome) (s : State) : State :=
  if o.rc16Ready then
    let s1 := bufferOutcome s 3 kAlternate (stepStatus 3) 1 [3]
    let s2 := { s1 with boot := { s1.boot with step := 4, stepAt := s1.clock, fallStep := some 3 } }
    rootGen (clocksUp (bufferPass s2) true)
  else if o.xoReady then
    let s1 := bufferPass { s with clk := { s.clk with xoRdy := true } }
    lockStep (bufferOutcome s1 4 kLocked (stepStatus 4) 1 []) 1
  else
    let a : ClockAttempt :=
      { xoReady := false, rc16Ready := false, xoOutside := o.xoOutside, rc16Outside := o.rc16Outside
        rtc := BitVec.ofNat 24 (rtcNow s) }
    enterJet { s with clk := { s.clk with
      attempts := vmodN s.clk.attempts (s.clk.attempt % 4) fun _ => a, attempt := s.clk.attempt + 1
      recs := Nat.min 4 (s.clk.attempt + 1) } }

/-! ### S5: the record store (R308, R311, R312, R327 to R329) -/

/-- An uncorrectable group of Or: OR_STATUS.ECC_UE, OR_ECC_ADDR, its count, EVT_STORE and the anomaly bit (R296, R371). -/
def noteUe (s : State) (store a : Nat) : State :=
  let v := store * 2 ^ 28 + a
  anomSet (evtStore { s with orr := { s.orr with eccUe := true, eccAddr := BitVec.ofNat 32 v, nEccUe := satInc s.orr.nEccUe } } 5 store v .ok) 3

/-- Where a slot of a ring lies: the store in the code of OR_ECC_ADDR and the address in it; `first` is the partition's first page,
a page with its trailer 272 bytes. PRESUMED, log 163. -/
def slotPlace (g : RingGeo) (first a : Nat) : Nat × Nat :=
  let q := pageOfSlot g a
  (1 + q / (g.pages / 2), 272 * (first + q % (g.pages / 2)) + 256 / g.spp * (a % g.spp))

/-- Where what S5 reads lies: ring slots, page copies, ledger slots, legacy copies. PRESUMED, log 163. -/
def readPlace (kind n : Nat) : Nat × Nat :=
  match kind with
  | 0 => slotPlace geoCtr 74 n
  | 1 => slotPlace geoSec 106 n
  | 2 => slotPlace geoJournal 122 n
  | 3 => (1 + n % 2, 272 * (n / 2))
  | 4 => (3, 64 * n)
  | _ => (4, 12288 * (n % 2) + 48 * (n / 2))

/-- Whether a list of S5's findings names number `n` of a kind. -/
def foundAt (l : List (Fin 6 × BitVec 16)) (kind n : Nat) : Bool := l.any fun y => y.1.val == kind && y.2.toNat == n

/-- Two valid slots with one SEQ and different content: the loser is the copy whose groups reported a correction, or
the higher-addressed one (R308). -/
def twinLoser (l : List RingSlot) : Option RingSlot :=
  l.findSome? fun x => l.findSome? fun y =>
    if slotValid x && slotValid y && x.seq == y.seq && decide (x.addr < y.addr) &&
        (x.rid != y.rid || x.len != y.len || x.payload != y.payload) then
      some (if x.fixed && !y.fixed then x else y)
    else none

/-- Every twin of a ring resolved: the ring, and the addresses of the losers, whose COMMIT is programmed to 0.
DEDUCED, log 98. -/
def resolveTwins : Nat → Ring → List Nat → Ring × List Nat
  | 0, r, acc => (r, acc)
  | k + 1, r, acc =>
    match twinLoser r.slots with
    | none => (r, acc)
    | some x =>
      resolveTwins k { r with twin := true, slots := r.slots.map fun y => if y = x then { y with commit := 0 } else y }
        (acc ++ [x.addr])

/-- A ring's slots as S5 reads them: corrected, or with an uncorrectable group. -/
def readRing (o : StartOutcome) (k : Nat) (r : Ring) : Ring :=
  { r with slots := r.slots.map fun x => { x with fixed := foundAt o.fixed k x.addr, ue := x.ue || foundAt o.lost k x.addr } }

/-- A reclaim was interrupted before its erase: a valid slot of the oldest page has an equal twin on another page (R308). -/
def reclaimCut (g : RingGeo) (r : Ring) : Bool :=
  match oldestPage g r with
  | none => false
  | some p => r.slots.any fun y => pageOfSlot g y.addr == p && slotValid y &&
      r.slots.any fun z => pageOfSlot g z.addr != p && slotValid z && z.seq == y.seq && z.rid == y.rid && z.payload == y.payload

/-- A page whose reclaim was interrupted is reclaimed again (R312 step 2). -/
def reclaimAgain (g : RingGeo) (r0 : Ring) : Ring :=
  let r := { r0 with reclaim := false }
  if reclaimCut g r then ringReclaim g r else r

/-- SEQ of a ring rebuilt from its slots. -/
def ringIndex (r : Ring) : Ring :=
  { r with seq := BitVec.ofNat 32 ((r.slots.filter slotValid).foldl (fun m x => Nat.max m x.seq.toNat) 0) }

/-- A page both of whose copies are valid under one PAGE_SEQ with different content: twins (R299, R308). -/
def pageTwin (g : NvPage) : Bool :=
  copyValid g.c0 && copyValid g.c1 && g.c0.seq == g.c1.seq && (g.c0.data != g.c1.data || g.c0.txn != g.c1.txn)

/-- Whether a copy is programmed with a TXN beyond the last completed transaction. -/
def copyRolled (done : W32) (c : NvCopy) : Bool := !copyErased c && c.txn != 0xFFFFFFFF && decide (done.toNat < c.txn.toNat)

/-- Whether step 3 of R312 rolls a copy of the page back. -/
def pageRolled (g : NvPage) (done : W32) : Bool := copyRolled done g.c0 || copyRolled done g.c1

/-- Step 3 of R312: the copies beyond the last completed transaction are erased. -/
def pageCut (g : NvPage) (done : W32) : NvPage :=
  { g with c0 := if copyRolled done g.c0 then {} else g.c0, c1 := if copyRolled done g.c1 then {} else g.c1 }

/-- Whether a committed copy is newer than the current one and lost a group (R301). -/
def newerLost (seq : Nat) (c : NvCopy) : Bool := c.commit == commitWord && c.ue && decide (seq < c.seq.toNat)

/-- What a page tells at S5, judged before a copy is erased under step 4: 1 PAGE_LOST, 2 ROLLBACK, 3 WORN (R299 to R301, R312). -/
def pageReports (g : NvPage) (done : W32) : List Nat :=
  let c := pageCut g done
  let seq : Nat := match currentCopy c with
    | some x => x.seq.toNat
    | none => 0xFFFFFFFF
  (if (currentBank c).isNone && !(copyErased c.c0 && copyErased c.c1) then [1] else []) ++
  (if pageRolled g done || newerLost seq c.c0 || newerLost seq c.c1 then [2] else []) ++
  (if g.worn then [3] else [])

/-- A page after steps 3 and 4 of R312: the current copy alone stays. -/
def pageSettle (g : NvPage) (done : W32) : NvPage :=
  let c := pageCut g done
  match currentBank c with
  | some true => { c with c0 := {} }
  | some false => { c with c1 := {} }
  | none => c

/-- Erases of steps 3 and 4 of R312 (R334). -/
def settleErases (g : NvPage) (done : W32) : Nat :=
  let n (c : NvCopy) : Nat := b2n (!copyErased c)
  n g.c0 + n g.c1 - (n (pageSettle g done).c0 + n (pageSettle g done).c1)

/-- The shadow loaded from a page's current copy; zeros without one (R299). -/
def loadShadow (g : NvPage) : Mem := match currentCopy g with
  | some c => memWriteBytes [] 0 c.data
  | none => []

/-- Linear address of a page's copy that loses as a twin: copy 1 where it does not win. PRESUMED, log 163. -/
def twinAddr (g : NvPage) (base step size p : Nat) : Nat := base + step * p + (if currentBank g = some true then 0 else size)

/-- Page copies as S5 reads them: copy 2 × page + copy number. -/
def readPage (o : StartOutcome) (k p : Nat) (g : NvPage) : NvPage :=
  let f (b : Nat) (c : NvCopy) : NvCopy :=
    { c with fixed := foundAt o.fixed k (2 * p + b), ue := c.ue || foundAt o.lost k (2 * p + b) }
  { g with c0 := f 0 g.c0, c1 := f 1 g.c1 }

/-- The bytes of a page's current copy. -/
def pageData (s : State) (p : Fin 256) : Option Bytes := (currentCopy (s.orr.pages[p]).nv).map (·.data)

/-- The bytes of a partition: its pages in turn, zeros for one without a current copy (R299). -/
def partData (s : State) (ps : List (Fin 256)) : Bytes := ps.flatMap fun p => (pageData s p).getD (zeros 256)

/-- Whether the record store is new: both copies of every page are erased. -/
def storeNew (o : Store) : Bool :=
  (o.pages.toList.all fun g => copyErased g.nv.c0 && copyErased g.nv.c1) && o.ringCtr.slots.isEmpty && o.ringSec.slots.isEmpty &&
    o.journal.slots.isEmpty

/-- Whether an entry is the A or the B entry of a checkpoint pair (R328). -/
def ckptPart (e : LedgerEntry) (part : Nat) : Bool := byteAt e.data 0 == 0x0F && byteAt e.data 2 == part

/-- Event entries since the newest complete checkpoint pair; a lone A entry counts as one (R328).
DEDUCED, log 125. -/
def countSince : List LedgerEntry → Nat → Nat
  | [], n => n
  | [_], n => n + 1
  | e :: f :: l, n =>
    if ckptPart e 0 && ckptPart f 1 then countSince l 0 else countSince (f :: l) (n + 1)

/-- Ledger slots as S5 reads them. -/
def readLedger (o : StartOutcome) (l : List LedgerEntry) : List LedgerEntry :=
  l.map fun e => { e with fixed := foundAt o.fixed 4 (e.pos % 16384), ue := e.ue || foundAt o.lost 4 (e.pos % 16384) }

/-- Ledger twins: of two intact entries with one INDEX and different content the one with a correction loses, else the
higher-addressed one (R308, R312 step 5). Their places. DEDUCED, log 98. -/
def ledgerLosers (l : List LedgerEntry) : List Nat :=
  let t := l.filter entryOk
  (t.zip (t.drop 1)).filterMap fun x =>
    if x.1.index == x.2.index && x.1.data != x.2.data then
      some (if x.1.fixed != x.2.fixed then (if x.1.fixed then x.1.pos else x.2.pos)
        else if x.1.pos % 16384 < x.2.pos % 16384 then x.2.pos else x.1.pos)
    else none

/-- The losers' COMMIT programmed to 0. -/
def ledgerDrop (l : List LedgerEntry) (losers : List Nat) : List LedgerEntry :=
  l.map fun e => if losers.contains e.pos then { e with data := overlay e.data 60 (zeros 4) } else e

/-- The ledger found at S5: twins, write point, chain head, checkpoint count, OR_LEDGER_ACK; with 30 entries since the last pair one is
due (R312 step 5, R327 to R329). What is damaged is neither write point nor chain head. -/
def ledgerFind (s : State) (ack : W32) : State :=
  let losers := ledgerLosers s.ledger.ring
  let ring := ledgerDrop s.ledger.ring losers
  let ok := ring.filter entryOk
  let n := countSince ok 0
  eraseAhead { s with ledger := { s.ledger with
    ring := ring
    nextIndex := match ok.getLast? with
      | some e => if losers.isEmpty then e.index + 1 else e.index + 2
      | none => s.ledger.nextIndex
    chain := match ok.getLast? with
      | some e => slice e.data 40 16
      | none => []
    sinceCkpt := n, ckptSince := if 30 ≤ n then some (now s) else none, ack := ack } }

/-- EVT_STORE queued and a STORE record journalled for each report: kind, store, page (R312 step 6). -/
def reportPages (s : State) (l : List (Nat × Nat × Nat)) : State :=
  l.foldl (fun t x =>
    let t1 := evtStore t x.1 x.2.1 x.2.2 .ok
    journalAdd t1 0x10 9 0 0 ([byte x.1, byte x.2.1, 0, 0] ++ leBytes 4 x.2.2)) s

/-- TWIN records: ring number (0xFF for a page) and the loser's address (R434), with EVT_STORE and OR_SNAP_H_TWINS; `place`: the
loser's store and its address there. -/
def reportTwins (s : State) (ring : Nat) (l : List (Nat × Nat × Nat)) : State :=
  l.foldl (fun t x =>
    let t0 := anomSet (evtStore t 6 x.2.1 x.2.2 .storeTwin) 1
    let t1 := { t0 with orr := { t0.orr with nTwins := satInc t0.orr.nTwins } }
    journalAdd t1 0x10 8 (statusCode .storeTwin) 0 (byte ring :: leBytes 4 x.1)) s

/-- The failure lists and lock-out ends as RING_SEC holds them (R177, R310). DEDUCED, log 125. -/
def loadLocks (s : State) : State :=
  { s with
    pres := { s.pres with passive := lockoutOf (ringRead s.orr.ringSec 1), hf := lockoutOf (ringRead s.orr.ringSec 2) }
    creds := { s.creds with lock := lockoutOf (ringRead s.orr.ringSec 3) } }

/-- Outcomes buffered by Sable and the latched flags of the previous start, appended with BUFFERED set (R435).
DEDUCED, log 126. -/
def appendBuffered (s : State) : State :=
  let s1 := s.boot.buffered.foldl (fun t x => journalPut t x true) s
  let s2 := match s1.tamper.step with
    | some k => if k.val ≤ 5 then journalPut s1 (outcomeNow s1 k.val 5 (statusCode .tampered) 0 (leBytes 4 s1.tamper.src.toNat)) true else s1
    | none => s1
  let s3 := if s2.boot.wdLatched then journalPut s2 (outcomeNow s2 0x10 10 0 0 [byte s2.boot.lastStep]) true else s2
  let s4 := match s3.boot.brownout with
    | some k => journalPut s3 (outcomeNow s3 0x10 14 0 0 [byte k]) true
    | none => s3
  { s4 with boot := { s4.boot with buffered := [], wdLatched := false, brownout := none }, tamper := { s4.tamper with step := none } }

/-- Groups that S5's reading finds corrected or uncorrectable, counted and reported (R296, R334). -/
def readGroups (o : StartOutcome) (s : State) : State :=
  let s1 := { s with orr := { s.orr with nEccCe := Nat.min 0xFFFFFFFF (s.orr.nEccCe + o.fixed.length) } }
  o.lost.foldl (fun t x => let p := readPlace x.1.val x.2.toNat; noteUe t p.1 p.2) s1

/-- Steps 1 to 5 of R312 on Or's NV: rings indexed, twins resolved, copies rolled back, settled and loaded. -/
def storeSettle (o : StartOutcome) (t : Store) : Store :=
  let ring (g : RingGeo) (k : Nat) (r : Ring) : Ring :=
    reclaimAgain g (resolveTwins r.slots.length (ringIndex (readRing o k r)) []).1
  let rs := ring geoSec 1 t.ringSec
  let rec4 := (ringRead rs 4).getD []
  let done : W32 := BitVec.ofNat 32 (leAt rec4 0 4)
  let page (p : Fin 256) : NvPage := readPage o 3 p.val (t.pages[p]).nv
  let lw (p : Fin 256) : NvPage := readPage o 5 p.val t.lw[p]
  let st := readPage o 5 256 t.lwStatus
  let er := ((List.finRange 256).map fun p => settleErases (page p) done + settleErases (lw p) done).foldl (· + ·) 0 + settleErases st done
  { (addErases t er) with
    ringCtr := ring geoCtr 0 t.ringCtr, ringSec := rs, journal := ring geoJournal 2 t.journal
    txnDone := done, txnIssued := BitVec.ofNat 32 (leAt rec4 4 4)
    pages := Vector.ofFn fun p => { nv := pageSettle (page p) done, shadow := loadShadow (pageSettle (page p) done) }
    lw := Vector.ofFn fun p => pageSettle (lw p) done
    lwStatus := pageSettle st done }

/-- The twins that S5 resolves in a ring: the loser's slot, its store and its address. -/
def ringTwins (o : StartOutcome) (k : Nat) (r : Ring) : List (Nat × Nat × Nat) :=
  (resolveTwins r.slots.length (ringIndex (readRing o k r)) []).2.map fun a => (a, readPlace k a)

/-- The twins among the copies of pages. -/
def pageTwins (o : StartOutcome) (t : Store) : List (Nat × Nat × Nat) :=
  let l := (List.finRange 256).filterMap fun p =>
    let g := readPage o 3 p.val (t.pages[p]).nv
    if pageTwin g then some (twinAddr g 0 272 69632 p.val, readPlace 3 (2 * p.val + b2n (currentBank g != some true))) else none
  let w := (List.range 257).filterMap fun p =>
    let g := readPage o 5 p (if p = 256 then t.lwStatus else vgetN t.lw p {})
    if pageTwin g then some (twinAddr g 139264 48 12288 p, readPlace 5 (2 * p + b2n (currentBank g != some true))) else none
  l ++ w

/-- What the pages tell at S5: kind, store, page (R312 step 6). -/
def storeReports (o : StartOutcome) (t : Store) (done : W32) : List (Nat × Nat × Nat) :=
  ((List.finRange 256).flatMap fun p => (pageReports (readPage o 3 p.val (t.pages[p]).nv) done).map fun k => (k, 1, p.val)) ++
    (List.range 257).flatMap fun p =>
      (pageReports (readPage o 5 p (if p = 256 then t.lwStatus else vgetN t.lw p {})) done).map fun k => (k, 4, p)

/-- The work of S5 once Or responds (R312). -/
def storeLoad (o : StartOutcome) (s0 : State) : State :=
  let s := readGroups o s0
  let st := storeSettle o s.orr
  let s1 := { s with orr := st }
  let s2 := { s1 with orr := { s1.orr with sys := sysOf (partData s1 sysPages), telem := telemOf (partData s1 telemPages) } }
  let s3 := { s2 with ledger := { s2.ledger with lpend := lpendOf (partData s2 lpendPages), ring := readLedger o s2.ledger.ring } }
  let s4 := appendBuffered (loadLocks (ledgerFind s3 s3.orr.sys.ledgerAck))
  let s5 := reportTwins (reportTwins (reportTwins s4 0 (ringTwins o 0 s.orr.ringCtr)) 1 (ringTwins o 1 s.orr.ringSec)) 2
    (ringTwins o 2 s.orr.journal)
  let s6 := reportTwins s5 3 ((ledgerLosers s3.ledger.ring).map fun p => (p % 16384 * 64, readPlace 4 (p % 16384)))
  reportPages (reportTwins s6 0xFF (pageTwins o s.orr)) (storeReports o s.orr st.txnDone)

/-- S5 (R312): three attempts without an answer from Or, or SYS without a valid copy in a store that is not new, end in
service-lock. -/
def step5 (o : StartOutcome) (s : State) : State :=
  if o.orFails = 3 then lockStep s 3
  else if storeNew s.orr then
    let s1 := appendBuffered (loadLocks (ledgerFind { s with orr := { s.orr with sys := {} } } 0))
    passStep (failAttempts (commitSync s1 pageSys) 5 o.orFails.toNat) [] (o.orFails.toNat + 1)
  else
    let s1 := storeLoad o s
    if (currentBank (s1.orr.pages[pageSys]).nv).isNone then lockStep s 3
    else passStep (failAttempts s1 5 o.orFails.toNat) [] (o.orFails.toNat + 1)

/-! ### S6 (R232, R237, R240, R250) -/

/-- Every bit of both shares programmed to 1 (R240). -/
def burntArea (a : RootArea) : RootArea := { a with shareB := List.replicate 32 0xFF, shareA := List.replicate 32 0xFF }

/-- CHECK recomputed from the recombined shares differs (R232). -/
def checkBad (k : KeyStore) : Bool :=
  match rootSecret k with
  | some rs => (Config.sha256 rs).take 4 != (rootArea k).check
  | none => true

/-- R240 steps 2 and 3: shares programmed to 1, key store NV, its generation table, counters and nonce records with it, and tag keys
erased. DEDUCED, log 151. -/
def retireErase (s : State) : State :=
  let s1 := zeroiseStore s
  tagErase { s1 with
    gq := { s1.gq with nonces := [] }
    keys := { s1.keys with
      area0 := burntArea s.keys.area0, area1 := burntArea s.keys.area1, servicing := none, rosterGen := 0, importSeq := 0
      slots := Vector.replicate 224 {} } }

/-- The unmask of S6 under the current root, with Gules reset and its known-answer tests. -/
def unmaskReset (failA failB : Bool) (s : State) : State :=
  katRun (unmask (gulesReset s)) failA failB

/-- S6: in Retired the erasure is repeated and start-up stops; CHECK must match; a recorded service-lock stops start-up
here until TAMPER_ACK (R261, R436). DEDUCED, log 77. -/
def step6 (o : StartOutcome) (s : State) : State :=
  if s.keys.lcRetire then lockStep (retireErase s) 0
  else if checkBad s.keys || !o.trng6 then lockStep (failAttempts s 6 2) 3
  else
    let s1 := unmaskReset o.katA o.katB { s with keys := { s.keys with debug := false } }
    if s1.keys.svcLock && !s1.boot.resume then lockStep s1 0
    else passStep s1 []

/-! ### S7 to S9: images (R437 to R440) -/

/-- An image in its slot. DESIGN CHOICE, log 14, 129. -/
def imageAt (s : State) (n : Fin 3) : ImageSlot := s.boot.images[n]

/-- Check 1 of R437. -/
def imageHeaderOk (b : Bytes) : Bool :=
  slice b 0 4 == ascii "IZIM" && leAt b 4 2 == 1 && allZero (slice b 9 3) && decide (leAt b 12 4 ≤ 128) &&
    decide (1 ≤ leAt b 16 4) && decide (leAt b 16 4 ≤ 458624) && decide (leAt b 20 4 < leAt b 16 4) && leAt b 20 4 % 4 == 0 &&
    allZero (slice b 24 8) && 128 + leAt b 16 4 == b.length

/-- Check 2 of R437. -/
def imageSigned (b : Bytes) : Bool :=
  Config.ecdsaVerify Config.torvernKey (ascii "TV8160-IMG" ++ slice b 0 64) (slice b 64 64)

/-- Check 3 of R437. -/
def imageHashed (b : Bytes) : Bool := Config.sha256 (b.drop 128) == slice b 32 32

/-- Checks 1 to 3 on what a slot holds. DESIGN CHOICE, log 129. -/
def imageChecks (x : ImageSlot) : Bool :=
  x.present && x.intact && (x.maker || (imageHeaderOk x.bytes && imageSigned x.bytes && imageHashed x.bytes))

/-- The image checks of R437 at a slot; the recovery image is exempt from check 4. -/
def imageOk (s : State) (n : Fin 3) : Bool :=
  let x := imageAt s n
  imageChecks x && (n == 2 || decide (s.boot.arbDevice ≤ x.arb))

/-- The slot that takes a verified image: neither active nor on trial; under the recovery image slot A if it failed, else
B (R437, R439). DEDUCED, log 161. -/
def targetSlot (s : State) : Fin 2 :=
  if s.boot.running = .recovery then (if s.boot.record.stateA = .failed then 0 else 1)
  else if s.boot.record.active = 0 then 1 else 0

/-- STATE of an image slot. -/
def setSlotState (r : BootRecord) (n : Fin 2) (x : ImageState) : BootRecord :=
  if n = 0 then { r with stateA := x } else { r with stateB := x }

def slotState (r : BootRecord) (n : Fin 2) : ImageState := if n = 0 then r.stateA else r.stateB

/-- An image slot's index. -/
def imageIx (n : Fin 2) : Fin 3 := if n = 0 then 0 else 1


/-- DETAIL of an image: digest prefix, then ARB. DESIGN CHOICE, log 129. -/
def imageDetail (x : ImageSlot) : Bytes := x.digest.take 8 ++ leBytes 4 x.arb

/-- S7. -/
def step7 (s : State) : State :=
  if imageOk s 0 then passStep { s with boot := { s.boot with okA := true } } (imageDetail (imageAt s 0))
  else takeAlternate { s with boot := { s.boot with okA := false } } 1

/-- Program memories, staging and CLK_ATTEMPT as S9 leaves them, then the settling of R439: a trial start that did not
reach S15, unless it ended by V_ASH or a tamper alarm, and a trial image that failed S7 or S8, each count one failure; at
the second the slot is failed. DEDUCED, log 123. -/
def settleTrial (s : State) : State :=
  let s0 := ((List.range (Nat.min 4 s.clk.recs)).foldl (fun t k =>
    let a := vgetN t.clk.attempts k {}
    let w := b2n a.xoReady + 2 * b2n a.rc16Ready + 4 * b2n a.xoOutside + 8 * b2n a.rc16Outside + 256 * a.rtc.toNat
    journalAdd t 9 7 0 0 (leBytes 4 w)) s)
  let s1 := { s0 with
    clk := { s0.clk with attempts := Vector.replicate 4 {}, recs := 0 }
    cmds := { s0.cmds with area0 := {}, area1 := {}, area2 := {} } }
  let r := bootLoad s1.boot
  match r.trialSlot with
  | none => bootCommit { s1 with boot := { s1.boot with excused := false } } { r with trialPend := false }
  | some n =>
    let bad := if n = 0 then !s1.boot.okA else !s1.boot.okB
    let fails := r.trialFails + b2n (r.trialPend && !s1.boot.excused) + b2n bad
    if 2 ≤ fails then
      bootCommit { s1 with boot := { s1.boot with excused := false, reverted := some n } }
        { (setSlotState r n .failed) with trialPend := false, trialFails := 2, trialSlot := none }
    else bootCommit { s1 with boot := { s1.boot with excused := false } } { r with trialPend := false, trialFails := fails }

/-- S8: an empty slot B passes; the third failure takes the recovery image's verification as alternate. S9 is entered.
DEDUCED, log 123. -/
def step8 (s : State) : State :=
  let s1 :=
    if !(imageAt s 1).present then passStep { s with boot := { s.boot with okB := false } } []
    else if imageOk s 1 then passStep { s with boot := { s.boot with okB := true } } (imageDetail (imageAt s 1))
    else takeAlternate (failAttempts { s with boot := { s.boot with okB := false, okR := imageOk s 2 } } 8 2) 3
  settleTrial s1

/-- The candidates of S9 in the order of R439. DEDUCED, log 123. -/
def candidates (s : State) : List Running :=
  let b := s.boot
  let slot (n : Fin 2) : Running := if n = 0 then .slotA else .slotB
  (match b.record.trialSlot with
    | some n => if b.record.trialFails < 2 then [slot n] else []
    | none => []) ++
  [slot b.record.active, slot (1 - b.record.active), .recovery]

/-- Whether a candidate verified and has not failed S9 three times in this start. -/
def candidateOk (s : State) : Running → Bool
  | .slotA => s.boot.okA && !bitAt s.boot.failedS9.toNat 0
  | .slotB => s.boot.okB && !bitAt s.boot.failedS9.toNat 1
  | .recovery => imageOk s 2 && !bitAt s.boot.failedS9.toNat 2
  | .none => false

/-- The image slot of a running image. -/
def runningSlot : Running → Fin 3
  | .slotA => 0 | .slotB => 1 | .recovery => 2 | .none => 2

/-- REVERTED of R439, for the failed slot. -/
def revertRecord (m : Fin 2) (s : State) : State :=
  let n : Fin 3 := if m = 0 then 0 else 1
  journalAdd s 9 13 (statusCode .imageInvalid) 0 ([byte n.val] ++ leBytes 4 (imageAt s n).arb ++ (imageAt s n).digest.take 8 ++ [2])

/-- S9 chooses and starts an image; without a candidate it is service-lock. `first`: the first attempt of this start.
DEDUCED, log 123. -/
def startImage (o : StartOutcome) (first : Bool) (s : State) : State :=
  match (candidates s).find? (candidateOk s) with
  | none => lockStep { s with boot := { s.boot with running := .none } } 0
  | some r =>
    let s1 := { s with boot := { s.boot with running := r, s9At := s.clock, stepAt := s.clock } }
    let s2 := match s1.boot.reverted with
      | some n => if first then revertRecord n s1 else s1
      | none => s1
    let s3 := if onTrial s2.boot then bootCommit s2 { s2.boot.record with trialPend := true } else s2
    let s4 := if r = .recovery then { s3 with boot := { s3.boot with fallStep := some 9 } } else s3
    if o.alive then passStep { s4 with boot := { s4.boot with lastStep := 9 } } [] (s4.boot.s9Attempts + 1) else s4

/-- An S9 attempt of the running image failed: a FAIL record, or after the third the next candidate (R439).
DEDUCED, log 123. -/
def imageFailed (s : State) : State :=
  let n := s.boot.s9Attempts + 1
  let bit := 2 ^ (runningSlot s.boot.running).val
  if n < 3 then
    journalAdd { s with boot := { s.boot with s9Attempts := n } } 9 kFail (stepStatus 9) n (failDetail 9)
  else
    journalAdd { s with boot := { s.boot with
      s9Attempts := 0, failedS9 := s.boot.failedS9 ||| BitVec.ofNat 3 bit, fallStep := some 9 } } 9 kAlternate (stepStatus 9) 3 [9]

/-! ### S10 to S12 (R75, R143, R441) -/

/-- CAL as its pages read. -/
def calOf (s : State) : CalData := calOfBytes (partData s (pageRun 2 8))

/-- Whether a page has a current copy. -/
def pageHas (s : State) (p : Fin 256) : Bool := (currentBank (s.orr.pages[p]).nv).isSome

/-- What one page of CAL holds restored from its current copy: trims, field calibration, delays, RTC coefficient, band cache,
persisted profiles. DEDUCED, log 125. -/
def restorePage (s : State) (p : Fin 256) : State :=
  let d := calOf s
  if !pageHas s p then s
  else if p = calLf then
    { s with vert := { s.vert with ch := Vector.ofFn fun c =>
        { s.vert.ch[c] with trim := (d.lf[c]).1, cap := BitVec.ofNat 3 (d.lf[c]).2.1, phComp := (d.lf[c]).2.2 } } }
  else if p = calField then { s with pres := { s.pres with cal := d.cal } }
  else if p = calUwb then
    { s with az := { s.az with ports := Vector.ofFn fun q =>
        { s.az.ports[q] with txDly := BitVec.ofNat 16 (d.uwb[q]).1, rxDly := BitVec.ofNat 16 (d.uwb[q]).2 } } }
  else if p = calRtc then { s with rtc := { s.rtc with coeff := d.coeff } }
  else if p = calBand then { s with tn := { s.tn with cache := d.cache, cacheTemp := d.cacheTemp } }
  else if p = calProfile then { s with orr := { s.orr with profile := d.profile } }
  else s

/-- The calibration restored at S10; the band cache is filled anew (R189). DEDUCED, log 125. -/
def restoreCal (s : State) : State := [calLf, calField, calUwb, calRtc, calProfile].foldl restorePage s

/-- The bundle in CFG where its SHA-256 is the one that SYS holds (R393, R441). -/
def cfgBundle (s : State) : Option Bundle :=
  let n := cfgLength s
  if 0 < n && !s.orr.sys.digest.isEmpty && decide (Config.sha256 (cfgBytes s n) = s.orr.sys.digest) then parseBundle (cfgBytes s n)
  else none

/-- The profiles in force from here (R24). -/
def setProfiles (s : State) : State :=
  let s1 := nextProfiles s
  { s1 with pres := { s1.pres with deep := s1.pres.nextDeep, double := s1.pres.nextDouble } }

/-- S10. -/
def step10 (o : StartOutcome) (s : State) : State :=
  let s0 := markDirty { s with orr := { s.orr with telem := { s.orr.telem with cold := s.orr.telem.cold + 1 } } } pageTelem
  let load (t : State) (b : Option Bundle) : State :=
    let t1 := match b with
      | some x => loadBundle t x (!pageHas t calUwb) o.temp
      | none => clearPrograms t
    setProfiles (if b.isSome then markDirty (restoreCal t1) calBand else restoreCal t1)
  let alt (n : Nat) : State :=
    let t := takeAlternate (load (failAttempts s0 10 n) none) (n + 1)
    { t with boot := { t.boot with noBundle := true, lastStep := 10 } }
  match cfgBundle s0 with
  | none => alt 2
  | some b =>
    if o.readbackFails = 3 then alt 2
    else
      let t := passStep (failAttempts (load s0 (some b)) 10 o.readbackFails.toNat) [] (o.readbackFails.toNat + 1)
      { t with boot := { t.boot with lastStep := 10 } }

/-- Whether a channel passes its check at S11 (R75): |PH_ERR| at most 7 steps, I_MEAS within 80 % to 120 % of I_PK,
63 ⁄ 16 × 6,300 mA-steps each way. -/
def lfCheckOk (x : LfCheck) : Bool :=
  decide (-7 ≤ s8 x.phErr.toNat) && decide (s8 x.phErr.toNat ≤ 7) &&
    decide (1920000 ≤ 6300 * x.iMeas.toNat) && decide (6300 * x.iMeas.toNat ≤ 2880000)

/-- A sweep of a channel is left to LF_SWEEP. -/
def sweepLater (s : State) (c : Fin 12) : State := modCh s c fun y => { y with sweepReq := true }

/-- The sweep of a channel at S11, at once; while F_VLF is too low, or where a posting to Vert falls into it, it is left to
LF_SWEEP (R79, R91). -/
def lfCheckSweep (x : LfCheck) (s : State) (c : Fin 12) : State :=
  if !sweepMay s then sweepLater s c
  else match sweepYields s (2400 * sweepDrives c) with
    | some p => sweepLater (sweepYield c 8 2400 p s) c
    | none => markDirty (sweepRun s c x.f x.k x.i x.ph) calLf

/-- The check of one populated channel, a burst of 250 µs at AMP 16, and the sweep of one that fails; without a restored
calibration every channel is swept (R75). A channel that passes enters service in the class it has; a check into which a
posting falls yields, and a sweep stands for it (R91). DEDUCED, log 38. DESIGN CHOICE, log 188. -/
def lfCheckRun (o : StartOutcome) (s : State) (c : Fin 12) : State :=
  if !bitAt s.vert.pop.toNat c.val then s
  else
    let x := o.lf[c]
    if !pageHas s calLf then lfCheckSweep x s c
    else match sweepYields s 9600 with
      | some p => sweepLater (sweepYield c 16 9600 p s) c
      | none =>
        let s1 := modCh (driveAlone c 16 9600 s) c fun y => { y with phErr := x.phErr, iMeas := x.iMeas }
        if lfCheckOk x then { s1 with vert := { s1.vert with svc := s1.vert.svc ||| BitVec.ofNat 12 (2 ^ c.val) } }
        else lfCheckSweep x s1 c

/-- Channel classes are not stored: after a skipped S11 every populated channel is NORMAL and out of service (R431). -/
def lfUnchecked (s : State) : State :=
  { s with vert := { s.vert with
      svc := 0
      ch := Vector.ofFn fun c => if bitAt s.vert.pop.toNat c.val then { s.vert.ch[c] with cls := .normal } else s.vert.ch[c] } }

/-- S11: waits while F_VBAT lies outside V_LFMIN to V_OVP (R424, R427) and while OVERTEMP is set, each 20 ms of which fail an
attempt (R77); skipped under the recovery image, in service-lock, where nothing is emitted (R261), and after three
failures. DEDUCED, log 125. -/
def step11 (o : StartOutcome) (s : State) : State :=
  let fails := Nat.min 3 (hotTries s + if s.vert.overtemp then 0 else o.vertFails.toNat)
  if s.boot.running = .recovery || s.keys.svcLock then skipStep (lfUnchecked s) 0
  else if s.pwr.vbatOvp || s.pwr.vbatLow then s
  else if fails = 3 then
    let t := skipStep (lfUnchecked (failAttempts s 11 2)) 3
    { t with boot := { t.boot with skip11 := true, lastStep := 11, hotFails := 0 } }
  else if s.vert.overtemp then s
  else
    let s0 := failAttempts s 11 fails
    let s1 := (List.finRange 12).foldl (lfCheckRun o) { s0 with boot := { s0.boot with hotFails := 0 } }
    let t := passStep s1 (leBytes 2 (s1.vert.pop &&& ~~~s1.vert.svc).toNat) (fails + 1)
    { t with boot := { t.boot with lastStep := 11 } }

/-- Whether a chain's internal loopback stays within ±64 units (R143). -/
def chainIn (d : Option Int) : Bool :=
  match d with
  | some x => decide (-64 ≤ x) && decide (x ≤ 64)
  | none => false

/-- A chain's on-die delay corrected by its deviation: RX_DLY of the ports that the pairs receive on it.
DEDUCED, log 124. -/
def chainCorrect (s : State) (a b : Int) : State :=
  let inA (p : Nat) : Bool := (uwbPairs s).any fun q => q.2.1 == p
  let inB (p : Nat) : Bool := (uwbPairs s).any fun q => q.2.2 == p
  markDirty { s with az := { s.az with ports := Vector.ofFn fun p =>
      let x := s.az.ports[p]
      let d := if inA p.val then a else if inB p.val then b else 0
      { x with rxDly := BitVec.ofInt 16 (x.rxDly.toNat + d) } } } calUwb

/-- PLL_U and Azure running: S12 and the background tests use them. -/
def azureUp (s : State) : State :=
  let s1 := gateOn s 9
  { s1 with clk := { s1.clk with plluLock := true, ready := s1.clk.ready ||| 0x10 } }

/-- A FAULT port is tested at every start-up (R144). -/
def faultTested (s : State) (p : Fin 6) : State :=
  if (s.az.ports[p]).cls = .fault then modPort s p fun y => { y with testReq := true } else s

/-- What the LOOPBACK over a pair tells of one of its ports at S12, where a FAULT port is tested. -/
def checkPort (s : State) (n : Nat) (x : PortCheck) : State :=
  if h : n < 6 then
    if bitAt s.az.pop.toNat n then classifyPort (faultTested s ⟨n, h⟩) ⟨n, h⟩ x.decoded x.amp x.dly else s
  else s

/-- The work of S12: chains corrected or taken out of service, the compensation for the die temperature, and one LOOPBACK over
every configured pair, which classifies the populated ports of the pair (R143, R144). DEDUCED, log 124. -/
def uwbCheck (o : StartOutcome) (s : State) : State :=
  let a := chainIn o.chainA
  let b := chainIn o.chainB
  let s1 := chainCorrect { s with
      az := { s.az with chainA := a, chainB := b }
      bg := { s.bg with uwbTemp := some o.temp } }
    (if a then o.chainA.getD 0 else 0) (if b then o.chainB.getD 0 else 0)
  (uwbPairs s1).foldl (fun t q =>
    let x := vgetN o.pairs q.1 ({}, {})
    checkPort (checkPort (countLoops t 1) q.2.1 x.1) q.2.2 x.2) s1

/-- DETAIL of S12: the chain corrections, signed. -/
def chainDetail (o : StartOutcome) : Bytes :=
  let d (x : Option Int) : Bytes := leBytes 2 (BitVec.ofInt 16 (if chainIn x then x.getD 0 else 0)).toNat
  d o.chainA ++ d o.chainB

/-- S12: skipped under the recovery image, in service-lock, in the XO fallback, and after three failures.
DEDUCED, log 124. -/
def step12 (o : StartOutcome) (s0 : State) : State :=
  if s0.boot.running = .recovery || s0.keys.svcLock || s0.clk.fallback then skipStep s0 0
  else
    let s := azureUp s0
    if o.uwbFails = 3 || (!chainIn o.chainA && !chainIn o.chainB) then
      let t := skipStep (failAttempts s 12 2) 3
      { t with boot := { t.boot with skip12 := true, lastStep := 12 } }
    else
      let t := passStep (uwbCheck o (failAttempts s 12 o.uwbFails.toNat)) (chainDetail o) (o.uwbFails.toNat + 1)
      { t with boot := { t.boot with lastStep := 12 } }

/-! ### S13 to S15 (R255 to R257, R330, R430, R440) -/

/-- A token context as the roster and RING_CTR hold it; a resynchronisation candidate younger than 30 s stays. -/
def contextOf (s : State) (d : RosterData) (c : Fin 160) : TokenCtx :=
  match d.ids[c] with
  | none => {}
  | some id =>
    let p := (ringRead s.orr.ringCtr c.val).getD []
    let cand := leAt p 4 4
    let fresh := cand != 0 && decide (rtcNow s < leAt p 8 4 + 30)
    { valid := true, id := id, ctrL := BitVec.ofNat 32 (leAt p 0 4)
      resync := if fresh then some (BitVec.ofNat 32 cand, now s - (rtcNow s - leAt p 8 4) * ticksPerSec) else none }

/-- A context as S14 reads it: what Weigh has learned of the token survives a start-up that resumes after an alarm or
TAMPER_ACK, which is no cold start (R168, R452). -/
def contextKept (s : State) (d : RosterData) (c : Fin 160) : TokenCtx :=
  let x := contextOf s d c
  let old := s.ctxs[c]
  if s.boot.resume && old.valid && old.id == x.id then
    { x with
      firstUse := old.firstUse, offset := old.offset, weighed := old.weighed, relayUntil := old.relayUntil
      macFails := old.macFails, macBlock := old.macBlock }
  else x

/-- The roster of R303 in working SRAM; Depot slots derived from slot 165 (R256). DEDUCED, log 125. -/
def rosterLoad (s : State) (d : RosterData) : State :=
  let s1 := { s with
    keys := { s.keys with depot := d.depot, rosterEpoch := d.epoch, rosterCount := d.count, hfMask := d.hfMask }
    ctxs := Vector.ofFn fun c => contextKept s d c }
  deriveDepot s1

/-- S14: an unreadable roster partition gives an empty roster in working SRAM. DEDUCED, log 125. -/
def step14 (s : State) : State :=
  if s.boot.running = .recovery then skipStep s 0
  else
    let g := (s.orr.pages[pageRoster]).nv
    if rosterPages.any fun p => !pageHas s p && !(copyErased (s.orr.pages[p]).nv.c0 && copyErased (s.orr.pages[p]).nv.c1) then
      takeAlternate (failAttempts s 14 2) 3
    else if copyErased g.c0 && copyErased g.c1 then passStep s []
    else passStep (rosterLoad s (rosterOf (partData s rosterPages))) []

/-- EVT_TAMPER (R395) of a TAMPER entry's DETAIL: source, power state, step. -/
def evtTamper (s : State) (detail : Bytes) : State :=
  let src := byteAt detail 0
  let cls := b2n (bitAt src 0 || bitAt src 1)
  postEvent s 7 .tampered [byte src, byte (byteAt detail 1), byte (byteAt detail 2), byte cls, byte (b2n s.keys.svcLock)]

/-- A deferred ledger entry (R324 FLAGS[4]). -/
def deferredReq (r : LedgerReq) : LedgerReq := { r with flags := r.flags ||| 0x10 }

/-- An event entry after a due pair waits for it: signed, or UNSIGNED once its 1 s is over (R328, R329).
DEDUCED, log 126. -/
def pairFirst (s : State) (signOk : Bool) : State :=
  match s.ledger.ckptSince with
  | none => s
  | some t =>
    if lskUsable s && signOk then appendPair s true
    else if lskUsable s then appendPair s false
    else appendPair (elapseTo s (t + ticksPerSec)) false

/-- The appends of R330: LPEND's entries, then a TAMPER entry from Sable's latch with its EVT_TAMPER; LPEND is cleared.
DEDUCED, log 126. -/
def deferredAppends (o : StartOutcome) (s : State) : State :=
  if s.keys.lcRetire then s
  else
    let s1 := s.ledger.lpend.foldl (fun t r => appendEvent (pairFirst t o.signOk) (deferredReq r) o.signOk) s
    let s2 := match s1.tamper.entryDue with
      | some r =>
        evtTamper (appendEvent (pairFirst { s1 with tamper := { s1.tamper with entryDue := none } } o.signOk) (deferredReq r) o.signOk) r.detail
      | none => s1
    if s2.ledger.lpend.isEmpty then s2 else commitPart { s2 with ledger := { s2.ledger with lpend := [] } } lpendPages

/-- The stored lock-out of a path at S15 (R177): a passed end ends it; with time lost it starts again in full.
DEDUCED, log 122. -/
def lockAtStart (s : State) (p : LockPath) : State :=
  if !lockedOut s p then s
  else if s.rtc.drift = 0 then
    saveLock (setLock s p { (lockOf s p) with endAt := rtcNow s + lockSecs s p }) p
  else if (lockOf s p).endAt ≤ rtcNow s then endLockout s p
  else s

/-- ARB raised and TRIAL_PEND cleared (R439, R440). DEDUCED, log 123. -/
def settleImage (s : State) : State :=
  let b := s.boot
  let arb := (imageAt s (runningSlot b.running)).arb
  let slot := b.running = .slotA || b.running = .slotB
  bootCommit { s with boot := { b with
      arbDevice := if slot && !onTrial b && decide (b.arbDevice < arb) then arb else b.arbDevice } } { b.record with trialPend := false }

/-- EVT_TOUCH (R395); FROM 1 Umber, 2 Amber, 3 Chalk. -/
def evtTouch (s : State) (c : Fin 4) (origin : Nat) : State :=
  let h := match handleOf s c.val with
    | some p => p.1
    | none => 0xFF
  postEvent s 1 .ok [byte c.val, byte h, byte origin, byte (b2n (lockedOut s .passive))]

/-- What a touch brings about beyond its event (R29, R172, R178, R403): nothing in a lock-out, the HF linger in the XO
fallback, else an approach. DEDUCED, log 140. -/
def touchApproach (s : State) (cs : List (Fin 4)) (wake : Bool) : State :=
  if lockedOut s .passive || cs.isEmpty || !mayEmit s then s
  else if s.clk.fallback then startLinger s (tHfLinger s)
  else
    let hs := cs.flatMap fun c => ((handles s).filter fun p => p.2.ch == c.val).map (·.1)
    startApproach s (hs.foldl (fun m i => m ||| BitVec.ofNat 4 (2 ^ i)) 0) wake

/-- Touches latched before S15: their events in channel order, then an approach (R419). -/
def latchedTouches (s : State) : State :=
  let cs := (List.finRange 4).filter fun c => (s.pwr.touch[c]).latched
  let s1 := cs.foldl (fun t c => evtTouch t c 3) s
  touchApproach { s1 with pwr := { s1.pwr with touch := vmap s1.pwr.touch fun c => { c with latched := false } } } cs false

/-- What follows S15: REST_AFTER of a pending activation (R440), the return after a class E wake (R260).
DEDUCED, log 126. -/
def afterBoot (s : State) : State :=
  let s1 := if s.boot.record.actPend then
      bootCommit { s with
        pwr := { s.pwr with rest := restOf s.boot.record.restAfter.toNat, woken := true, idleSince := rtcNow s } }
        { s.boot.record with actPend := false }
    else s
  match s1.boot.returnTo with
  | none => s1
  | some t =>
    let s2 := { s1 with boot := { s1.boot with returnTo := none } }
    if mayRest s2 t then leaveChalk s2 t else { s2 with pwr := { s2.pwr with woken := true, idleSince := rtcNow s2 } }

/-- STATUS, STEP and OUTCOME of EVT_BOOT at S15 (R395, R403, R439, R441). -/
def bootOutcome (s : State) : W16 × Nat × Nat :=
  if s.boot.noBundle then (stepStatus 10, 10, 3)
  else if s.boot.reverted.isSome then (statusCode .imageInvalid, 9, 2)
  else match s.boot.fallStep with
    | some k => (stepStatus k, k, 2)
    | none => (0, 15, 0)

/-- S15. -/
def step15 (o : StartOutcome) (s : State) : State :=
  let s1 := settleImage (deferredAppends o s)
  let s2 := lockAtStart (lockAtStart (lockAtStart s1 .passive) .hf) .credential
  let s3 := passStep s2 []
  let b := bootOutcome s3
  let s4 := tagCopyCounters (evtBoot s3 b.1 b.2.1 b.2.2)
  passEnd (afterBoot (latchedTouches { s4 with boot := { s4.boot with resume := false, lastStep := 15 } }))

/-- S13 has passed or been given up: S14 and S15. DEDUCED, log 126. -/
def finishStart (o : StartOutcome) (s : State) : State := step15 o (step14 s)

/-- S13's end at SYNCED (R352, R430). -/
def linkSynced (s : State) : State :=
  if s.boot.step = 13 && !s.boot.locked && s.pwr.pstate = .chalk then finishStart {} (passStep s []) else s

/-- S13: passed where the link is synced already (a steward restart before S15), else it waits. -/
def step13 (o : StartOutcome) (s : State) : State :=
  if s.bar.link = .up && s.bar.fieldEnd.synced then finishStart o (passStep s []) else s

/-! ### A run of start-up -/

/-- The step in progress, once. DEDUCED, log 120. -/
def stepOnce (o : StartOutcome) (s : State) : State :=
  match s.boot.step with
  | 0 => step0 o s
  | 1 => step1 o s
  | 2 => step2 o s
  | 3 => step3 o s
  | 5 => step5 o s
  | 6 => step6 o s
  | 7 => step7 s
  | 8 => step8 s
  | 9 => startImage o (s.boot.s9Attempts == 0 && s.boot.failedS9 == 0) s
  | 10 => step10 o s
  | 11 => step11 o s
  | 12 => step12 o s
  | 13 => step13 o s
  | _ => s

/-- Whether a run goes on: in Chalk, not locked, before S14, and the last step made progress. DEDUCED, log 120. -/
def runOn (before : Nat) (s : State) : Bool :=
  s.pwr.pstate = .chalk && !s.boot.locked && decide (s.boot.step ≤ 13) && decide (before < s.boot.step)

/-- Start-up from the step in progress as far as it goes. -/
def runSteps : Nat → StartOutcome → State → State
  | 0, _, s => s
  | k + 1, o, s =>
    let s1 := stepOnce o s
    if runOn s.boot.step s1 then runSteps k o s1 else s1

/-- A start-up run of an outcome from the step in progress: its time passes, then its steps follow. -/
def startRun (o : StartOutcome) (s : State) : State :=
  if s.pwr.pstate = .chalk && !s.boot.locked && decide (s.boot.step ≤ 13) then runSteps 14 o (elapse s o.ticks.toNat) else s

/-- Start-up resumes at a step after TAMPER_ACK or an alarm's wake: the lock is off, the recorded lock does not stop S6.
DEDUCED, log 120. -/
def resumeAt (o : StartOutcome) (k : Nat) (s : State) : State :=
  startRun o { s with boot := { s.boot with step := k, stepAt := s.clock, locked := false, resume := true } }

end Sys2Proof.Machine
end

