-- ==== Sys2Proof/Machine/Barrier.lean ====
section
/-! DEFINITION. The barrier's frames and timers: verdicts and their results, vehicle state, heartbeats, the authority
epoch, acknowledgement, bulk traffic, the link, and the host die's reset (R338 to R356). -/

namespace Sys2Proof.Machine

open Sys2Proof

/-! ### Synchronisation and silence (R352 to R355) -/

/-- The field die enters UNSYNCED: an open start session ends with reason EPOCH (R354). -/
def fieldUnsync (s : State) : State :=
  let e := s.bar.fieldEnd
  stopStart { s with bar := { s.bar with fieldEnd := { e with synced := false, rxLo := none, rxHi := none } } } 9 4

/-- Argent enters UNSYNCED: the not-permitted pattern, and SYNC_CHANGE when SYNCED falls (R354, R370). -/
def hostUnsync (s : State) : State :=
  let e := s.bar.hostEnd
  let s1 := permitStop { s with bar := { s.bar with hostEnd := { e with synced := false, rxLo := none, rxHi := none } } } 5
  if e.synced then irqSet s1 2 else s1

/-- One end enters UNSYNCED. DEDUCED, log 100. -/
def unsync (s : State) (host : Bool) : State := if host then hostUnsync s else fieldUnsync s

/-- The entry verdicts held, sent in order once they may go (R354). -/
def sendHeld : List (VerdictFrame × Nat) → State → State
  | [], s => s
  | p :: ps, s => sendHeld ps (sendVerdict s p.1)

def releaseHeld (s : State) : State :=
  if verdictsGo s then sendHeld s.bar.heldEntry { s with bar := { s.bar with heldEntry := [] } } else s

/-- An end becomes SYNCED: Argent sets SYNC_CHANGE; the field die sends held verdicts and posts its records again
(R352, R354, R356). DEDUCED, log 100. -/
def becomeSynced (s : State) (host : Bool) : State :=
  let e := endOf s.bar host
  if e.synced then s
  else
    let s1 := { s with bar := setEnd s.bar host { e with synced := true } }
    if host then irqSet s1 2
    else linkSynced (releaseHeld (pump { s1 with cmds := { s1.cmds with repostWait := false } }))

/-- An end sends its epoch as a pair, low half first (R340, R352). DEDUCED, log 100. -/
def sendPair (s : State) (host : Bool) : State :=
  let e := endOf s.bar host
  let s1 := { s with bar := setEnd s.bar host { e with pairAt := s.clock } }
  sendShort (sendShort s1 (!host) 4 (BitVec.ofNat 17 (e.epoch.toNat % 65536))) (!host) 4
    (BitVec.ofNat 17 (e.epoch.toNat / 65536 + 65536))

/-- FIELD_SILENT in Argent (R355). DEDUCED, log 103. -/
def fieldSilent (s : State) : State :=
  if s.bar.hostEnd.silent then s
  else
    let s1 := { s with bar := { s.bar with hostEnd := { s.bar.hostEnd with silent := true } } }
    coexPinsLow (permitStop (irqSet s1 4) 8)

/-- The link leaves UP for TRAINING with epochs, SYNCED and replay buffers kept (R350). DEDUCED, log 101. -/
def retrain (s : State) : State :=
  if s.bar.link = .up then
    let clearP (l : PrioLane) : PrioLane := { l with frames := l.frames.map fun f => { f with failed := 0, lastBad := none } }
    let clearB (l : BulkLane) : BulkLane := { l with frames := l.frames.map fun f => { f with failed := 0 } }
    irqSet { s with bar := { s.bar with
      link := .training, retrain := true, trainSince := s.clock
      toHost := clearP s.bar.toHost, toField := clearP s.bar.toField
      bulkToHost := clearB s.bar.bulkToHost, bulkToField := clearB s.bar.bulkToField } } 1
  else s

/-- Training starts from DOWN (R350). DEDUCED, log 101. -/
def startTraining (s : State) : State :=
  { s with bar := { s.bar with link := .training, retrain := false, trainSince := s.clock, slept := false } }

/-- A BWRITE that waited for a credit goes out (R365). DEDUCED, log 109. -/
def bwriteGo (s : State) : State :=
  match s.host.bwrite with
  | some (a, v) =>
    if waitingWrites s.bar.bulkToField < s.bar.bulkToField.creditP then
      sendBulk { s with host := { s.host with bwrite := none } } false .write 0 (BitVec.ofNat 32 (0x01000000 + a)) (leBytes 4 v.toNat)
    else s
  | none => s

/-- The link comes UP from DOWN: full credits, both ends UNSYNCED, both epoch pairs, and Argent's VSTATE and GNT
pins and the field die's COEX requests as they stand (R197, R350, R352, R356, R373). DEDUCED, log 101. -/
def upFromDown (s : State) : State :=
  let full (l : BulkLane) (p n : Nat) : BulkLane :=
    { l with creditP := p, creditN := n, backP := 0, backN := 0, sentP := 0, sentN := 0 }
  let s1 := { s with bar := { s.bar with
    link := .up, wakeFrom := none, wakes := 0
    bulkToHost := full s.bar.bulkToHost 64 0, bulkToField := full s.bar.bulkToField 32 8
    fieldEnd := { s.bar.fieldEnd with heardAt := s.clock, beatAt := s.clock }
    hostEnd := { s.bar.hostEnd with heardAt := s.clock, beatAt := s.clock, rxAliveAt := s.clock } } }
  let s2 := irqSet (hostUnsync (fieldUnsync s1)) 1
  let s3 := sendPair (sendPair s2 false) true
  let s4 := if s3.tn.coex.any (·.enabled) then sendGnt (sendVState s3) else sendVState s3
  bwriteGo (pump (if s4.tn.coex.any (·.enabled) then sendShort s4 true 6 (coexPayload s4) else s4))

/-! ### Arriving frames (R341, R343, R353) -/

/-- Verdicts whose frame the host die has not yet acknowledged. -/
def unacked (b : Barrier) (v : VerdictFrame) : Bool :=
  b.toHost.frames.any fun f => isVerdict true f.kind.val && (f.kind == 2) == startGrant v.grant.toNat && f.payload == verdictPayload v

/-- The field die detects an epoch mismatch: it enters UNSYNCED, and the verdicts that await their ACK are discarded, a
start request behind one refused (R353, R354, R356). DEDUCED, log 102. -/
def fieldMismatch (s : State) : State :=
  let gone := s.bar.awaiting.filter (unacked s.bar)
  let s1 := fieldUnsync { s with bar := { s.bar with
    awaiting := s.bar.awaiting.filter fun v => !unacked s.bar v
    toHost := { s.bar.toHost with frames := s.bar.toHost.frames.filter fun f => !isVerdict true f.kind.val } } }
  if gone.any fun v => startGrant v.grant.toNat then endStartReq s1 .epochMismatch 9 else s1

/-- One end finds an epoch mismatch (R353). -/
def mismatchAt (s : State) (host : Bool) : State := if host then hostUnsync s else fieldMismatch s

/-- A failing copy of the next frame: the second of two bit-identical ones is an epoch mismatch, any other a line
error; after four the link retrains (R343, R353). -/
def badCopy (s : State) (toHost : Bool) (bits : BitVec 38) : State :=
  match nextShort (prioLane s.bar toHost) with
  | none => s
  | some (i, f) =>
    let put (g : ShortFrame → ShortFrame) : State :=
      { s with bar := setPrio s.bar toHost (modShort (prioLane s.bar toHost) i g) }
    if f.lastBad = some bits then
      let s1 := mismatchAt (put fun x => { x with taken := true, mismatch := true, lastBad := none }) toHost
      if toHost then irqSet s1 3 else { s1 with bar := { s1.bar with anomaly := true } }
    else if 3 ≤ f.failed then retrain (put fun x => { x with failed := 0, lastBad := none })
    else put fun x => { x with failed := x.failed + 1, lastBad := some bits }

/-- A frame of a kind arrives: what the receiver does with its payload once its check has passed. -/
def receive (s : State) (toHost : Bool) (kind : Fin 8) (act : BitVec 17 → State → State) : State :=
  match arrival s.bar toHost kind with
  | .nothing => s
  | .bad bits => badCopy s toHost bits
  | .frame p => act p (takeShort s toHost)

/-! ### Verdicts and results (R180, R340, R354, R375) -/

/-- RESULT to the field die. -/
def sendResult (s : State) (start : Bool) (ctx outcome : Nat) : State :=
  sendShort s false 2 (BitVec.ofNat 17 (b2n start + 2 * ctx + 512 * outcome))

/-- A verdict answered with an outcome other than accepted. -/
def denyVerdict (s : State) (start : Bool) (ctx outcome : Nat) : State :=
  let s1 := irqSet s 15
  sendResult (if outcome = 2 then irqSet s1 3 else s1) start ctx outcome

/-- Argent's vehicle state allows the permit (R20, R355). -/
def vehicleAllows (v : VehicleState) : Bool := v.valid && !v.engineRun && v.standstill

/-- VERDICT_ENTRY (R180, R340). -/
def doVerdictEntry (s : State) : State :=
  receive s true 1 fun p t =>
    let ctx := bitsOf p 9 2
    if !t.bar.hostEnd.synced then denyVerdict t false ctx 2
    else sendResult { t with host := { t.host with pmt := { t.host.pmt with entryCtx := some (byte ctx) } } } false ctx 0

/-- VERDICT_START (R180, R340, R375): epoch, vehicle state, readback fault; else the waveform starts. -/
def doVerdictStart (s : State) : State :=
  receive s true 2 fun p t =>
    let ctx := bitsOf p 9 2
    if !t.bar.hostEnd.synced then denyVerdict t true ctx 2
    else if !vehicleAllows t.host.vs then denyVerdict t true ctx 1
    else if t.host.pmt.readbackFault then denyVerdict t true ctx 3
    else
      let t1 := irqSet { t with host := { t.host with pmt := { t.host.pmt with
        active := true, ctx := byte ctx, since := t.clock, fbNext := t.clock + 9504, wrong := 0 } } } 5
      sendResult (sendVStateIfChanged t1) true ctx 0

/-- The placement of a token in the running run, the run before it, or as tracked. DEDUCED, log 106. -/
def placeOf (s : State) (c : Fin 160) : Option Placement :=
  let inRun (r : Option Run) : Option Placement := (r.bind fun x => findTok x c).bind (·.placement)
  (inRun s.pres.run).or ((inRun s.pres.lastRun).or
    ((s.pres.tracked.find? fun (t : Tracked) => t.ctx == c).map (·.placement)))

/-- Eligible for a start: CONSISTENT, in zone 3 with ZONE_CONF = 1 (R171). -/
def startEligible (t : TokenRun) : Bool :=
  match t.placement with
  | some p => t.verdict = some .consistent && p.zone = 3 && p.zoneConf
  | none => false

/-- The other eligible tokens of the run that made a start winner eligible (R171). DEDUCED, log 106. -/
def coPresent (s : State) (c : Fin 160) : List (Fin 160) :=
  let has (r : Run) : Bool := r.toks.any fun t => startEligible t && t.ctx == c
  match (s.pres.run.filter has).or (s.pres.lastRun.filter has) with
  | some r => (r.toks.filter fun t => startEligible t && t.ctx != c).map (·.ctx)
  | none => []

/-- ENTRY_GRANT or START_GRANT: flags by GRANT and placement, DOORS, GRANT code, position (R213, R324, R325).
DEDUCED, log 106. -/
def grantEntry (s : State) (type : Nat) (f : VerdictFrame) (c : Fin 160) (co : Bool) : State :=
  let g := f.grant.toNat
  let pl := if g = 1 ∨ g = 2 then placeOf s c else none
  let flags := b2n (g == 4 || g == 5) + 2 * b2n co + 4 * b2n (g == 3) + 8 * b2n (match pl with
    | some p => p.degraded
    | none => false)
  let zone := match co, pl with
    | true, some p => p.zone.val
    | _, _ => f.zone.toNat
  ledgerAdd s type flags zone (some c) ([byte f.doors.toNat, f.grant] ++ posBytes (pl.bind (·.pos)))

/-- One START_GRANT marked co-present for each of a list of tokens (R171). -/
def coGrants (f : VerdictFrame) : List (Fin 160) → State → State
  | [], s => s
  | c :: cs, s => coGrants f cs (grantEntry s 2 f c true)

/-- An accepted entry verdict opens or widens the entry session (R174, R354). -/
def openEntry (s : State) (f : VerdictFrame) (c : Fin 160) : State :=
  let (id, doors) := match s.pres.entry with
    | some e => (e.id, e.doors ||| f.doors)
    | none => (s.ev.session, f.doors)
  let s1 := { s with
    pres := { s.pres with entry := some { id := id, doors := doors, deadline := now s + ticksPerSec * tEntry s, ctx := c } }
    ev := { s.ev with session := if s.pres.entry.isSome then s.ev.session else sessionAfter s.ev.session } }
  grantEntry (postEvent s1 3 .ok ([f.ctx, f.grant, f.zone, byte f.doors.toNat] ++ leBytes 2 id.toNat)) 1 f c false

/-- An accepted start verdict opens the start session and answers the pending request (R171, R175, R395). -/
def openStart (s : State) (f : VerdictFrame) (c : Fin 160) : State :=
  let id := s.ev.session
  let co := if f.grant.toNat = 2 then coPresent s c else []
  let pl := if f.grant.toNat = 2 then placeOf s c else none
  let s1 := { s with
    pres := { s.pres with
      start := some { id := id, ctx := c, deadline := now s + 15 * ticksPerSec }, startReq := none }
    ev := { s.ev with session := sessionAfter id }
    cmds := { s.cmds with startCtag := none } }
  let s2 := postEvent s1 4 .ok (leBytes 2 (s.cmds.startCtag.getD 0).toNat ++ [f.ctx, f.grant, f.zone, byte co.length] ++
    leBytes 2 id.toNat ++ posBytes (pl.bind (·.pos)) ++ [0])
  coGrants f co (grantEntry s2 2 f c false)

/-- The verdict that a RESULT answers, and the others. -/
def takeAwaiting (start : Bool) (ctx : Nat) : List VerdictFrame → Option (VerdictFrame × List VerdictFrame)
  | [] => none
  | f :: fs =>
    if startGrant f.grant.toNat == start && f.ctx.toNat == ctx then some (f, fs)
    else (takeAwaiting start ctx fs).map fun p => (p.1, f :: p.2)

/-- The field die's part of a RESULT (R174, R175, R354, R395). DEDUCED, log 106. -/
def resultIn (s : State) (start : Bool) (ctx outcome : Nat) : State :=
  match takeAwaiting start ctx s.bar.awaiting with
  | none => s
  | some (f, fs) =>
    let s1 := { s with bar := { s.bar with awaiting := fs } }
    match outcome with
    | 0 =>
      if h : ctx < 160 then (if start then openStart s1 f ⟨ctx, h⟩ else openEntry s1 f ⟨ctx, h⟩) else s1
    | 1 => if start then endStartReq s1 .policyDenied 8 else s1
    | 2 => if start then endStartReq s1 .epochMismatch 9 else s1
    | 3 => if start then endStartReq s1 .policyDenied 10 else s1
    | _ => s1

/-- RESULT (R354). DEDUCED, log 106. -/
def doResult (s : State) : State :=
  receive s false 2 fun p t => resultIn t (bitAt p.toNat 0) (bitsOf p 8 1) (bitsOf p 12 9)

/-! ### Vehicle state at the field die (R174, R175, R373, R482) -/

def vstateOf (p : BitVec 17) : VState :=
  { doors := BitVec.ofNat 4 p.toNat, engineRun := bitAt p.toNat 4, standstill := bitAt p.toNat 5
    ignition := bitAt p.toNat 6, valid := bitAt p.toNat 7, permitActive := bitAt p.toNat 16 }

/-- A door that VSTATE shows changed: a DOOR entry with source H_DOORn unless the state was known already (R325).
DEDUCED, log 105. -/
def doorSeen (old new : BitVec 4) (d : Fin 4) (s : State) : State :=
  let o := bitAt new.toNat d.val
  if bitAt old.toNat d.val = o ∨ s.cmds.doors[d] = some o then s
  else ledgerAdd { s with cmds := { s.cmds with doors := vset s.cmds.doors d (some o) } } 4 0 0 none
    [byte d.val, byte (b2n o), 0]

/-- An ENGINE entry at each change of the reported engine state (R175, R325, R482). DEDUCED, log 105. -/
def engineSeen (v : VState) (s : State) : State :=
  if !v.valid || s.cmds.engine == some v.engineRun then s
  else
    let s1 := { s with cmds := { s.cmds with engine := some v.engineRun } }
    if s.cmds.engine.isNone && !v.engineRun then s1
    else ledgerAdd s1 5 0 0 none [byte (b2n v.engineRun), byte (b2n s.host.vs.srcCan)]

/-- The field die takes a vehicle state: opening edges end an entry session, ENGINE or POLICY a start session.
DEDUCED, log 105. -/
def vstateIn (s : State) (p : BitVec 17) : State :=
  let v := vstateOf p
  let old := s.bar.vstate.doors
  let s1 := { s with bar := { s.bar with vstate := v } }
  let s2 := doorSeen old v.doors 3 (doorSeen old v.doors 2 (doorSeen old v.doors 1 (doorSeen old v.doors 0 s1)))
  let s3 := match s2.pres.entry with
    | some e => if v.doors &&& ~~~old &&& e.doors ≠ 0 then endEntry s2 1 0 else s2
    | none => s2
  let s4 := engineSeen v s3
  if v.valid && v.engineRun then stopStart s4 7 1
  else if !v.valid || !v.standstill then stopStart s4 8 3
  else s4

/-- VSTATE (R351). DEDUCED, log 105. -/
def doVstate (s : State) : State := receive s false 1 fun p t => vstateIn t p

/-! ### Heartbeats (R351, R355) -/

/-- A HEARTBEAT heard by an end. -/
def heard (s : State) (host : Bool) (alive : Byte) : State :=
  let e := endOf s.bar host
  let e1 := { e with heardAt := s.clock, silent := false }
  let e2 := if alive = e.rxAlive then e1 else { e1 with rxAlive := alive, rxAliveAt := s.clock }
  let s1 := { s with bar := setEnd s.bar host e2 }
  if host && alive != e.rxAlive then { s1 with bar := { s1.bar with stewardStall := false } } else s1

/-- HEARTBEAT (R351). -/
def doHeartbeat (toHost : Bool) (s : State) : State :=
  receive s toHost 3 fun p t =>
    if toHost then
      let t1 := heard t true (byte (bitsOf p 7 0))
      { t1 with host := { t1.host with fpstate := BitVec.ofNat 2 (bitsOf p 9 8) } }
    else releaseHeld (vstateIn (heard t false (byte (bitsOf p 15 8))) p)

/-- The HEARTBEAT payload of the field die (R340). -/
def fieldBeat (s : State) : BitVec 17 :=
  let ps := if s.keys.svcLock then 2 else if s.pwr.entering.isSome then 1 else 0
  BitVec.ofNat 17 (s.bar.fieldEnd.alive.toNat + 256 * ps + 1024 * b2n s.pres.start.isSome)

/-- HEARTBEAT_PERIOD (R351): t_HBPER after an end's last HEARTBEAT it sends the next; the host die counts its ALIVE up; the field
die sends none in Ash (R425). -/
def doHeartbeatPeriod (host : Bool) (s0 : State) : State :=
  if s0.bar.link = .up ∧ (host = true ∨ s0.pwr.pstate = .chalk) then
    let s := elapseToClock s0 ((endOf s0.bar host).beatAt + ticksPerMs)
    let e := endOf s.bar host
    if host then
      let e1 := { e with beatAt := s.clock, alive := e.alive + 1 }
      sendShort { s with bar := setEnd s.bar host e1 } false 3
        (vstatePayload s.host + BitVec.ofNat 17 (256 * e1.alive.toNat))
    else sendShort { s with bar := setEnd s.bar host { e with beatAt := s.clock } } true 3 (fieldBeat s)
  else s0

/-- HEARTBEAT_LOSS (R355, R425): t_HBLOSS after the last valid HEARTBEAT, unless the link sleeps; the field die notices in Chalk
alone, Argent whatever became of the field die. DEDUCED, log 103. -/
def doHeartbeatLoss (host : Bool) (s0 : State) : State :=
  if s0.bar.slept || (endOf s0.bar host).silent || (!host && s0.pwr.pstate != .chalk) then s0
  else
    let s := elapseToClock s0 ((endOf s0.bar host).heardAt + 3 * ticksPerMs)
    if host then fieldSilent s
    else stopStart { s with bar := { s.bar with fieldEnd := { s.bar.fieldEnd with silent := true } } } 9 4

/-- ALIVE_STALL (R355): the field's ALIVE unchanged for t_ALIVE while heartbeats arrive. DEDUCED, log 103. -/
def doAliveStall (s0 : State) : State :=
  if s0.bar.link ≠ .up || s0.bar.hostEnd.silent || s0.bar.stewardStall then s0
  else
    let s := elapseToClock s0 (s0.bar.hostEnd.rxAliveAt + 10 * ticksPerMs)
    permitStop (irqSet { s with bar := { s.bar with stewardStall := true } } 4) 9

/-! ### The authority epoch (R352) -/

/-- The decision on a pair at one end, by the table of R352: `o` is the other end's epoch. A draw waits while the TRNG
restarts or is out of service: the next pair brings it about. DEDUCED, log 100. -/
def decidePair (s : State) (host : Bool) (o : W32) : State :=
  let e := endOf s.bar host
  let put (t : State) (v : W32) : State := { t with bar := loadEpoch t.bar host v }
  if o = e.epoch then
    if o ≠ 0 then becomeSynced s host
    else if host || s.gq.trngOut || s.gq.trngRestart then s
    else
      let (n, s1) := drawNat s 0xFFFFFFFF
      sendPair (put s1 (BitVec.ofNat 32 (n + 1))) false
  else if o = 0 then (if e.synced then unsync s host else s)
  else if e.epoch = 0 then becomeSynced (sendPair (put s o) host) host
  else
    let s1 := if e.synced then unsync s host else s
    if host then irqSet (becomeSynced (sendPair (put s1 o) true) true) 3
    else { s1 with bar := { s1.bar with anomaly := true } }

/-- EPOCH (R352): a half arrives; with both halves the pair is decided. DEDUCED, log 100. -/
def doEpoch (toHost : Bool) (s : State) : State :=
  receive s toHost 4 fun p t =>
    let e := endOf t.bar toHost
    let half := BitVec.ofNat 16 p.toNat
    let e1 := if bitAt p.toNat 16 then { e with rxHi := some half } else { e with rxLo := some half }
    match e1.rxLo, e1.rxHi with
    | some lo, some hi =>
      decidePair { t with bar := setEnd t.bar toHost { e1 with rxLo := none, rxHi := none } } toHost
        (BitVec.ofNat 32 (lo.toNat + 65536 * hi.toNat))
    | _, _ => { t with bar := setEnd t.bar toHost e1 }

/-- EPOCH_PAIR_TIMER (R352): while UNSYNCED an end sends its pair every 100 µs. -/
def doEpochPairTimer (host : Bool) (s : State) : State :=
  if s.bar.link = .up ∧ (endOf s.bar host).synced = false then
    sendPair (elapseToClock s ((endOf s.bar host).pairAt + 3840)) host
  else s

/-! ### Credits, coexistence, permit control (R195 to R199, R340, R345) -/

/-- Records whose units Argent has returned leave the list of posted ones. DEDUCED, log 101. -/
def unitsBack : Nat → List (Post × Nat) → List (Post × Nat)
  | _, [] => []
  | n, (p, u) :: ps => if n < u then (p, u - n) :: ps else unitsBack (n - u) ps

/-- CREDIT (R345): the cumulative count of a pool, modulo 4,096. -/
def doCredit (toHost : Bool) (s : State) : State :=
  receive s toHost 5 fun p t =>
    let l := bulkLane t.bar (!toHost)
    let cum := BitVec.ofNat 12 (bitsOf p 13 2)
    if bitsOf p 1 0 = 1 then
      { t with bar := setBulk t.bar (!toHost) { l with backN := cum, creditN := Nat.min 8 (l.creditN + (cum - l.backN).toNat) } }
    else
      let n := (cum - l.backP).toNat
      let top := if toHost then 32 else 64
      let t1 := { t with bar := setBulk t.bar (!toHost) { l with backP := cum, creditP := Nat.min top (l.creditP + n) } }
      if toHost then bwriteGo t1
      else pump { t1 with cmds := { t1.cmds with posted := unitsBack n t1.cmds.posted } }

/-- COEX_REQ_FRAME (R196): Argent drives the pins. -/
def doCoexReqFrame (s : State) : State :=
  receive s true 6 fun p t =>
    { t with tn := { t.tn with coex := Vector.ofFn fun i : Fin 2 =>
        { t.tn.coex[i] with reqPin := bitAt p.toNat i.val, priPin := bitAt p.toNat (2 + i.val) } } }

/-- COEX_GNT_FRAME (R197): the grants as the field side hears them; one withdrawn stops what runs under it. -/
def doCoexGntFrame (s : State) : State :=
  receive s false 6 fun p t =>
    grantsChecked { t with tn := { t.tn with
      coex := Vector.ofFn fun i : Fin 2 => { t.tn.coex[i] with gnt := bitAt p.toNat i.val } } }

/-- LAST_END of a PERMIT_STOP's reason (R340, R370). -/
def lastEndOf (reason : Nat) : Nat := if reason ≤ 3 then reason else reason + 1

/-- Whether the next frame of a lane is CONTROL with an OP. -/
def controlNext (s : State) (toHost : Bool) (op : Nat) : Bool :=
  match nextShort (prioLane s.bar toHost) with
  | some (_, f) => f.kind = 7 && bitsOf f.payload 3 0 == op
  | none => false

/-- PERMIT_STOP (R374). -/
def doPermitStop (s : State) : State :=
  if controlNext s true 1 then receive s true 7 fun p t => permitStop t (lastEndOf (bitsOf p 7 4)) else s

/-- PERMIT_ENDED (R355): the start session ends as Argent reports. -/
def doPermitEnded (s : State) : State :=
  if controlNext s false 1 then receive s false 7 fun p t =>
    match bitsOf p 7 4 with
    | 1 => endStart t 7
    | 2 => endStart t 2
    | 3 => endStart t 8
    | 4 => endStart t 10
    | _ => t
  else s

/-- SLEEP (R350): sent by either die and acknowledged. -/
def doSleep (byHost : Bool) (s : State) : State :=
  if byHost || s.pwr.entering.isSome then grantsChecked (linkSleep s) else s

/-- RETRAIN (R350, R356): a CONTROL RETRAIN sent by either die; both together make one retrain. -/
def doRetrain (s : State) : State := retrain s

/-! ### Acknowledgement (R343) -/

/-- Position of the frame that an ACK of LANE 0 names: KIND, SEQ and CHECK [10:0]. DEDUCED, log 102. -/
def ackedAt (l : PrioLane) (p : BitVec 17) (needCheck : Bool) : Option (Nat × ShortFrame) :=
  (l.frames.zipIdx.find? fun x => x.1.kind.val == bitsOf p 4 2 && x.1.seq == bitAt p.toNat 5 &&
    (!needCheck || x.1.check.toNat % 2048 == bitsOf p 16 6)).map fun x => (x.2, x.1)

/-- Bulk frames taken up to a SEQ leave the replay buffer; the rest. -/
def bulkAcked (seq : Byte) (l : List BulkFrame) : List BulkFrame :=
  match l.findIdx? fun f => f.seq == seq && f.taken with
  | some i => l.drop (i + 1)
  | none => l

/-- ACK (R343): the frames that the receiver of `!toHost` has taken leave their lane. -/
def doAck (toHost : Bool) (payload : BitVec 17) (s : State) : State :=
  if bitAt payload.toNat 1 || s.bar.link ≠ .up then s
  else if bitAt payload.toNat 0 then
    let l := bulkLane s.bar (!toHost)
    let rest := bulkAcked (byte (bitsOf payload 9 2)) l.frames
    let gone := l.frames.take (l.frames.length - rest.length)
    let s1 := { s with bar := setBulk s.bar (!toHost) { l with frames := rest } }
    if toHost then { s1 with host := { s1.host with stageLeft := s1.host.stageLeft - (gone.filter stageFrame).length } }
    else pump s1
  else
    let l := prioLane s.bar (!toHost)
    match ackedAt l payload true with
    | some (i, f) =>
      if f.taken && !f.mismatch then { s with bar := setPrio s.bar (!toHost) (dropShort l i) } else s
    | none => s

/-- A verdict frame that its receiver discarded on an epoch mismatch: the verdict is discarded, a pending start
request refused (R354, R356). DEDUCED, log 102. -/
def discardVerdict (s : State) (f : ShortFrame) : State :=
  match takeAwaiting (f.kind = 2) (bitsOf f.payload 9 2) s.bar.awaiting with
  | none => s
  | some (v, fs) =>
    let s1 := { s with bar := { s.bar with awaiting := fs } }
    if startGrant v.grant.toNat then endStartReq s1 .epochMismatch 9 else s1

/-- NAK (R343, R353): the frame goes again, which changes no state, unless its receiver discarded it on an epoch
mismatch: then the sender discards it too and enters UNSYNCED. DEDUCED, log 102. -/
def doNak (toHost : Bool) (payload : BitVec 17) (s : State) : State :=
  if !bitAt payload.toNat 1 || bitAt payload.toNat 0 || s.bar.link ≠ .up then s
  else
    let l := prioLane s.bar (!toHost)
    match ackedAt l payload false with
    | some (i, f) =>
      if f.mismatch then
        let s1 := { s with bar := setPrio s.bar (!toHost) (dropShort l i) }
        mismatchAt (if isVerdict (!toHost) f.kind.val then discardVerdict s1 f else s1) toHost
      else s
    | none => s

/-- ACK_TIMEOUT (R343, R350): the oldest frame of a lane goes again; after four copies the link retrains.
DEDUCED, log 102. -/
def doAckTimeout (toHost bulk : Bool) (s : State) : State :=
  if s.bar.link ≠ .up then s
  else if bulk then
    let l := bulkLane s.bar toHost
    match l.frames with
    | f :: fs =>
      if 3 ≤ f.failed then retrain s
      else { s with bar := setBulk s.bar toHost { l with frames := { f with failed := f.failed + 1 } :: fs } }
    | [] => s
  else
    let l := prioLane s.bar toHost
    match l.frames with
    | f :: fs =>
      if 3 ≤ f.failed then retrain s
      else { s with bar := setPrio s.bar toHost { l with frames := { f with failed := f.failed + 1 } :: fs } }
    | [] => s

/-- The received bits of a copy pass the check under an epoch (R339, R341). -/
def bitsPass (epoch : W32) (b : BitVec 38) : Bool :=
  BitVec.ofNat 16 (bitsOf b 37 22) == shortCheck epoch (bitsOf b 3 1) (bitAt b.toNat 4) (BitVec.ofNat 17 (bitsOf b 21 5))

/-- FRAME_CHECK_FAIL (R343, R353): the next copy of a lane arrives with the bits of `noise` turned and fails its check. -/
def doFrameCheckFail (toHost bulk : Bool) (noise : BitVec 38) (s : State) : State :=
  if s.bar.link ≠ .up then s
  else if bulk then
    let l := bulkLane s.bar toHost
    match nextBulk l with
    | some (i, f) =>
      if bulkPass f noise then s
      else if 3 ≤ f.failed then retrain s
      else { s with bar := setBulk s.bar toHost { l with
        frames := l.frames.zipIdx.map fun p => if p.2 == i then { p.1 with failed := p.1.failed + 1 } else p.1 } }
    | none => s
  else
    match nextShort (prioLane s.bar toHost) with
    | some (i, f) =>
      let bits := shortImage f ^^^ noise
      if onWire toHost i f && !bitsPass (receiverEnd s.bar toHost).epoch bits then badCopy s toHost bits else s
    | none => s

/-! ### Bulk frames (R342, R345, R348, R367, R369) -/

/-- `n` bytes of the posted-write buffer from an offset in a unit, wrapping at its end. -/
def rxBytes (m : Mem) (unit off n : Nat) : Bytes := (List.range n).map fun i => memRead m ((64 * unit + off + i) % 4096)

/-- Credits of released units returned in ring order (R369). -/
def freeUnits : Nat → State → State
  | 0, s => s
  | k + 1, s =>
    match s.host.rxq with
    | r :: rs =>
      if r.released then freeUnits k (returnCredit { s with host := { s.host with rxq := rs } } true false r.units) else s
    | [] => s

/-- TP.CM of a transfer of `n` bytes on PGN 0x00EF00: BAM, or RTS in connection mode (SAE J1939-21).
PRESUMED, log 17. -/
def tpCm (cm : Bool) (n : Nat) : Bytes :=
  [if cm then 0x10 else 0x20] ++ leBytes 2 n ++ [byte (ceilDiv n 7), 0xFF, 0x00, 0xEF, 0x00]

/-- A CANX record in Argent's transport buffer: its transfer begins; one without an entry refuses the request (R378).
DEDUCED, log 108. -/
def canxIn (s : State) (payload : Bytes) : State :=
  match s.host.can.xfer with
  | none => s
  | some x =>
    let c := s.host.can
    if byteAt payload 12 = 0 then { s with host := { s.host with can := { c with xfer := none, ackSent := some 1 } } }
    else { s with host := { s.host with can := { c with
      xfer := some { x with record := some payload, lastAt := s.clock }, packet := tpCm x.cm payload.length } } }

/-- The last record of the buffer is complete: visible with RX_AVAIL, or taken by the transport (R369). -/
def recordIn (s : State) (r : RxRecord) (before : List RxRecord) : State :=
  let len := leNat (rxBytes s.host.rxqMem r.unit 2 2)
  let r1 := { r with payload := rxBytes s.host.rxqMem r.unit 8 len, visible := r.kind != 4, released := r.kind == 4 }
  let s1 := { s with host := { s.host with rxq := before ++ [r1] } }
  if r.kind = 4 then canxIn (freeUnits s1.host.rxq.length s1) r1.payload else irqSet s1 0

/-- A WRITE into the posted-write buffer: the header of a new record, or a further unit of the last one. -/
def unitIn (s0 : State) (a : Nat) (data : Bytes) : State :=
  let s := { s0 with host := { s0.host with rxqMem := memWriteBytes s0.host.rxqMem a (data.take 64) } }
  let u := a / 64
  match s.host.rxq.getLast? with
  | some r =>
    if !r.visible && !r.released then
      if (u + 64 - r.unit) % 64 + 1 = r.units then recordIn s r s.host.rxq.dropLast else s
    else newRecord s u
  | none => newRecord s u
where
  /-- A record begins at a unit. -/
  newRecord (s : State) (u : Nat) : State :=
    let h := rxBytes s.host.rxqMem u 0 8
    let n := recordUnits (leAt h 2 2)
    let r : RxRecord := { kind := h.getD 0 0, slot := h.getD 1 0, offset := BitVec.ofNat 16 (leAt h 4 2)
                          last := bitAt (byteAt h 6) 0, seq := h.getD 7 0, payload := [], unit := u, units := n }
    let s1 := { s with host := { s.host with rxqTail := (u + n) % 64 } }
    if n = 1 then recordIn s1 r s1.host.rxq else { s1 with host := { s1.host with rxq := s1.host.rxq ++ [r] } }

/-- The steward's answer to a CAN ledger request: a CANX record of header and entries present in the range (R331, R378); in the
XO fallback it serves none (R403). DEDUCED, log 108. -/
def canRequest (s0 : State) (d : Bytes) : State :=
  if s0.clk.fallback then s0
  else
    let first := leAt d 1 4
    let n := byteAt d 5
    let es := (ledgerFrom s0 first n).filter fun e => decide (e.index.toNat < first + n)
    let (flags, s) := drawBytes s0 1
    pump (postRecord s 4 0 (serialBytes s ++ leBytes 4 first ++ [byte es.length] ++ flags ++ [0, 0] ++ es.flatMap (·.data)))

/-- A WRITE at the field die, by address (R367, R381). -/
def fieldWrite (s : State) (a : Nat) (d : Bytes) : State :=
  if a < 0x1000 then { s with cmds := { s.cmds with slots := memWriteBytes s.cmds.slots a (d.take (0x1000 - a)) } }
  else if a = 0x1000 then
    let w := leAt d 0 4
    let slot : Fin 16 := Fin.ofNat 16 (w % 16)
    { s with
      pwr := { s.pwr with idle := false }
      cmds := { s.cmds with queue := s.cmds.queue ++
        [{ slot := slot, bytes := memReadBytes s.cmds.slots (256 * slot.val) (w / 16 % 512) }] } }
  else if a = 0x1010 then { s with cmds := { s.cmds with odo := BitVec.ofNat 32 (leAt d 0 4) } }
  else if a = 0x1020 then canRequest s d
  else if 0x01000000 ≤ a then bridgeWrite s (a - 0x01000000) (BitVec.ofNat 32 (leAt d 0 4))
  else s

/-- BULK_WRITE (R342, R345): the receiver takes the data; the field die returns its credit at once.
DEDUCED, log 109. -/
def doBulkWrite (toHost : Bool) (s : State) : State :=
  match bulkArrival s.bar toHost .write with
  | none => s
  | some f =>
    let s1 := takeBulk s toHost
    if toHost then (if f.data.isEmpty then returnCredit s1 true false 1 else unitIn s1 f.addr.toNat f.data)
    else
      let s2 := returnCredit s1 false false 1
      if f.data.isEmpty then s2 else fieldWrite s2 f.addr.toNat f.data

/-- BULK_READ (R342, R348, R371): the field side answers with a COMPLETION and returns the N credit. -/
def doBulkRead (s : State) : State :=
  match bulkArrival s.bar false .read with
  | none => s
  | some f =>
    let s1 := returnCredit (takeBulk s false) false true 1
    let a := f.addr.toNat - 0x01000000
    let fail (st : Status) : State := sendBulk s1 true .completion f.tag (BitVec.ofNat 32 (statusCode st).toNat) []
    if f.addr.toNat < 0x01000000 then s1
    else if s.bar.rcd.any fun c => c.addr == a then fail .retry
    else match (if f.data.isEmpty then none else bridgeWords s1 a (f.data.length / 4)) with
      | none => fail .paramRange
      | some d =>
        let s2 := sendBulk s1 true .completion f.tag 0 d
        if bridgeRcd a then { s2 with bar := { s2.bar with
          rcd := s2.bar.rcd ++ [{ tag := f.tag, addr := a, value := BitVec.ofNat 32 (leNat d), since := s2.clock }] } }
        else s2

/-- BULK_COMPLETION (R348, R362): Argent holds the data for collection. -/
def doBulkCompletion (s : State) : State :=
  match bulkArrival s.bar true .completion with
  | none => s
  | some f =>
    let s1 := takeBulk s true
    let put (r : BridgeRead) : BridgeRead :=
      if r.tag == f.tag && r.done.isNone then { r with done := some (BitVec.ofNat 16 f.addr.toNat, f.data), since := s1.clock } else r
    { s1 with host := { s1.host with bridge := s1.host.bridge.map put } }

/-- RCD_RESOLVE (R348): the delivered bits of the delivered bytes clear. -/
def doRcdResolve (s : State) : State :=
  match bulkArrival s.bar false .rcdResolve with
  | none => s
  | some f =>
    let s1 := takeBulk s false
    match s1.bar.rcd.find? fun c => c.tag == f.tag with
    | none => s1
    | some c =>
      anomClear { s1 with bar := { s1.bar with rcd := s1.bar.rcd.filter fun x => x.tag != f.tag } } c.value (bitsOf f.addr 3 0)

/-- RCD_RESOLVE_DEADLINE (R348): t_RESOLVE after the copy; nothing is cleared. -/
def doRcdResolveDeadline (s0 : State) : State :=
  match s0.bar.rcd with
  | [] => s0
  | c :: cs =>
    let s := elapseToClock s0 (c.since + ticksPerMs)
    { s with bar := { s.bar with rcd := cs } }

/-! ### The link (R349, R350) -/

/-- LANES_ALIGNED (R350): UP, with resynchronisation unless it was a retrain. -/
def doLanesAligned (s : State) : State :=
  if s.bar.link = .training ∧ s.clock ≤ s.bar.trainSince + 1920 then
    if s.bar.retrain then pump (irqSet { s with bar := { s.bar with link := .up, retrain := false } } 1) else upFromDown s
  else s

/-- LANE_ALIGNMENT_LOSS (R350). -/
def doLaneAlignmentLoss (s : State) : State := retrain s

/-- LINK_TRAIN_TIMEOUT (R199, R350, R355): t_LINKUP passes; a retrain that fails has lost the link without SLEEP.
DEDUCED, log 103. -/
def doLinkTrainTimeout (s0 : State) : State :=
  if s0.bar.link = .training then
    let since := s0.bar.trainSince
    let s := elapseToClock s0 (since + 1920)
    let s1 := grantsChecked (linkDown s false)
    let s2 := { s1 with bar := { s1.bar with trainSince := since } }
    if s.bar.retrain then fieldSilent s2 else s2
  else s0

/-- LINK_TRAIN_START (R350): S13, entry into Chalk, or Argent out of reset. -/
def doLinkTrainStart (s : State) : State :=
  if s.bar.link = .down && linkPowered s then startTraining s else s

/-- LINK_RETRY_TIMER (R350, R355): 1 ms after the last attempt, from DOWN, or from UP in FIELD_SILENT.
DEDUCED, log 103. -/
def doLinkRetryTimer (s0 : State) : State :=
  if !linkPowered s0 || s0.bar.slept then s0
  else
    let s := elapseToClock s0 (s0.bar.trainSince + ticksPerMs)
    match s.bar.link with
    | .down => startTraining s
    | .up => if s.bar.hostEnd.silent then retrain s else s
    | .training => s

/-- Whether the field die has something to deliver (R349). -/
def toDeliver (s : State) : Bool := !s.cmds.outbox.isEmpty || !s.ev.ring.isEmpty

/-- H_WAKE_PULSE (R349): pulses 10 ms apart while the link is not UP, none from 100 ms after the first.
DEDUCED, log 104. -/
def doHWakePulse (s0 : State) : State :=
  if s0.bar.link = .up || s0.pwr.pstate ≠ .chalk || !toDeliver s0 then s0
  else match s0.bar.wakeFrom with
    | none => { s0 with bar := { s0.bar with wakeFrom := some s0.clock, wakes := 1 } }
    | some t =>
      if 10 ≤ s0.bar.wakes then s0
      else
        let s := elapseToClock s0 (t + 10 * ticksPerMs * s0.bar.wakes)
        { s with bar := { s.bar with wakes := s.bar.wakes + 1 } }

/-! ### Permit backstop, held verdicts, host-die reset (R354 to R356, R379) -/

/-- PERMIT_BACKSTOP_TIMEOUT (R355): 15 s after the start was accepted. -/
def doPermitBackstopTimeout (s0 : State) : State :=
  if s0.host.pmt.active then permitEndedByHost (elapseToClock s0 (s0.host.pmt.since + 15 * ticksPerSec)) 2 2 else s0

/-- ENTRY_VERDICT_DISCARD (R354): 2 s without SYNCED. -/
def doEntryVerdictDiscard (s0 : State) : State :=
  match s0.bar.heldEntry with
  | [] => s0
  | p :: ps =>
    let s := elapseTo s0 (p.2 + 2 * ticksPerSec)
    { s with
      bar := { s.bar with heldEntry := ps }
      bg := { s.bg with pu := { s.bg.pu with vDiscard := satInc s.bg.pu.vDiscard } } }

/-- HOST_DIE_RESET (R199, R352, R356, R370, R379): every register of Argent at its reset value, the host epoch 0, replay
state lost; the field die discards its unacknowledged host-bound frames and posts its records again after SYNCED.
DESIGN CHOICE, log 107. -/
def doHostDieReset (s : State) : State :=
  let s1 := { s with
    host := { revision := s.host.revision }
    bar := { s.bar with
      link := .down, retrain := false, slept := false, trainSince := s.clock
      hostEnd := {}, stewardStall := false
      toHost := {}, toField := {}, bulkToHost := { creditP := 64 }, bulkToField := { creditP := 32, creditN := 8 }
      awaiting := [] }
    cmds := { s.cmds with
      outbox := s.cmds.posted.map (·.1) ++ s.cmds.outbox, posted := [], unitAt := 0, repostWait := true } }
  let s2 := grantsChecked (coexPinsLow s1)
  if s.bar.awaiting.any fun f => startGrant f.grant.toNat then endStartReq s2 .epochMismatch 9 else s2

/-! ### The commands of this file -/

/-- VERDICT_ENTRY (R180). -/
def execVerdictEntry (s : State) : Host.Outcome State Fault Refusal :=
  done s (doVerdictEntry s)

/-- VERDICT_START (R180). -/
def execVerdictStart (s : State) : Host.Outcome State Fault Refusal :=
  done s (doVerdictStart s)

/-- VSTATE (R351). -/
def execVstate (s : State) : Host.Outcome State Fault Refusal :=
  done s (doVstate s)

/-- RESULT (R354). -/
def execResult (s : State) : Host.Outcome State Fault Refusal :=
  done s (doResult s)

/-- HEARTBEAT (R351). -/
def execHeartbeat (toHost : Bool) (s : State) : Host.Outcome State Fault Refusal :=
  done s (doHeartbeat toHost s)

/-- EPOCH (R352). -/
def execEpoch (toHost : Bool) (s : State) : Host.Outcome State Fault Refusal :=
  done s (doEpoch toHost s)

/-- CREDIT (R345). -/
def execCredit (toHost : Bool) (s : State) : Host.Outcome State Fault Refusal :=
  done s (doCredit toHost s)

/-- COEX_REQ_FRAME (R196). -/
def execCoexReqFrame (s : State) : Host.Outcome State Fault Refusal :=
  done s (doCoexReqFrame s)

/-- COEX_GNT_FRAME (R197). -/
def execCoexGntFrame (s : State) : Host.Outcome State Fault Refusal :=
  done s (doCoexGntFrame s)

/-- PERMIT_STOP (R175). -/
def execPermitStop (s : State) : Host.Outcome State Fault Refusal :=
  done s (doPermitStop s)

/-- PERMIT_ENDED (R355). -/
def execPermitEnded (s : State) : Host.Outcome State Fault Refusal :=
  done s (doPermitEnded s)

/-- SLEEP (R350). -/
def execSleep (byHost : Bool) (s : State) : Host.Outcome State Fault Refusal :=
  done s (doSleep byHost s)

/-- RETRAIN (R350). -/
def execRetrain (s : State) : Host.Outcome State Fault Refusal :=
  done s (doRetrain s)

/-- ACK (R343). -/
def execAck (toHost : Bool) (payload : BitVec 17) (s : State) : Host.Outcome State Fault Refusal :=
  done s (doAck toHost payload s)

/-- NAK (R343). -/
def execNak (toHost : Bool) (payload : BitVec 17) (s : State) : Host.Outcome State Fault Refusal :=
  done s (doNak toHost payload s)

/-- BULK_WRITE (R342). -/
def execBulkWrite (toHost : Bool) (s : State) : Host.Outcome State Fault Refusal :=
  done s (doBulkWrite toHost s)

/-- BULK_READ (R342). -/
def execBulkRead (s : State) : Host.Outcome State Fault Refusal :=
  done s (doBulkRead s)

/-- BULK_COMPLETION (R348). -/
def execBulkCompletion (s : State) : Host.Outcome State Fault Refusal :=
  done s (doBulkCompletion s)

/-- RCD_RESOLVE (R348). -/
def execRcdResolve (s : State) : Host.Outcome State Fault Refusal :=
  done s (doRcdResolve s)

/-- ACK_TIMEOUT (R343). -/
def execAckTimeout (toHost : Bool) (bulk : Bool) (s : State) : Host.Outcome State Fault Refusal :=
  done s (doAckTimeout toHost bulk s)

/-- HEARTBEAT_PERIOD (R351). -/
def execHeartbeatPeriod (host : Bool) (s : State) : Host.Outcome State Fault Refusal :=
  done s (doHeartbeatPeriod host s)

/-- HEARTBEAT_LOSS (R355). -/
def execHeartbeatLoss (host : Bool) (s : State) : Host.Outcome State Fault Refusal :=
  done s (doHeartbeatLoss host s)

/-- ALIVE_STALL (R355). -/
def execAliveStall (s : State) : Host.Outcome State Fault Refusal :=
  done s (doAliveStall s)

/-- EPOCH_PAIR_TIMER (R352). -/
def execEpochPairTimer (host : Bool) (s : State) : Host.Outcome State Fault Refusal :=
  done s (doEpochPairTimer host s)

/-- LANES_ALIGNED (R350). -/
def execLanesAligned (s : State) : Host.Outcome State Fault Refusal :=
  done s (doLanesAligned s)

/-- LANE_ALIGNMENT_LOSS (R350). -/
def execLaneAlignmentLoss (s : State) : Host.Outcome State Fault Refusal :=
  done s (doLaneAlignmentLoss s)

/-- LINK_TRAIN_TIMEOUT (R350). -/
def execLinkTrainTimeout (s : State) : Host.Outcome State Fault Refusal :=
  done s (doLinkTrainTimeout s)

/-- LINK_TRAIN_START (R350). -/
def execLinkTrainStart (s : State) : Host.Outcome State Fault Refusal :=
  done s (doLinkTrainStart s)

/-- H_WAKE_PULSE (R349). -/
def execHWakePulse (s : State) : Host.Outcome State Fault Refusal :=
  done s (doHWakePulse s)

/-- PERMIT_BACKSTOP_TIMEOUT (R355). -/
def execPermitBackstopTimeout (s : State) : Host.Outcome State Fault Refusal :=
  done s (doPermitBackstopTimeout s)

/-- RCD_RESOLVE_DEADLINE (R348). -/
def execRcdResolveDeadline (s : State) : Host.Outcome State Fault Refusal :=
  done s (doRcdResolveDeadline s)

/-- ENTRY_VERDICT_DISCARD (R354). -/
def execEntryVerdictDiscard (s : State) : Host.Outcome State Fault Refusal :=
  done s (doEntryVerdictDiscard s)

/-- HOST_DIE_RESET (R352). -/
def execHostDieReset (s : State) : Host.Outcome State Fault Refusal :=
  done s (doHostDieReset s)

/-- FRAME_CHECK_FAIL (R353). -/
def execFrameCheckFail (toHost : Bool) (bulk : Bool) (noise : BitVec 38) (s : State) : Host.Outcome State Fault Refusal :=
  done s (doFrameCheckFail toHost bulk noise s)

/-- LINK_RETRY_TIMER (R350). -/
def execLinkRetryTimer (s : State) : Host.Outcome State Fault Refusal :=
  done s (doLinkRetryTimer s)

end Sys2Proof.Machine
end

