-- ==== Sys2Proof/Machine/Registers.lean ====
section
/-! DEFINITION. Steward writes to the field-side registers that have no row of their own: access codes RW, W1C and
W1S applied, and the conditions under which a write is ignored (R5, R6, R39, R92, R157, R201, R228, R262, R292, R333,
R409, R428). -/

namespace Sys2Proof.Machine

open Sys2Proof

/-- A program memory word pair written; the byte offset counts from the memory's base. DEDUCED, log 113. -/
def progWrite (m : Mem) (off : Nat) (v : W32) : Mem := memWriteBytes m off (leBytes 4 v.toNat)

/-- A word of a launch-table entry (R37). -/
def entryWord (e : LaunchEntry) (w : Nat) (v : W32) : LaunchEntry :=
  match w with
  | 0 => { e with tickLo := v }
  | 1 => { e with tickHi := v }
  | 2 => { e with count := fld v 31 24 8, period := fld v 23 0 24 }
  | 3 => { e with arg := fld v 31 16 16, fine := fld v 15 5 11 }
  | 4 => { e with
      island := fld v 31 29 3, action := fld v 28 25 4, prio := fld v 24 23 2, lateOk := bitAt v.toNat 22
      tx := bitAt v.toNat 21, trig := bitAt v.toNat 20, link := fld v 19 13 7, coex := fld v 12 11 2 }
  | _ => e

/-- Celeste: CEL_STATUS.ENTRY_WE, CEL_CMD, launch-table entries (ignored while active, R39), move descriptors.
DEDUCED, log 113. -/
def celWrite (off : Nat) (v : W32) (s : State) : State :=
  if off = 0x008 then (if bitAt v.toNat 3 then { s with cel := { s.cel with entryWe := false } } else s)
  else if off = 0x00C then celCmdWrite v s
  else if h : 0x400 ≤ off ∧ off < 0xE00 then
    let n : Fin 128 := ⟨(off - 0x400) / 20, Nat.div_lt_of_lt_mul (Nat.sub_lt_left_of_lt_add h.1 h.2)⟩
    if entryActive (entryOf s n) then { s with cel := { s.cel with entryWe := true } }
    else modEntry s n fun e => entryWord e ((off - 0x400) % 20 / 4) v
  else if 0xE00 ≤ off ∧ off < 0xF00 then
    { s with cel := { s.cel with moves := vmodN s.cel.moves ((off - 0xE00) / 8) fun m =>
        if off % 8 = 0 then { m with src := fld v 7 0 8, dst := fld v 15 8 8, len := fld v 31 16 16 }
        else { m with offset := fld v 15 0 16 } } }
  else s

/-- A channel's LF_CH_TUNE (R92): TRIM outside −64 to +64 is ignored, CAP exists on LF0 to LF3. -/
def tuneWrite (c : Fin 12) (v : W32) (x : LfChannel) : LfChannel :=
  let t := s8 (bitsOf v 7 0)
  { x with
    trim := if -64 ≤ t ∧ t ≤ 64 then t else x.trim
    cap := if c.val < 4 then fld v 10 8 3 else x.cap
    phComp := s8 (bitsOf v 18 11) }

/-- Vert (R91, R92). DEDUCED, log 113. -/
def vertWrite (off : Nat) (v : W32) (s : State) : State :=
  let put (x : Vert) : State := { s with vert := x }
  let k := s.vert
  if off = 0x000 then (if bitAt v.toNat 2 then put { k with tuneWe := false } else s)
  else if off = 0x004 then lfPopWrite (fld v 11 0 12) s
  else if off = 0x008 then put { k with svc := k.svc ||| (fld v 11 0 12 &&& k.pop) }
  else if off = 0x00C then put { k with event := k.event &&& ~~~(fld v 11 0 12) }
  else if off = 0x010 then
    let f := bitsOf v 15 0
    if 8000 ≤ f ∧ f ≤ 60000 then put { k with nomFreq := fld v 15 0 16 } else s
  else if h : 0x080 ≤ off ∧ off < 0x0B0 then
    let c : Fin 12 := ⟨(off - 0x080) / 4, Nat.div_lt_of_lt_mul (Nat.sub_lt_left_of_lt_add h.1 h.2)⟩
    if seqRuns s .vert then put { k with tuneWe := true }
    else markDirty (put { k with ch := vmod k.ch c (tuneWrite c v) }) calLf
  else if 0x800 ≤ off ∧ off < 0xC00 then
    if seqRuns s .vert then s else put { k with prog := progWrite k.prog (off - 0x800) v }
  else if 0xC00 ≤ off ∧ off < 0xC20 then put { k with buf := memWriteBytes k.buf (off - 0xC00) (leBytes 4 v.toNat) }
  else s

/-- Azure (R157): AZ_DLY and AZ_PROG are ignored while a program runs. DEDUCED, log 113. -/
def azWrite (off : Nat) (v : W32) (s : State) : State :=
  let put (x : Azure) : State := { s with az := x }
  let k := s.az
  if off = 0x000 then (if bitAt v.toNat 3 then put { k with progWe := false } else s)
  else if off = 0x004 then azPopWrite (fld v 5 0 6) s
  else if off = 0x008 then put { k with svc := k.svc ||| fld v 5 0 6 }
  else if off = 0x00C then put { k with event := k.event &&& ~~~(fld v 5 0 6) }
  else if 0x060 ≤ off ∧ off < 0x078 then
    if seqRuns s .azure then put { k with progWe := true }
    else markDirty (put { k with ports := vmodN k.ports ((off - 0x060) / 4) fun p =>
      { p with txDly := fld v 15 0 16, rxDly := fld v 31 16 16 } }) calUwb
  else if 0x080 ≤ off ∧ off < 0x0C0 then
    put { k with phy := vmodN k.phy ((off - 0x080) / 8) fun p => phyPut p (decide (off % 8 = 4)) v }
  else if 0x800 ≤ off ∧ off < 0xC00 then
    if seqRuns s .azure then put { k with progWe := true } else put { k with prog := progWrite k.prog (off - 0x800) v }
  else s

/-- A 16-byte tag key with one word of it written (R228). -/
def tagKeyWord (k : Option Bytes) (off : Nat) (v : W32) : Option Bytes :=
  some (overlay (k.getD (zeros 16)) off (leBytes 4 v.toNat))

/-- The yard tag's registers; TAG_KEY in privileged mode only (R228). DEDUCED, log 113. -/
def tagRegWrite (off : Nat) (v : W32) (s : State) : State :=
  if off = 0x300 then (if bitAt v.toNat 3 then { s with tag := { s.tag with tagFault := false } } else s)
  else if 0x340 ≤ off ∧ off < 0x370 ∧ s.gq.privileged = true then
    let o := off % 16
    match (off - 0x340) / 16 with
    | 0 => { s with tag := { s.tag with kRid := tagKeyWord s.tag.kRid o v } }
    | 1 => { s with tag := { s.tag with key0 := tagKeyWord s.tag.key0 o v } }
    | _ => { s with tag := { s.tag with key1 := tagKeyWord s.tag.key1 o v } }
  else s

/-- The HF reader's registers (R228). DEDUCED, log 113. -/
def hfRegWrite (off : Nat) (v : W32) (s : State) : State :=
  let k := s.hf
  if off = 0x200 then
    { s with hf := { k with detect := k.detect && !bitAt v.toNat 2, done := k.done && !bitAt v.toNat 3 } }
  else if off = 0x208 then { s with hf := { k with thrA := fld v 7 0 8, thrPh := fld v 15 8 8 } }
  else if off = 0x210 then { s with hf := { k with txLen := fld v 7 0 8 } }
  else if 0x240 ≤ off ∧ off < 0x280 then
    { s with hf := { k with txbuf := memWriteBytes k.txbuf (off - 0x240) (leBytes 4 v.toNat) } }
  else s

/-- Tenné (R201); TN_UTX_CTRL with GO = 1 is UTX_GO. A write with GO = 0, or of TN_UTX_NB or TN_UTX_DL, changes a pending transmit's
fields; a pending transmit, one that only waits too, keeps TN_CHAN. DEDUCED, log 113. DESIGN CHOICE, log 191. -/
def tnWrite (off : Nat) (v : W32) (s : State) : State :=
  let put (x : Tenne) : State := { s with tn := x }
  let k := s.tn
  if off = 0x000 then (if bitAt v.toNat 4 then put { k with progWe := false } else s)
  else if off = 0x004 then (if bitAt v.toNat 15 then utxGo v s else put { k with utx := utxFields k.utx v })
  else if off = 0x008 then put { k with utx := { k.utx with nb := v } }
  else if off = 0x00C then put { k with utx := { k.utx with dl := v } }
  else if 0x040 ≤ off ∧ off < 0x080 then
    if seqRuns s .tenne || k.utx.phase != .idle then put { k with progWe := true }
    else put { k with chan := vmodN k.chan ((off - 0x040) / 8) fun c => chanWord c (decide (off % 8 = 4)) v }
  else if 0x800 ≤ off ∧ off < 0xA00 then
    if seqRuns s .tenne then put { k with progWe := true } else put { k with prog := progWrite k.prog (off - 0x800) v }
  else if 0x200 ≤ off ∧ off < 0x300 then hfRegWrite off v s
  else if 0x300 ≤ off ∧ off < 0x400 then tagRegWrite off v s
  else s

/-- Gules: the submission words, of which the last submits, GQ_FREE, GQ_CANCEL, and the job input buffers (R266, R292).
DEDUCED, log 113. -/
def gqWrite (off : Nat) (v : W32) (s : State) : State :=
  if 0x020 ≤ off ∧ off < 0x030 then
    let s1 := { s with gq := { s.gq with sub := vmodN s.gq.sub ((off - 0x020) / 4) fun _ => v } }
    if off = 0x02C then submitWords s1 else s1
  else if off = 0x038 then doGqFree (fld v 5 0 6) s
  else if off = 0x03C then doGqCancel (fld v 5 0 6) s
  else if 0x2000 ≤ off ∧ off < 0x5000 then
    { s with gq := { s.gq with inBuf := memWriteBytes s.gq.inBuf (off - 0x2000) (leBytes 4 v.toNat) } }
  else s

/-- Or: OR_STATUS.ECC_UE and OR_LEDGER_ACK (R333). DEDUCED, log 113. -/
def orWrite (off : Nat) (v : W32) (s : State) : State :=
  if off = 0x000 then (if bitAt v.toNat 10 then { s with orr := { s.orr with eccUe := false } } else s)
  else if off = 0x00C then doOrLedgerAckWrite v s
  else s

/-- Sable: power, touch, tamper and clock registers (R262, R409, R428). GO of PWR_CTRL, CLK_GATE, CLK_SEL and CLK_DIV
have rows of their own. DEDUCED, log 113. -/
def sableWrite (off : Nat) (v : W32) (s : State) : State :=
  if off = 0x004 then
    { s with pwr := { s.pwr with rest := restOf (bitsOf v 3 2), refused := s.pwr.refused && !bitAt v.toNat 4 } }
  else if 0x020 ≤ off ∧ off < 0x030 then
    { s with pwr := { s.pwr with touch := vmodN s.pwr.touch ((off - 0x020) / 4) fun c =>
        { c with en := bitAt v.toNat 0, thr := fld v 6 1 6, confirm := bitAt v.toNat 7 } } }
  else if 0x030 ≤ off ∧ off < 0x040 then
    { s with pwr := { s.pwr with touch := vmodN s.pwr.touch ((off - 0x030) / 4) fun c =>
        { c with stuck := c.stuck && !bitAt v.toNat 25 } } }
  else if off = 0x090 then
    if s.tamper.lock then s
    else { s with tamper := { s.tamper with
        en := fld v 5 0 6 ||| 1, enclPol := bitAt v.toNat 6
        live := (s.tamper.live &&& 0x3D) ||| (if s.tamper.pin != bitAt v.toNat 6 then 2 else 0) } }
  else if off = 0x100 then
    { s with clk := { s.clk with
      selRefused := s.clk.selRefused && !bitAt v.toNat 7, gateRefused := s.clk.gateRefused && !bitAt v.toNat 8
      busTo := s.clk.busTo && !bitAt v.toNat 9, xoFail := s.clk.xoFail && !bitAt v.toNat 10 } }
  else s

/-! ### What the steward reads of the field-side status registers -/

/-- AZ_STATUS (R157). -/
def azStatus (s : State) : Nat :=
  b2n (seqRuns s .azure) + 2 * b2n s.az.locked + 4 * b2n (decide (now s < s.az.calUntil)) + 8 * b2n s.az.progWe +
    16 * b2n s.az.chainA + 32 * b2n s.az.chainB

/-- AZ_KEY_CTRL (R157). -/
def azKeyCtrl (s : State) : Nat := b2n s.az.key.valid + 4 * b2n s.az.key.orphanPend + 8 * Nat.min 2 s.az.key.used

/-- CLASS of a UWB port. -/
def azClassCode : AzClass → Nat
  | .normal => 0 | .weak => 1 | .fault => 2 | .unpopulated => 3

/-- AZ_PORT_STAT of a port (R157). -/
def azPortStat (s : State) (p : Fin 6) : Nat :=
  let x := s.az.ports[p]
  x.lbAmp.toNat + 256 * x.lbDly.toNat + 65536 * azClassCode x.cls + 524288 * Nat.min 7 x.strikes + 4194304 * b2n x.vswr

/-- TN_STATUS (R201). -/
def tnStatus (s : State) : Nat :=
  b2n (seqRuns s .tenne) + 2 * b2n s.tn.synth.locked + 4 * b2n (vcalRuns s) + 8 * b2n (s.tn.utx.phase != .idle) +
    16 * b2n s.tn.progWe

/-- OR_STATUS (R333): a page commit and an append complete within their row, so COMMIT reads 0 between rows. -/
def orStatus (s : State) : Nat :=
  let o := s.orr
  b2n o.ash + 4 * (dirtyPages s).length + 128 * b2n (o.txnDone != o.txnIssued) + 256 * b2n o.cycle.isSome +
    512 * b2n s.ledger.ledgerHigh + 1024 * b2n o.eccUe + 2048 * b2n (o.ringCtr.reclaim || o.ringSec.reclaim || o.journal.reclaim)

/-- PWR_STATUS (R428). -/
def pwrStatus (s : State) : Nat :=
  let p := match s.pwr.pstate with
    | .umber => 1
    | .amber => 2
    | .chalk => 3
    | .ash => 4
    | _ => 0
  p + 8 * restCode s.pwr.rest + 32 * b2n s.pwr.vbatLow + 64 * b2n s.pwr.vbatOvp + 128 * b2n s.pwr.holdOk + 256 * b2n s.pwr.cold

end Sys2Proof.Machine
end

