-- ==== Sys2Proof/Machine/Restart.lean ====
section
/-! DEFINITION. The steward restart with session retention (R50, R268, R388, R451 to R454). -/

namespace Sys2Proof.Machine

open Sys2Proof

/-- OPCODE and CTAG of a command record; missing bytes read 0 (R381). -/
def opcodeOf (b : Bytes) : Nat := leAt b 0 2

def ctagOf (b : Bytes) : Nat := leAt b 2 2

/-- Every ARMED and POSTED entry is cancelled; running programs continue (R50). DEDUCED, log 133. -/
def cancelWaiting (s : State) : State := (List.finRange 128).foldl (cancelIdle .ok false) s

/-- What a token keeps when its run repeats Prove. -/
def reprove (r : Run) (t : TokenRun) : TokenRun :=
  { t with
    again := t.again || chalBegun r t, proven := none, exchanges := [], macR := none, range := none, placement := none, verdict := none, further := false
    invalidRanges := 0 }

/-- Range can be repeated: a key is loaded with an exchange index left (R156). -/
def rangeAgain (s : State) : Bool := s.az.key.valid && decide (s.az.key.used < 2)

/-- A token whose Range is repeated: its proof stands, what its exchange left does not. -/
def rerange (t : TokenRun) : TokenRun := { t with macR := none, range := none, placement := none }

/-- The tokens of a run in Prove or Range that repeats: a token that is proven is ranged again while the loaded key is VALID with
an unused exchange index, every other one proves again (R156). -/
def rerunToks (s : State) (r : Run) : List TokenRun :=
  r.toks.map fun t => if rangeAgain s && t.proven.isSome then rerange t else reprove r t

/-- The interrupted stage from its start (R29, R156, R183): Hail begins with its first round, Prove sends its challenges; Range
repeats with an unused exchange index while the loaded key is VALID, else Prove; Place and Weigh are computed again, and Grant decides again on
proofs that Gules no longer holds. DEDUCED, log 133. -/
def repeatStage (s : State) (r : Run) : Run :=
  let r1 := { r with hailPlan := none, chals := [], plans := [], verdicts := [], aliasDue := [], aliasTags := [], rangeStart := none }
  match r.stage with
  | .wake | .hail =>
    { r1 with
      stage := .hail, round := 0, jammed := 0, denied := 0, hailed := false, hailNew := false, pressWindow := none
      openOk := false, toks := [], candidates := [] }
  | .prove => { r1 with toks := rerunToks s r }
  | .range => { r1 with stage := if rangeAgain s then .range else .prove, toks := rerunToks s r }
  | .place => { r1 with toks := r.toks.map fun t => { t with placement := none, verdict := none } }
  | .weigh => { r1 with toks := r.toks.map fun t => { t with verdict := none } }
  | .grant => { r1 with stage := .weigh }

/-- The answers of R388: OK where an effect had been committed, RETRY otherwise; every open staging is zeroed.
DEDUCED, log 133. -/
def answerRestart (s : State) (queue : List CmdRec) : State :=
  let s1 := s.cmds.longs.foldl (fun t l =>
    if l.committed then respond t l.slot l.opcode.toNat l.ctag.toNat .ok l.result
    else respond t l.slot l.opcode.toNat l.ctag.toNat .retry []) s
  let s2 := queue.foldl (fun t c => respond t c.slot (opcodeOf c.bytes) (ctagOf c.bytes) .retry []) s1
  coexUpdate { s2 with cmds := { s2.cmds with queue := [], longs := [], area0 := {}, area1 := {}, area2 := {} } }

/-- The retained region taken over (R452). -/
def takeRetained (s : State) (d : Retained) : State :=
  { s with
    pres := { d.pres with run := d.pres.run.map (repeatStage s), schedEvents := [] }
    ctxs := d.ctxs, ev := d.ev
    cmds := { s.cmds with startCtag := d.startCtag }
    orr := { s.orr with telem := d.telem, wbuf := [], rights := endRights s.orr.rights }
    creds := { s.creds with lock := d.credLock }
    bg := { s.bg with times := d.times } }

/-- A steward restart (R451 to R454). Before S15 it counts as an attempt of S9; without a valid retained copy, and at the
third within 60 s, the device resets through Jet. DESIGN CHOICE, log 127. DEDUCED, log 133. -/
def stewardRestart (s : State) : State :=
  if s.pwr.pstate ≠ .chalk ∨ s.boot.running = .none then s
  else if s.boot.step < 16 then
    let s0 := imageFailed (gulesStewardRestart (cancelWaiting s))
    let s1 := { s0 with orr := { s0.orr with wbuf := [], rights := endRights s0.orr.rights } }
    { s1 with boot := { s1.boot with step := 9, running := .none } }
  else
    let recent := s.bg.restarts.filter fun t => decide (now s < t + 60 * ticksPerSec)
    match (if 2 ≤ recent.length then none else retainedCopy s.bg) with
    | none => coldBegin { s with boot := { s.boot with wdLatched := true, lastStep := 0xFF } } 0
    | some r =>
      let s1 := takeRetained (gulesStewardRestart (cancelWaiting s)) r.data
      let s2 := answerRestart s1 s.cmds.queue
      let s3 := { s2 with bg := { s2.bg with
        restarts := recent ++ [now s], pu := { s2.bg.pu with restart := satInc s2.bg.pu.restart } } }
      passEnd (anomSet s3 0)

end Sys2Proof.Machine
end

