-- ==== Sys2Proof/Machine/Power.lean ====
section
/-! DEFINITION. Rows of the power sequencer: touch windows, supply thresholds, Ash, resting states, sniffs and wakes
(R193, R313, R314, R415 to R427, R476). -/

namespace Sys2Proof.Machine

open Sys2Proof

/-! ### Touch (R417 to R420, R427) -/

/-- Whether Sable's detector judges a channel: enabled in Chalk, in the watched set in Umber and Amber.
DEDUCED, log 134. -/
def touchJudged (s : State) (c : Fin 4) : Bool :=
  match s.pwr.pstate with
  | .chalk => (s.pwr.touch[c]).en
  | .umber | .amber => (s.pwr.touch[c]).watched
  | _ => false

/-- One channel at the end of a window of capacitance `cw`: the deficit is taken against B as it stood before the window;
a window that trips leaves B (R419). Units of 0.05 pF, THR in 0.25 pF. DEDUCED, log 134. -/
def touchStep (x : TouchChannel) (cw : Nat) (rtc : Nat) : TouchChannel × Bool :=
  if !x.learned then ({ x with learned := true, base := BitVec.ofNat 12 cw, delta := 0, prevMet := false }, false)
  else
    let d : Int := (cw : Int) - x.base.toNat
    let y := { x with delta := BitVec.ofInt 12 d }
    let thr : Int := 5 * x.thr.toNat
    if x.tripped then ({ y with tripped := !decide (2 * d < thr) }, false)
    else
      let met := decide (thr ≤ d)
      if met && (!x.confirm || x.prevMet) then ({ y with tripped := true, prevMet := false, trippedAt := rtc }, true)
      else
        let b : Nat := if d < 0 then cw else x.base.toNat + (cw - x.base.toNat) / 16
        ({ y with base := BitVec.ofNat 12 b, prevMet := met }, false)

/-- Trips of one window (R415, R419, R420, R427): a wake from Umber or Amber, an abandoned entry, a latched touch during
start-up, or an approach. DEDUCED, log 134. -/
def touchTrips (s : State) (cs : List (Fin 4)) : State :=
  let s0 := { s with bg := { s.bg with pu := { s.bg.pu with touch := Nat.min 0xFFFFFFFF (s.bg.pu.touch + cs.length) } } }
  let origin := match s.pwr.pstate with
    | .umber => 1 | .amber => 2 | _ => 3
  if s.pwr.pstate = .umber ∨ s.pwr.pstate = .amber then
    let s1 := wakeChalk s0 (cs.foldl (fun m c => m + 2 ^ c.val) 0)
    passEnd (touchApproach (cs.foldl (fun t c => evtTouch t c origin) s1) cs true)
  else if s.boot.step < 16 then
    if 10 < s.boot.step then
      { s0 with pwr := { s0.pwr with touch := Vector.ofFn fun c =>
          { s0.pwr.touch[c] with latched := (s0.pwr.touch[c]).latched || cs.contains c } } }
    else s0
  else
    let s1 := { s0 with pwr := { s0.pwr with entering := none } }
    passEnd (touchApproach (cs.foldl (fun t c => evtTouch t c origin) s1) cs false)

/-- TOUCH_WINDOW (R419): a window ends on every channel with its C_W. DEDUCED, log 134. -/
def doTouchWindow (cw : Vector (BitVec 12) 4) (s : State) : State :=
  let r (c : Fin 4) : TouchChannel × Bool :=
    if touchJudged s c then touchStep s.pwr.touch[c] (cw[c]).toNat (rtcNow s) else (s.pwr.touch[c], false)
  let cs := (List.finRange 4).filter fun c => (r c).2
  let s1 := { s with pwr := { s.pwr with touch := Vector.ofFn fun c => (r c).1 } }
  if cs.isEmpty then s1 else touchTrips s1 cs

/-- TOUCH_STUCK (R419 step 6): after 60 s tripped the channel takes B = C_W and re-arms. -/
def doTouchStuck (c : Fin 4) (cw : BitVec 12) (s0 : State) : State :=
  if touchJudged s0 c && (s0.pwr.touch[c]).tripped then
    let s := elapseToRtc s0 ((s0.pwr.touch[c]).trippedAt + 60)
    { s with
      pwr := { s.pwr with touch := vmod s.pwr.touch c fun x => { x with base := cw, delta := 0, tripped := false, stuck := true } }
      bg := { s.bg with pu := { s.bg.pu with stuck := satInc s.bg.pu.stuck } } }
  else s0

/-! ### Supply thresholds (R415, R423 to R426, R476) -/

/-- The series of R402 begins anew at a wake source. -/
def freshSeries (s : State) : State := { s with clk := { s.clk with attempt := 0 } }

/-- VBAT_RUN_REACHED (R415, R420): F_VBAT above V_RUN for t_VRUN in Jet starts the device cold.
DESIGN CHOICE, log 135. -/
def doVbatRunReached (o : StartOutcome) (s0 : State) : State :=
  let s := { s0 with pwr := { s0.pwr with belowRun := false } }
  if s.pwr.pstate = .jet then startRun o (coldBegin (freshSeries s) 128) else s

/-- No LF or UHF transmission (R424): Vert's bridges turn off and its program halts with BUSY; Tenné halts where it
transmits; an untimed transmit completes with BUSY. -/
def stopTransmit (s : State) : State :=
  let s1 := endProgram s .vert .busy
  let s2 := { s1 with vert := slotsCut s1.vert fun _ => true }
  let s3 := if s2.tn.txOn then endProgram s2 .tenne .busy else s2
  if s3.tn.utx.phase = .idle then s3 else utxEnd s3 .busy

/-- VBAT_LOW (R424), with VBAT_MON's reading in 0.1 V. DESIGN CHOICE, log 135. -/
def doVbatLow (vbat : BitVec 10) (s : State) : State :=
  let s1 := { s with pwr := { s.pwr with vbatLow := true, belowRun := true, vbat := vbat } }
  if s.pwr.pstate = .chalk then stopTransmit s1 else s1

/-- VBAT_OVP (R424). DESIGN CHOICE, log 135. -/
def doVbatOvp (vbat : BitVec 10) (s : State) : State :=
  let s1 := { s with pwr := { s.pwr with vbatOvp := true, belowRun := false, vbat := vbat } }
  if s.pwr.pstate = .chalk then stopTransmit s1 else s1

/-- VBAT_TX_RESTORED (R424, R427): transmission may resume; an S11 that waited goes on. F_VBAT is above V_RUN again from 7.5 V.
DESIGN CHOICE, log 135. -/
def doVbatTxRestored (vbat : BitVec 10) (o : StartOutcome) (s : State) : State :=
  let s1 := { s with pwr := { s.pwr with
    vbatLow := false, vbatOvp := false, vbat := vbat, belowRun := s.pwr.belowRun && decide (vbat.toNat < 75) } }
  if s1.boot.step = 11 then startRun o s1 else s1

/-- VLF_UNDERVOLT (R476): F_VLF crosses V_LFUV; below it LF firings fail with BUSY as in R424.
DESIGN CHOICE, log 135. -/
def doVlfUndervolt (below : Bool) (s : State) : State :=
  let s1 := { s with vert := { s.vert with vlfUv := below } }
  if below then
    let s2 := endProgram s1 .vert .busy
    { s2 with vert := slotsCut s2.vert fun _ => true }
  else s1

/-- Ash begins (R412, R425): engines and radios stop, CANCEL_ALL, Celeste holds the timebase, Purpure and Gules at divider
32, Or stores. DEDUCED, log 137. -/
def enterAsh (s : State) : State :=
  let s0 := if s.tn.utx.phase = .idle then s else utxEnd s .busy
  let s1 := tbHold (hfSilent (cancelAll s0 .launchLate true))
  { s1 with
    vert := slotsCut s1.vert fun _ => true
    pwr := { s1.pwr with pstate := .ash, entering := none, going := none }
    clk := { s1.clk with divPurpure := 32, divGules := 32, curPurpure := 32, curGules := 32 }
    orr := { s1.orr with ash := true, nAsh := satInc s1.orr.nAsh } }

/-- VBAT_BELOW_ASH (R216, R415, R425, R442) with F_VHOLD in 0.1 V: Chalk enters Ash; a start-up, Umber and Amber go to Jet with
nothing stored; a start-up leaves the brownout flag. DEDUCED, log 138. -/
def doVbatBelowAsh (vhold : BitVec 10) (s : State) : State :=
  let s1 := { s with
    pwr := { s.pwr with vbatLow := true, belowRun := true, vhold := vhold, holdOk := decide (42 ≤ vhold.toNat) }
    tag := { s.tag with supplied := false } }
  match s.pwr.pstate with
  | .chalk =>
    if s.boot.step = 16 then enterAsh s1
    else enterJet { s1 with boot := { s1.boot with brownout := some s.boot.step, excused := true } }
  | .umber | .amber => enterJet s1
  | _ => s1

/-! ### The Ash store (R313, R314, R330) -/

/-- The dirty pages in the order of R313 step 3: NATIVE last. DEDUCED, log 137. -/
def ashOrder (s : State) : List (Fin 256) :=
  let d := (dirtyPages s).map (·.1)
  (d.filter fun p => decide (p.val < 150)) ++ d.filter fun p => decide (150 ≤ p.val)

/-- LPEND's entries in the order of R330, at most 16 and what `n` commits of 4 entries hold. DEDUCED, log 137. -/
def lpendEntries (s : State) (n : Nat) : List LedgerReq :=
  (s.ledger.queue ++ s.tamper.entryDue.toList ++ s.ledger.outside).take (Nat.min 16 (4 * n))

/-- Step 5 of R313: the steward's tag writes that wait begin where the store has not stopped before them, else they are
dropped (R223). DEDUCED, log 97, 137. -/
def ashTag (s : State) (go : Bool) : State :=
  if go then tagServe { s with orr := { s.orr with ash := false } } else s

/-- The store of R313 with `n0` commits that begin before F_VHOLD falls below V_COMMIT: the legacy cycle that has begun is one, each
LPEND page is one, each dirty page is one (R314, R315, R332). DEDUCED, log 137. -/
def ashStore (s0 : State) (n0 : Nat) : State :=
  let cyc := s0.orr.cycle.isSome && decide (0 < n0)
  let s := if cyc then doLwWriteCycleEnd s0 else { s0 with orr := { s0.orr with cycle := none, wel := false } }
  let n := n0 - b2n cyc
  let l := lpendEntries s n
  let used := ceilDiv l.length 4
  let kept := decide (s.ledger.queue.length < l.length)
  let s1 := (lpendPages.take used).foldl commitSync { s with
      ledger := { s.ledger with lpend := l }
      tamper := if kept then { s.tamper with entryDue := none } else s.tamper }
  ashTag (((ashOrder s1).take (n - used)).foldl commitSync s1) (decide ((ashOrder s1).length + used < n))

/-- ASH_COMPLETE (R313 to R315, R415): the store ends and the field die enters Jet; `commits`: how many begin before
F_VHOLD is below V_COMMIT. DEDUCED, log 137. -/
def doAshComplete (commits : BitVec 5) (s : State) : State :=
  if s.pwr.pstate = .ash then
    let s1 := ashStore s (if s.pwr.holdOk then commits.toNat else 0)
    enterJet { s1 with orr := { s1.orr with ash := false } }
  else s

/-- SABLE_SUPPLY_LOSS (R415, R426). -/
def doSableSupplyLoss (s : State) : State := supplyLost s

/-! ### Resting states (R415, R416) -/

/-- PWR_CTRL_GO (R415, R428): PWR_CTRL written; GO enters a resting state or is refused. DEDUCED, log 136. -/
def doPwrCtrlGo (v : W32) (s : State) : State :=
  let s1 := sableWrite 0x004 v s
  match bitsOf v 1 0 with
  | 0 => s1
  | n =>
    if s1.pwr.pstate = .chalk ∧ s1.boot.step = 16 ∧ s1.pwr.entering = none ∧ mayRest s1 (restOf n) = true then leaveChalk s1 (restOf n)
    else { s1 with pwr := { s1.pwr with refused := true } }

/-- The steward takes the device to a resting state: the fold runs, dirty pages are committed; with the ledger queue
empty and no entry active the sequencer leaves Chalk (R415, R448). -/
def stewardRest (s : State) (t : RestTarget) : State :=
  let s0 := telemFold s
  let s1 := ((dirtyPages s0).map (·.1)).foldl commitSync s0
  if mayRest s1 t then leaveChalk s1 t else s1

/-- IDLE_RULE (R416): ten seconds after its conditions began to hold. DEDUCED, log 139. -/
def doIdleRule (s0 : State) : State :=
  if s0.pwr.pstate = .chalk && s0.boot.step == 16 && s0.pwr.woken && s0.pwr.idle && s0.pwr.rest != .chalk && s0.pwr.entering.isNone then
    let s := elapseToRtc s0 (s0.pwr.idleSince + 10)
    if idleCond s then stewardRest s s.pwr.rest else idleNote s
  else s0

/-! ### Sniffs and wakes (R193, R420) -/

/-- Ticks of a sniff's dwell (R193). -/
def dwellTicks : Nat := 34080

/-- A hit: RSSI stayed at `level`, above RX_THR of the SNIFF entry, for at least half of the dwell, and both tones were
observed (R193). -/
def sniffHit (s : State) (level : Byte) (ticks : W16) (tones : Bool) : Bool :=
  decide ((vgetN s.tn.chan (sniffEntry s) {}).rxThr.toNat < level.toNat) && decide (dwellTicks ≤ 2 * ticks.toNat) && tones

/-- Tenné's receiver in a sniff that began at tick `t0`: SYNTH of the SNIFF entry with its lock within 3,840 ticks, 480 ticks
of DCOC, then the dwell at the press profile (R193). DESIGN CHOICE, log 44. -/
def sniffRx (s : State) (t0 : Nat) : State :=
  let e : Fin 8 := Fin.ofNat 8 (sniffEntry s)
  { s with
    freeCtr := s.freeCtr + 1
    tn := { s.tn with
      synth := { entry := e, on := true, locked := true, lockedAt := t0 + Config.freeNat s.freeCtr % 3841 }
      rxOn := true, rxProfile := Fin.ofNat 3 (pressProfile s), dcocAt := some (t0 + 4320, 480) } }

/-- Ticks of 8,192 RTC periods (R193). -/
def sniffPeriod : Nat := 9600000

/-- AMBER_SNIFF (R193): a sniff starts every 8,192 RTC periods, counted from the entry into Amber; Celeste runs for its 38,400 ticks;
on a hit Tenné goes on searching while the die comes to Chalk. DEDUCED, log 139. -/
def doAmberSniff (level : Byte) (ticks : W16) (tones : Bool) (s : State) : State :=
  if s.pwr.pstate = .amber then
    let start := s.tn.sniffAt + sniffPeriod * Nat.max 1 (ceilDiv (s.clock - s.tn.sniffAt) sniffPeriod)
    let s0 := tbRestart (elapseToClock s start) (if s.clk.fallback then .rc16 else .xo)
    let s1 := elapse (sniffRx { s0 with tn := { s0.tn with sniffAt := start } } (now s0)) 38400
    if sniffHit s1 level ticks tones then
      let s2 := wakeChalk s1 16
      passEnd { s2 with tn := { s2.tn with
        nSniffHit := satInc s2.tn.nSniffHit, sniffUntil := some (now s2 + searchTicks s2) } }
    else tbHold (sniffOff s1)
  else s

/-- SNIFF_SEARCH_END (R193): a search without a telegram is a false wake, and the device returns to Amber.
DEDUCED, log 139. -/
def doSniffSearchEnd (s0 : State) : State :=
  match s0.tn.sniffUntil with
  | none => s0
  | some t =>
    let s := sniffOff (elapseTo s0 t)
    let s1 := { s with tn := { s.tn with nSniffFalse := satInc s.tn.nSniffFalse } }
    if s1.pwr.pstate = .chalk && s1.boot.step == 16 && idleCond s1 then passEnd (stewardRest s1 .amber) else passEnd s1

/-- HOST_WAKE_CROSSING (R349, R415, R420, R427): Jet starts cold with F_VBAT at or above V_RUN, Umber and Amber wake without an approach; in Chalk and
Ash it is nothing. DESIGN CHOICE, log 127. -/
def doHostWakeCrossing (o : StartOutcome) (s : State) : State :=
  let s1 := { s with host := { s.host with wakeReq := false } }
  match s.pwr.pstate with
  | .jet => if s.pwr.belowRun then s1 else startRun o (coldBegin (freshSeries s1) 32)
  | .umber | .amber => passEnd (wakeChalk s1 32)
  | _ => s

/-! ### The commands of this file -/

/-- AMBER_SNIFF (R193). -/
def execAmberSniff (level : Byte) (ticks : W16) (tones : Bool) (s : State) : Host.Outcome State Fault Refusal :=
  done s (doAmberSniff level ticks tones s)

/-- SNIFF_SEARCH_END (R193). -/
def execSniffSearchEnd (s : State) : Host.Outcome State Fault Refusal :=
  done s (doSniffSearchEnd s)

/-- HOST_WAKE_CROSSING (R420). -/
def execHostWakeCrossing (o : StartOutcome) (s : State) : Host.Outcome State Fault Refusal :=
  done s (doHostWakeCrossing o s)

/-- TOUCH_WINDOW (R419). -/
def execTouchWindow (cw : Vector (BitVec 12) 4) (s : State) : Host.Outcome State Fault Refusal :=
  done s (doTouchWindow cw s)

/-- TOUCH_STUCK (R419). -/
def execTouchStuck (c : Fin 4) (cw : BitVec 12) (s : State) : Host.Outcome State Fault Refusal :=
  done s (doTouchStuck c cw s)

/-- VBAT_RUN_REACHED (R415). -/
def execVbatRunReached (o : StartOutcome) (s : State) : Host.Outcome State Fault Refusal :=
  done s (doVbatRunReached o s)

/-- VBAT_LOW (R424). -/
def execVbatLow (vbat : BitVec 10) (s : State) : Host.Outcome State Fault Refusal :=
  done s (doVbatLow vbat s)

/-- VBAT_OVP (R424). -/
def execVbatOvp (vbat : BitVec 10) (s : State) : Host.Outcome State Fault Refusal :=
  done s (doVbatOvp vbat s)

/-- VBAT_TX_RESTORED (R424). -/
def execVbatTxRestored (vbat : BitVec 10) (o : StartOutcome) (s : State) : Host.Outcome State Fault Refusal :=
  done s (doVbatTxRestored vbat o s)

/-- VBAT_BELOW_ASH (R425). -/
def execVbatBelowAsh (vhold : BitVec 10) (s : State) : Host.Outcome State Fault Refusal :=
  done s (doVbatBelowAsh vhold s)

/-- ASH_COMPLETE (R415). -/
def execAshComplete (commits : BitVec 5) (s : State) : Host.Outcome State Fault Refusal :=
  done s (doAshComplete commits s)

/-- SABLE_SUPPLY_LOSS (R426). -/
def execSableSupplyLoss (s : State) : Host.Outcome State Fault Refusal :=
  done s (doSableSupplyLoss s)

/-- VLF_UNDERVOLT (R476). -/
def execVlfUndervolt (below : Bool) (s : State) : Host.Outcome State Fault Refusal :=
  done s (doVlfUndervolt below s)

/-- PWR_CTRL_GO (R415). -/
def execPwrCtrlGo (v : W32) (s : State) : Host.Outcome State Fault Refusal :=
  done s (doPwrCtrlGo v s)

/-- IDLE_RULE (R416). -/
def execIdleRule (s : State) : Host.Outcome State Fault Refusal :=
  done s (doIdleRule s)

end Sys2Proof.Machine
end

