-- ==== Sys2Proof/Machine/CmdOps.lean ====
section
/-! DEFINITION. How the steward serves a command record: the order of its checks, the state rules, the shared
resources, short and long answers, BULK results, and what follows a posted answer (R381 to R389, R398, R436, R439). -/

namespace Sys2Proof.Machine

open Sys2Proof

/-! ### State rules (R261, R389, R436, R439) -/

/-- The group of an opcode. -/
def groupOf (op : Nat) : Nat := op / 256

/-- What the boot ROM serves without an image (R436); journal, telemetry and ledger only once S5 has passed. -/
def romServes (s : State) (op : Nat) (b : Bytes) : Bool :=
  [0x0101, 0x0102, 0x0103, 0x0105, 0x0801, 0x0804].contains op ||
  (op == 0x0802 && (byteAt b 4 == 4 || byteAt b 4 == 6)) ||
  (decide (6 ≤ s.boot.step) && [0x0903, 0x0904, 0x050C, 0x050E].contains op)

/-- What R389 refuses by life-cycle state. DEDUCED, log 142. -/
def lcBars (s : State) (op : Nat) : Bool :=
  match lcOf s with
  | .retired => !([0x0101, 0x0102, 0x0103, 0x050C, 0x050E, 0x0804, 0x0903, 0x0904].contains op)
  | .servicing => groupOf op == 3 || op == 0x0401 || op == 0x0402
  | .blank => op == 0x0201 || op == 0x0202 || op == 0x0203
  | _ => false

/-- The state rules of R383 step 2 that hold for every command: the boot ROM's list, service-lock, the recovery image's
groups, and R389. DEDUCED, log 142. -/
def stateBars (s : State) (op : Nat) (b : Bytes) : Bool :=
  lcBars s op ||
  (if s.boot.running = .none then !romServes s op b
   else
     (s.keys.svcLock && !([1, 8, 9].contains (groupOf op))) ||
     (s.boot.running == .recovery && !([1, 7, 8, 9].contains (groupOf op))))

/-- Whether commands are served now: in Chalk, after S15 or in the service-lock of an earlier step, and nothing waits
for the last answer. DESIGN CHOICE, log 141. -/
def servesNow (s : State) : Bool :=
  s.pwr.pstate = .chalk && s.pwr.entering.isNone && s.cmds.after = .none && (s.boot.step == 16 || s.boot.locked)

/-! ### What a command brings about (R382, R384, R386) -/

/-- A long command's answer, kept until it completes. -/
structure LongAns where
  status : Status := .ok
  result : Bytes := []
  work : LongWork := .done
  /-- the BULK frame of R386 with its CONTENT and COUNT -/
  bulk : Option Bytes := none
  /-- an effect has been committed (R388) -/
  committed : Bool := false

/-- A served command: answered at once; accepted as a long command; or answered by the access that it began. -/
inductive Served where
  | now (st : Status) (result : Bytes) (s : State)
  | long (a : LongAns) (s : State)
  | later (s : State)

/-- A row of the command tables: its opcode, its lengths, its own state rule, its reserved fields and ranges, its
resource, its conditions and effect. -/
structure CmdRow where
  opcode : Nat
  len : Bytes → Bool
  barred : State → Bool := fun _ => false
  bad : State → Bytes → Bool := fun _ _ => false
  res : Resource := .none
  run : CmdRec → State → Served

/-- A record of exactly `n` bytes. -/
def lenIs (n : Nat) (b : Bytes) : Bool := b.length == n

/-- Whether a running long command holds the row's resource; STAGE_WRITE to the area of an open staging is served in
order with it (R384). DEDUCED, log 142. -/
def resBusy (s : State) (r : CmdRow) (b : Bytes) : Bool :=
  r.res != .none && (s.cmds.longs.any fun l => l.res == r.res) &&
    !(r.opcode == 0x0702 && (areaOf s (byteAt b 4)).opened)

/-- The checks of R383 in order, and the resource of R384. DEDUCED, log 142. -/
def cmdRefusal (r : CmdRow) (s : State) (b : Bytes) : Option Status :=
  if b.length < 4 then some .badLength
  else if stateBars s r.opcode b || r.barred s then some .wrongState
  else if !r.len b then some .badLength
  else if r.bad s b then some .paramRange
  else if resBusy s r b then some .busy
  else none

/-- A command answered to its slot. -/
def answerCmd (s : State) (c : CmdRec) (st : Status) (result : Bytes) : State :=
  respond s c.slot (opcodeOf c.bytes) (ctagOf c.bytes) st result

/-- What a served command leaves. -/
def settleCmd (r : CmdRow) (c : CmdRec) : Served → State
  | .now st result t => answerCmd t c st result
  | .long a t =>
    { t with cmds := { t.cmds with longs := t.cmds.longs ++ [
        { slot := c.slot, opcode := BitVec.ofNat 16 (opcodeOf c.bytes), ctag := BitVec.ofNat 16 (ctagOf c.bytes), res := r.res
          work := a.work, status := a.status, result := a.result, bulk := a.bulk, committed := a.committed }] } }
  | .later t => t

/-! ### What follows a posted answer (R385, R415, R440) -/

/-- Whether the answer that came last is out: posted; before a device reset also taken by the host die. -/
def answerOut (s : State) : Bool :=
  s.cmds.outbox.isEmpty && (s.cmds.after != .deviceRestart || s.bar.bulkToHost.frames.all fun f => f.taken)

/-- A resting state that SYS_POWER asked for: tracking is stopped; the entry waits for active launch entries.
DEDUCED, log 146. -/
def goRest (s0 : State) (t : RestTarget) : State :=
  let s := stopTracking s0
  let s1 := stewardRest s t
  if s1.pwr.pstate = .chalk && s1.pwr.entering.isNone then { s1 with pwr := { s1.pwr with going := some t } } else s1

/-- What waits for an answer, once it is out; and a resting state that waits for the launch table.
DEDUCED, log 146. -/
def afterAnswer (s : State) : State :=
  match s.cmds.after with
  | .none =>
    (match s.pwr.going with
      | some t => if s.pwr.pstate = .chalk && s.pwr.entering.isNone && mayRest s t then goRest s t else s
      | none => s)
  | a =>
    if !answerOut s then s
    else
      let s1 := { s with cmds := { s.cmds with after := .none } }
      match a with
      | .stewardRestart => stewardRestart s1
      | .deviceRestart => coldBegin s1 0
      | .rest t => goRest s1 t
      | .none => s1

/-- The command at the head of the queue served by the row whose opcode it carries, where `mine` picks the row's share
of an opcode that several rows name. DESIGN CHOICE, log 141. -/
def serveIf (r : CmdRow) (mine : Bytes → Bool) (s : State) : State :=
  match s.cmds.queue with
  | [] => s
  | c :: rest =>
    if servesNow s && opcodeOf c.bytes == r.opcode && mine c.bytes then
      let s1 := { s with cmds := { s.cmds with queue := rest } }
      let s2 := match cmdRefusal r s1 c.bytes with
        | some st => answerCmd s1 c st []
        | none => settleCmd r c (r.run c s1)
      afterAnswer (passEnd s2)
    else s

/-- A row that serves its opcode alone. DESIGN CHOICE, log 141. -/
def serve (r : CmdRow) (s : State) : State := serveIf r (fun _ => true) s

/-! ### BULK results (R386) -/

/-- RESULT of a BULK answer: FN, CONTENT, BYTES, COUNT. -/
def bulkResult (fn : Byte) (content bytes count : Nat) : Bytes :=
  [fn, byte content] ++ leBytes 2 bytes ++ leBytes 2 count ++ [0, 0]

/-- A long command that delivers a BULK frame; its frame number is filled in when the frame is posted. -/
def bulkAns (content count : Nat) (data : Bytes) : LongAns :=
  { result := bulkResult 0 content (data.take 4096).length count, bulk := some (data.take 4096) }

/-- The completion of a long command: its BULK frame is posted before its response (R386).
DESIGN CHOICE, log 14, 168. DEDUCED, log 167. -/
def finishLong (s : State) (l : LongCmd) : State :=
  let s0 := { s with cmds := { s.cmds with longs := s.cmds.longs.erase l } }
  match l.bulk with
  | none => respond s0 l.slot l.opcode.toNat l.ctag.toNat l.status l.result
  | some d =>
    let s1 := postBulk s0 d
    respond s1 l.slot l.opcode.toNat l.ctag.toNat l.status (s0.ev.bulkFn :: l.result.drop 1)

/-- A tamper alarm during long commands: each is answered TAMPERED (R397). DEDUCED, log 167. -/
def tamperLongs (s : State) : State :=
  coexUpdate (s.cmds.longs.foldl (fun t l => respond t l.slot l.opcode.toNat l.ctag.toNat .tampered [])
    { s with cmds := { s.cmds with longs := [] } })

end Sys2Proof.Machine
end

