-- ==== Sys2Proof/Machine/LifeCycle.lean ====
section
/-! DEFINITION. Tamper alarms, credentials and life-cycle changes, and the life-cycle commands (R236 to R240, R258 to
R264, and the life cycle and service group). -/

namespace Sys2Proof.Machine

open Sys2Proof

/-! ### Tamper (R258 to R261) -/

/-- Sources watched in a power state (R258): MESH and ENCL in all. -/
def watchedIn (p : PState) : Nat :=
  match p with
  | .unpowered => 0
  | .jet => 0x03
  | .umber => 0x13
  | .amber => 0x17
  | .chalk => 0x3F
  | .ash => 0x3F

/-- Sources of class H. DEDUCED, log 145. -/
def classH (src : BitVec 6) : Bool := src &&& 3 != 0

/-- Power state of a TAMPER entry (R325). -/
def tamperState (s : State) : Nat :=
  match s.pwr.pstate with
  | .jet => 0
  | .umber => 1
  | .amber => 2
  | .chalk => if s.boot.step < 16 then 5 else 3
  | .ash => 4
  | .unpowered => 0xFF

/-- Sable's latch: the source bits, and the RTC time of the first alarm since it was cleared; the TAMPER entry that the
alarm calls for. -/
def latchTamper (s : State) (src : BitVec 6) : State :=
  let step := if s.pwr.pstate = .chalk ∧ s.boot.step < 16 then s.boot.step else 0xFF
  let t := s.tamper
  { s with tamper := { t with
      src := t.src ||| src
      time := if t.src = 0 then s.rtc.secs else t.time
      frac := if t.src = 0 then BitVec.ofNat 10 (s.rtc.frac.toNat / 32) else t.frac
      entryDue := some (ledgerReq s 6 0 0 none [byte src.toNat, byte (tamperState s), byte step]) } }

/-- Service-lock recorded in the key store NV (R261); WEL falls (R323). -/
def svcLockOn (s : State) : State :=
  { s with keys := { s.keys with svcLock := true }, tamper := { s.tamper with ePending := false }, orr := { s.orr with wel := false } }

/-- An alarm in start-up: it stops at the step, with TAMPER_STOP in the journal once that takes records (R260, R434).
DEDUCED, log 145. -/
def alarmStartup (s0 : State) : State :=
  let s := tamperZeroise s0
  let k := s.boot.step
  let s1 := if 6 ≤ k then journalAdd s k 5 (statusCode .tampered) 0 (leBytes 4 s.tamper.src.toNat) else s
  if s.boot.locked then { s1 with boot := { s1.boot with excused := true } }
  else
    let s2 := { s1 with
      keys := { s1.keys with svcLock := true }
      tamper := { s1.tamper with
        step := if k < 6 then some (Fin.ofNat 16 k) else none
        lockLatch := if s1.keys.svcLock then s1.tamper.lockLatch else decide (k < 6) }
      orr := { s1.orr with wel := false }
      boot := { s1.boot with locked := true, excused := true } }
    evtBoot s2 (statusCode .tampered) k 1

/-- An alarm that finds the die asleep: it wakes, Gules's SRAM is cleared, start-up resumes at S6, from Jet at S0. A class
H alarm is service-lock; after a class E alarm the device returns to its state (R260). In Jet with F_VBAT below V_RUN nothing wakes:
the latch holds the alarm, and its service-lock, for the next start (R415). DEDUCED, log 145. -/
def alarmAsleep (o : StartOutcome) (back : RestTarget) (src : BitVec 6) (s : State) : State :=
  let h := classH src
  let mark (t : State) : State :=
    { t with
      keys := { t.keys with svcLock := t.keys.svcLock || h }
      orr := { t.orr with wel := t.orr.wel && !h }
      boot := { t.boot with resume := true, returnTo := if h then none else some back } }
  if back = .jet && s.pwr.belowRun then
    { s with
      keys := { s.keys with svcLock := s.keys.svcLock || h }
      tamper := { s.tamper with lockLatch := s.tamper.lockLatch || (h && !s.keys.svcLock) } }
  else if back = .jet then startRun o (mark (coldBegin (freshSeries s) 64))
  else resumeAt o 6 (mark (tamperZeroise (wakeChalk s 64)))

/-- A start session ends at an alarm; one whose latched verdict still waits for its RESULT ends in the same way, its frame having
completed its path, and the request is refused with the epoch that the alarm clears (R183, R354, R356).
DEDUCED, log 145. -/
def stopLatched (s : State) : State :=
  if s.bar.awaiting.any fun f => startGrant f.grant.toNat then
    let id := s.ev.session
    let s1 := { s with
      bar := { s.bar with awaiting := s.bar.awaiting.filter fun f => !startGrant f.grant.toNat }
      ev := { s.ev with session := sessionAfter id } }
    endStartReq (evtSessionEnd (sendPermitStop s1 5) 1 4 0 0 id.toNat) .epochMismatch 9
  else stopStart s 4 5

/-- An alarm in Chalk (R214, R260): zeroisation, the HF field is off, sessions end, long commands are answered, entry and event; service-lock at
class H and at the third class E alarm within 10 minutes, else the recovery waits. DEDUCED, log 145. -/
def alarmChalk (src : BitVec 6) (s0 : State) : State :=
  let s1 := hfFieldOff (tamperLongs (abortRun (tamperZeroise (endEntry (stopLatched s0) 4 1))))
  let recent := s1.tamper.eTimes.filter fun t => decide (rtcNow s1 ≤ t + 600)
  let lock := classH src || decide (2 ≤ recent.length)
  let s2 := { s1 with tamper := { s1.tamper with
    eTimes := if classH src then recent else recent ++ [rtcNow s1], ePending := !lock } }
  let s3 := if lock then hfSilent (svcLockOn s2) else s2
  match s3.tamper.entryDue with
  | none => passEnd s3
  | some r => passEnd (evtTamper (ledgerQueue { s3 with tamper := { s3.tamper with entryDue := none } } r) r.detail)

/-- The detector outputs, `src`: bit 1 is the debounced level of F_TAMPER_IN, read with the polarity of TMP_CFG, the other
bits are outputs as they stand (R258, R262). -/
def detectors (s : State) (src : BitVec 6) : State :=
  let encl : BitVec 6 := if bitAt src.toNat 1 != s.tamper.enclPol then 2 else 0
  { s with tamper := { s.tamper with live := (src &&& 0x3D) ||| encl, pin := bitAt src.toNat 1 } }

/-- TAMPER_ALARM (R258 to R260): detector outputs change; those enabled and watched in this state raise the alarm. `o`:
what a start-up that follows meets. DEDUCED, log 145. -/
def doTamperAlarm (src : BitVec 6) (o : StartOutcome) (s : State) : State :=
  let s0 := detectors s src
  let eff := s0.tamper.live &&& (s.tamper.en ||| 1) &&& BitVec.ofNat 6 (watchedIn s.pwr.pstate)
  if eff = 0 then s0
  else
    let s1 := latchTamper s0 eff
    if s.keys.lcRetire then
      evtTamper { s1 with tamper := { s1.tamper with entryDue := none } } [byte eff.toNat, byte (tamperState s), 0xFF]
    else match s.pwr.pstate with
      | .chalk => if s.boot.step < 16 then alarmStartup s1 else alarmChalk eff s1
      | .jet => alarmAsleep o .jet eff s1
      | .umber => alarmAsleep o .umber eff s1
      | .amber => alarmAsleep o .amber eff s1
      | .ash => tamperZeroise s1
      | .unpowered => s1

/-- TAMPER_CLASS_E_RECOVERY (R260): every live source has read 0 for 100 ms, and the unmask of S6 runs again under the
current root, without a Gules reset. -/
def doTamperClassERecovery (s : State) : State :=
  if s.tamper.ePending && s.pwr.pstate = .chalk && s.boot.step == 16 then
    let s1 := elapse s (100 * ticksPerMs)
    let s2 := detectors s1 (if s1.tamper.enclPol then 2 else 0)
    passEnd (deriveDepot (unmask { s2 with tamper := { s2.tamper with ePending := false } }))
  else s

/-! ### Life-cycle changes (R237, R240) -/

/-- A change of the life-cycle state: sessions end with LIFECYCLE, the tracked set is cleared, staging is zeroed, the
volatile key store is zeroised and S6 runs under the new root. DEDUCED, log 151. -/
def lcChange (f : KeyStore → KeyStore) (s : State) : State :=
  let s1 := clearTracked (abortRun (endEntry (stopStart s 6 6) 6 1))
  let s2 := gulesLifeCycle { s1 with cmds := { s1.cmds with area0 := {}, area1 := {}, area2 := {} } }
  deriveDepot (unmask { s2 with keys := f s2.keys })

/-- A Servicing visit ends. DEDUCED, log 151. -/
def leaveServicing (s : State) : State := lcChange (fun k => { k with servicing := none }) s

/-- A debug session ends: the root of the life-cycle state is in use again (R236, R238). DEDUCED, log 151. -/
def closeDebug (s : State) : State :=
  let s1 := gulesLifeCycle s
  deriveDepot (unmask { s1 with keys := { s1.keys with debug := false, debugEnd := none } })

/-- SERVICING_END_TIME (R237, R238, R264): the RTC passes the end time of the Servicing record, or that of the credential
that opened a debug session, which is void from then on. -/
def doServicingEndTime (s : State) : State :=
  if lcOf s = .servicing then
    match s.keys.servicing with
    | some r => passEnd (leaveServicing (elapseToRtc s (r.endAt + 1)))
    | none => s
  else if s.keys.debug then
    match s.keys.debugEnd with
    | some t => passEnd (closeDebug (elapseToRtc s (t + 1)))
    | none => s
  else s

/-! ### Credentials (R238, R239) -/

/-- The actions of LC_CREDENTIAL, by code from 1. -/
inductive CredAction where
  | provision | field | enterServicing | tamperAck | lockoutEnd | retire | debugOpen | keyLoad
  deriving DecidableEq, Repr

/-- The code of an action; its right is the bit below. -/
def actionCode : CredAction → Nat
  | .provision => 1 | .field => 2 | .enterServicing => 3 | .tamperAck => 4 | .lockoutEnd => 5 | .retire => 6
  | .debugOpen => 7 | .keyLoad => 8

/-- The credential of an LC_CREDENTIAL record. -/
def credOf (b : Bytes) : Bytes := b.drop 8

/-- NOT_AFTER_H. -/
def credHours (b : Bytes) : Nat := leAt (credOf b) 30 2

/-- The 64-byte payload. -/
def credKey (b : Bytes) : Bytes := slice (credOf b) 32 64

/-- Reserved fields and ranges of LC_CREDENTIAL (R238, R239): ACTION, PATH, RIGHTS, PAYLOAD_LEN against LEN, a payload
where the action needs one, a limit for ENTER_SERVICING, the target slot for KEY_LOAD. DEDUCED, log 144. -/
def credBad (b : Bytes) : Bool :=
  let a := byteAt b 4
  let pl := leAt (credOf b) 28 2
  decide (a < 1) || decide (8 < a) || (if a == 5 then decide (2 < byteAt b 5) else byteAt b 5 != 0) ||
    leAt b 6 2 != 0 || byteAt (credOf b) 3 != 0 || pl + 104 != b.length || ((a == 1 || a == 8) && pl != 64) ||
    (a == 3 && credHours b == 0) || (a == 8 && credHours b != 173 && credHours b != 174)

/-- PROVISION or KEY_LOAD writes, or FIELD invalidates, a slot whose GEN is 0xFFFF_FFFF, which refuses it (R251). -/
def credSpent (s : State) (b : Bytes) : Bool :=
  let full (n : Fin 224) : Bool := (slotAt s n).gen == 0xFFFFFFFF
  (byteAt b 4 == 1 && full 172) || (byteAt b 4 == 2 && (full slotRw || full slotEpoch)) || (byteAt b 4 == 8 && full (if credHours b == 173 then 173 else 174))

/-- The key that an action's signature needs in the present state; none where no signer is named (R237 to R239, R261).
DEDUCED, log 144. -/
def credSigner (s : State) (a : CredAction) : Option Bytes :=
  let slot (n : Fin 224) : Option Bytes := some (if (slotAt s n).state = .valid then (slotAt s n).key.getD [] else [])
  match a, lcOf s with
  | .provision, .blank => some Config.torvernKey
  | .field, .provisioned => slot 172
  | .enterServicing, .fielded => slot 174
  | .tamperAck, .blank => some Config.torvernKey
  | .tamperAck, .provisioned => slot 172
  | .tamperAck, .fielded => slot 174
  | .tamperAck, .servicing => slot 174
  | .lockoutEnd, .provisioned => slot 172
  | .lockoutEnd, .fielded => slot 174
  | .lockoutEnd, .servicing => slot 174
  | .retire, .blank => some Config.torvernKey
  | .retire, .provisioned => slot 172
  | .retire, .servicing => slot 174
  | .debugOpen, .blank => some Config.torvernKey
  | .debugOpen, .provisioned => slot 172
  | .keyLoad, .provisioned => slot 172
  | .keyLoad, .fielded => slot 172
  | _, _ => none

/-- The checks of R238 on a credential presented against a challenge. DEDUCED, log 144. -/
def credGood (s : State) (a : CredAction) (chal : Option (Bytes × Nat)) (key b : Bytes) : Bool :=
  let c := credOf b
  match chal with
  | none => false
  | some (x, issued) =>
    leAt c 0 2 == 1 && bitAt (leAt c 2 2) (actionCode a - 1) && decide (slice c 4 8 = serialBytes s) &&
      decide (slice c 12 16 = x) && decide (rtcNow s ≤ issued + 600) &&
      (a == .keyLoad || credHours b == 0 || decide (rtcNow s ≤ issued + 3600 * credHours b)) &&
      !key.isEmpty && Config.ecdsaVerify key (c.take (c.length - 64)) (c.drop (c.length - 64))

/-- The RTC second at which what a credential opens ends. -/
def credEnd (chal : Option (Bytes × Nat)) (b : Bytes) : Nat :=
  match chal with
  | some (_, issued) => issued + 3600 * credHours b
  | none => 0

/-- What a credential's action needs beyond its signature (R237, R261), and what it does. -/
structure CredEffect where
  allowed : State → Bytes → Bool
  act : Option (Bytes × Nat) → Bytes → State → State

/-- A presented credential: the challenge is consumed; PARAM_RANGE of its fields, LOCKED_OUT, AUTH_FAIL and WRONG_STATE decide in
that order, and an action without a signer in this state is WRONG_STATE (R237, R238). DEDUCED, log 144. -/
def presentCred (a : CredAction) (e : CredEffect) (c : CmdRec) (s0 : State) : Served :=
  let chal := s0.creds.chal
  let s := { s0 with creds := { s0.creds with chal := none } }
  if credBad c.bytes || credSpent s c.bytes then .now .paramRange [] s
  else if lockedOut s .credential then .now .lockedOut [] s
  else match credSigner s a with
    | none => .now .wrongState [] s
    | some key =>
      if !credGood s a chal key c.bytes then .now .authFail [] (addFailure s .credential)
      else if !e.allowed s c.bytes then .now .wrongState [] s
      else .long { committed := true } (e.act chal c.bytes s)

/-- LC_CREDENTIAL as one action's row. DEDUCED, log 143. -/
def credRow (a : CredAction) (e : CredEffect) : CmdRow :=
  { opcode := 0x0802
    len := fun b => lenIs 104 b || lenIs 168 b
    run := presentCred a e }

/-- LC_CREDENTIAL served for one action; PROVISION's row also answers a record whose ACTION names none.
DEDUCED, log 144. -/
def serveCred (a : CredAction) (e : CredEffect) (s : State) : State :=
  let code (b : Bytes) : Nat := if byteAt b 4 < 1 ∨ 8 < byteAt b 4 then 1 else byteAt b 4
  serveIf (credRow a e) (fun b => code b == actionCode a) s

/-- A public key written into slot 172, 173 or 174: P-256 public, usable for verification, protected by the
state-independent integrity key (R237, R239, R241, R242). ORIGIN of such a slot is free among the values below 3. -/
def writePublic (s : State) (n : Fin 224) (parent : Byte) (key : Bytes) : State :=
  let (o, s1) := drawNat s 3
  writeSlot s1 n { type := .p256pub, usage := 0x20, persist := true, expireReset := false, origin := BitVec.ofNat 2 o
                   lc := 4, parent := parent } key

/-- PROVISION (R237): Blank, after S15; Blank's Deep + Double end at the next Wake (R24). DESIGN CHOICE, log 14. -/
def doProvision (s : State) : State :=
  serveCred .provision
    { allowed := fun t _ => t.boot.step == 16
      act := fun _ b t =>
        nextProfiles (lcChange (fun k => { k with lcProv := true, tagPermalock := true }) (writePublic t 172 0xFF (credKey b))) } s

/-- FIELD (R237): a bundle is loaded and no debug session is open; ports are locked, the test roster is destroyed. -/
def doField (s : State) : State :=
  serveCred .field
    { allowed := fun t _ => t.cmds.bundle.isSome && !t.keys.debug
      act := fun _ _ t =>
        let t1 := dropAllCtx (destroyRoster t)
        let t2 := lcChange (fun k => { k with
          lcField := true, debugLocked := true, jtagLimited := true, rosterCount := 0, hfMask := [] }) t1
        commitPart { t2 with tamper := { t2.tamper with lock := true } } rosterPages } s

/-- ENTER_SERVICING (R237, R264): no start session, and the host has not reported the engine running. -/
def doEnterServicing (s : State) : State :=
  serveCred .enterServicing
    { allowed := fun t _ => t.pres.start.isNone && !(t.bar.vstate.valid && t.bar.vstate.engineRun)
      act := fun chal b t => lcChange (fun k => { k with servicing := some (servRecord t (credEnd chal b)) }) t } s

/-- The latch cleared; with a service-lock, it ends and start-up resumes at S6, or at an earlier step (R261, R436). -/
def tamperAcked (o : StartOutcome) (s : State) : State :=
  let s1 := { s with
    tamper := { s.tamper with src := 0, time := 0, frac := 0, ePending := false, eTimes := [], lockLatch := false }
    keys := { s.keys with svcLock := false } }
  if s.keys.svcLock || s.boot.locked then resumeAt o (if s.boot.step < 6 then s.boot.step else 6) s1
  else s1

/-- TAMPER_ACK (R261): every live source reads 0; `live`: the detector outputs as it is served. DEDUCED, log 145. -/
def doTamperAck (live : BitVec 6) (o : StartOutcome) (s0 : State) : State :=
  let s := detectors s0 live
  serveCred .tamperAck
    { allowed := fun t _ => t.tamper.live == 0
      act := fun _ _ t => tamperAcked o t } s

/-- A lock-out ended early, its failure list cleared. -/
def lockoutEnded (s : State) (p : LockPath) : State :=
  let s1 := endLockout s p
  saveLock (setLock s1 p { (lockOf s1 p) with fails := [] }) p

/-- LOCKOUT_END: PATH names the passive path, the HF path or both. -/
def doLockoutEnd (s : State) : State :=
  serveCred .lockoutEnd
    { allowed := fun _ _ => true
      act := fun _ b t =>
        let t1 := if byteAt b 5 == 1 then t else lockoutEnded t .passive
        if byteAt b 5 == 0 then t1 else lockoutEnded t1 .hf } s

/-- RETIRE (R237, R240). DEDUCED, log 151. -/
def doRetire (s : State) : State :=
  serveCred .retire
    { allowed := fun _ _ => true
      act := fun _ _ t => retireErase (lcChange (fun k => { k with lcRetire := true, debugLocked := true, jtagLimited := true }) t) } s

/-- DEBUG_OPEN (R236): Gules switches to the Debug root at once. -/
def doDebugOpen (s : State) : State :=
  serveCred .debugOpen
    { allowed := fun _ _ => true
      act := fun chal b t =>
        if t.keys.debug then t
        else
          let t1 := gulesLifeCycle t
          deriveDepot (unmask { t1 with keys := { t1.keys with
            debug := true, debugEnd := if credHours b == 0 then none else some (credEnd chal b) } }) } s

/-- KEY_LOAD (R239): the payload replaces the key of slot 173 or 174. -/
def doKeyLoad (s : State) : State :=
  serveCred .keyLoad
    { allowed := fun _ _ => true
      act := fun _ b t => writePublic t (if credHours b == 173 then 173 else 174) 172 (credKey b) } s

/-! ### Challenges and the credential lock-out (R238) -/

/-- LC_CHALLENGE: a fresh CHAL from the TRNG voids the previous one; without the TRNG as R283 says. -/
def doLcChallenge (s : State) : State :=
  serve
    { opcode := 0x0801, len := lenIs 4
      run := fun _ t =>
        match trngRefusal t with
        | some st => .now st [] t
        | none =>
          let (x, t1) := drbgBytes t 16
          .now .ok x { t1 with creds := { t1.creds with chal := some (x, rtcNow t1) } } } s

/-- CHALLENGE_EXPIRY (R238): 10 minutes after its issue. -/
def doChallengeExpiry (s : State) : State :=
  match s.creds.chal with
  | none => s
  | some (_, t) =>
    let s1 := elapseToRtc s (t + 600)
    { s1 with creds := { s1.creds with chal := none } }

/-- CREDENTIAL_LOCKOUT_EXPIRY (R177, R238). -/
def doCredentialLockoutExpiry (s : State) : State :=
  if lockedOut s .credential then passEnd (endLockout (elapseToRtc s s.creds.lock.endAt) .credential) else s

/-- LC_SERVICE_EXIT: Servicing only (R237). -/
def doLcServiceExit (s : State) : State :=
  serve
    { opcode := 0x0803, len := lenIs 4, barred := fun t => lcOf t != .servicing
      run := fun _ t => .now .ok [] (leaveServicing t) } s

/-- LC_STATUS. -/
def doLcStatus (s : State) : State :=
  serve
    { opcode := 0x0804, len := lenIs 4
      run := fun _ t =>
        .now .ok (leBytes 4 (lcStateReg t) ++ leBytes 4 t.tamper.src.toNat ++ leBytes 4 t.tamper.time.toNat ++
          leBytes 4 t.pres.passive.endAt ++ leBytes 4 t.pres.hf.endAt ++ leBytes 4 t.creds.lock.endAt) t } s

/-! ### The commands of this file -/

/-- TAMPER_ALARM (R260). -/
def execTamperAlarm (src : BitVec 6) (o : StartOutcome) (s : State) : Host.Outcome State Fault Refusal :=
  done s (doTamperAlarm src o s)

/-- TAMPER_CLASS_E_RECOVERY (R260). -/
def execTamperClassERecovery (s : State) : Host.Outcome State Fault Refusal :=
  done s (doTamperClassERecovery s)

/-- PROVISION (R237). -/
def execProvision (s : State) : Host.Outcome State Fault Refusal :=
  done s (doProvision s)

/-- FIELD (R237). -/
def execField (s : State) : Host.Outcome State Fault Refusal :=
  done s (doField s)

/-- ENTER_SERVICING (R237). -/
def execEnterServicing (s : State) : Host.Outcome State Fault Refusal :=
  done s (doEnterServicing s)

/-- TAMPER_ACK (R261). -/
def execTamperAck (live : BitVec 6) (o : StartOutcome) (s : State) : Host.Outcome State Fault Refusal :=
  done s (doTamperAck live o s)

/-- LOCKOUT_END (R178). -/
def execLockoutEnd (s : State) : Host.Outcome State Fault Refusal :=
  done s (doLockoutEnd s)

/-- RETIRE (R240). -/
def execRetire (s : State) : Host.Outcome State Fault Refusal :=
  done s (doRetire s)

/-- DEBUG_OPEN (R236). -/
def execDebugOpen (s : State) : Host.Outcome State Fault Refusal :=
  done s (doDebugOpen s)

/-- KEY_LOAD (R239). -/
def execKeyLoad (s : State) : Host.Outcome State Fault Refusal :=
  done s (doKeyLoad s)

/-- SERVICING_END_TIME (R237). -/
def execServicingEndTime (s : State) : Host.Outcome State Fault Refusal :=
  done s (doServicingEndTime s)

/-- CHALLENGE_EXPIRY (R238). -/
def execChallengeExpiry (s : State) : Host.Outcome State Fault Refusal :=
  done s (doChallengeExpiry s)

/-- CREDENTIAL_LOCKOUT_EXPIRY (R238). -/
def execCredentialLockoutExpiry (s : State) : Host.Outcome State Fault Refusal :=
  done s (doCredentialLockoutExpiry s)

/-- LC_CHALLENGE (R238). -/
def execLcChallenge (s : State) : Host.Outcome State Fault Refusal :=
  done s (doLcChallenge s)

/-- LC_SERVICE_EXIT (R237). -/
def execLcServiceExit (s : State) : Host.Outcome State Fault Refusal :=
  done s (doLcServiceExit s)

/-- LC_STATUS (R383). -/
def execLcStatus (s : State) : Host.Outcome State Fault Refusal :=
  done s (doLcStatus s)

end Sys2Proof.Machine
end

