-- ==== Sys2Proof/Machine/Commands.lean ====
section
/-! DEFINITION. The system, presence, roster and key commands of the host (R24, R114, R182, R183, R213, R255 to R257, R326,
R381 to R389, and the tables of groups 0x01 to 0x04; R285 to R288). -/

namespace Sys2Proof.Machine

open Sys2Proof

/-! ### System group, 0x01 -/

/-- Enrolled contexts. -/
def ctxCount (s : State) : Nat := (s.ctxs.toList.filter fun c => c.valid).length

/-- FW_VER of the image that runs; free in the boot ROM, of which the specification names none.
DESIGN CHOICE, log 147. -/
def fwVer (s : State) : Bytes × State :=
  if s.boot.running = .none then drawBytes s 3 else ((imageAt s (runningSlot s.boot.running)).ver, s)

/-- SYS_INFO. DESIGN CHOICE, log 147. -/
def doSysInfo (s : State) : State :=
  serve
    { opcode := 0x0101, len := lenIs 4
      run := fun _ t =>
        let (v, t1) := fwVer t
        .now .ok (serialBytes t ++ v ++ [byte (lcStateReg t), byte (b2n t.pres.deep), byte (b2n t.pres.double), byte (b2n t.keys.depot),
          byte (ctxCount t), byte (imageCode t.boot.running), byte (b2n (onTrial t.boot)), 0, 0] ++
          leBytes 4 t.orr.sys.bundleSeq.toNat ++ leBytes 4 t.keys.rosterEpoch.toNat ++ leBytes 4 t.ledger.nextIndex.toNat) t1 } s

/-- SYS_ECHO. A payload beyond 248 bytes is a BULK frame (R386), whose CONTENT and COUNT the specification does not name:
they are free. DESIGN CHOICE, log 147. -/
def doSysEcho (s : State) : State :=
  serve
    { opcode := 0x0102, len := fun b => decide (4 ≤ b.length) && decide (b.length ≤ 256)
      run := fun c t =>
        let p := c.bytes.drop 4
        if p.length ≤ 248 then .now .ok p t
        else
          let (x, t1) := drawBytes t 3
          .now .ok (bulkResult t1.ev.bulkFn (byteAt x 0) p.length (leAt x 1 2)) (postBulk t1 p) } s

/-- SYS_TIME_GET. -/
def doSysTimeGet (s : State) : State :=
  serve
    { opcode := 0x0103, len := lenIs 4
      run := fun _ t => .now .ok (leBytes 4 (rtcNow t) ++ leBytes 2 (t.rtc.frac.toNat / 32) ++ [byte (tqOf t), 0]) t } s

/-- TQ[1:0] as a SYS_TIME_SET leaves it (R326). DEDUCED, log 149. -/
def driftSet (s : State) : BitVec 2 := if !s.rtc.crystal then 0 else if 60 ≤ s.rtc.windows then 2 else 1

/-- Durations that the model counts in RTC seconds keep their age across a setting of the time. DEDUCED, log 149. -/
def shiftTimers (s : State) (old new : Nat) : State :=
  let f (t : Nat) : Nat := new + t - old
  { s with
    pwr := { s.pwr with
      idleSince := f s.pwr.idleSince
      touch := vmap s.pwr.touch fun c => { c with trippedAt := f c.trippedAt } }
    vert := { s.vert with ch := vmap s.vert.ch fun c => { c with sweepAt := c.sweepAt.map f } }
    az := { s.az with ports := vmap s.az.ports fun p => { p with testAt := p.testAt.map f } }
    tamper := { s.tamper with eTimes := s.tamper.eTimes.map f } }

/-- A TIME_SET keeps the remaining lock-out time (R177). DEDUCED, log 149. -/
def shiftLock (old new : Nat) (s : State) (p : LockPath) : State :=
  if lockedOut s p then saveLock (setLock s p { (lockOf s p) with endAt := new + ((lockOf s p).endAt - old) }) p else s

/-- The time set: RTC and TQ, stored lock-outs, the TIME_SET entry with the new time (R177, R325, R326).
DEDUCED, log 149. -/
def timeSet (s : State) (secs frac : Nat) (auth : Bool) : State :=
  let old := s.rtc
  let tq := tqOf s
  let s1 := { s with rtc := { s.rtc with
    secs := BitVec.ofNat 32 secs, frac := BitVec.ofNat 15 (32 * frac), acc := 0, origin := if auth then 2 else 1, drift := driftSet s } }
  let s2 := [LockPath.passive, .hf, .credential].foldl (shiftLock old.secs.toNat secs) (shiftTimers s1 old.secs.toNat secs)
  ledgerAdd s2 9 0 0 none ([byte tq, byte (b2n auth)] ++ leBytes 4 old.secs.toNat ++ leBytes 2 (old.frac.toNat / 32))

/-- SYS_TIME_SET: MODE 1 needs the signature of slot 172 over the outstanding challenge, which it consumes. -/
def doSysTimeSet (s : State) : State :=
  serve
    { opcode := 0x0104
      len := fun b => if byteAt b 10 == 1 then lenIs 76 b else if byteAt b 10 == 0 then lenIs 12 b else lenIs 12 b || lenIs 76 b
      bad := fun _ b => decide (1023 < leAt b 8 2) || decide (1 < byteAt b 10) || byteAt b 11 != 0
      run := fun c t =>
        let b := c.bytes
        if byteAt b 10 == 0 then .now .ok [] (timeSet t (leAt b 4 4) (leAt b 8 2) false)
        else
          let t1 := { t with creds := { t.creds with chal := none } }
          let k := slotAt t 172
          let good : Bool := match t.creds.chal with
            | none => false
            | some (x, issued) =>
              k.state = .valid && decide (rtcNow t ≤ issued + 600) &&
                Config.ecdsaVerify (k.key.getD []) (ascii "TV8160-TIME" ++ serialBytes t ++ x ++ slice b 4 8) (slice b 12 64)
          if good then .long { committed := true } (timeSet t1 (leAt b 4 4) (leAt b 8 2) true) else .now .authFail [] t1 } s

/-- SYS_RESTART: KIND and reserved bytes. DEDUCED, log 143. -/
def restartBad (b : Bytes) : Bool := decide (1 < byteAt b 4) || !allZero (slice b 5 3)

/-- SYS_RESTART with KIND 0, and the refusal of an undefined KIND: the steward restarts once the answer is posted. -/
def doSysRestartSteward (s : State) : State :=
  serveIf
    { opcode := 0x0105, len := lenIs 8, bad := fun _ b => restartBad b
      run := fun _ t => .now .ok [] { t with cmds := { t.cmds with after := .stewardRestart } } } (fun b => byteAt b 4 != 1) s

/-- SYS_RESTART with KIND 1: the device resets through Jet once the answer is out. DEDUCED, log 146. -/
def doSysRestartDevice (s : State) : State :=
  serveIf
    { opcode := 0x0105, len := lenIs 8, bad := fun _ b => restartBad b
      run := fun _ t =>
        if t.pres.start.isSome then .now .busy [] t
        else .now .ok [] { t with cmds := { t.cmds with after := .deviceRestart } } } (fun b => byteAt b 4 == 1) s

/-- Whether an approach, or a run of the start path, is running. -/
def approachRuns (s : State) : Bool :=
  match s.pres.run with
  | some r => r.kind != .tracking
  | none => false

/-- Whether an entry or a start session is open. -/
def sessionOpen (s : State) : Bool := s.pres.entry.isSome || s.pres.start.isSome

/-- SYS_POWER (R415): it sets REST; the entry follows the posted answer. DEDUCED, log 146. -/
def doSysPower (s : State) : State :=
  serve
    { opcode := 0x0106, len := lenIs 8
      bad := fun _ b => decide (byteAt b 4 < 1) || decide (3 < byteAt b 4) || !allZero (slice b 5 3)
      run := fun c t =>
        let target := restOf (byteAt c.bytes 4)
        if target = .amber && !(amberEn t && !t.keys.svcLock) then .now .wrongState [] t
        else if approachRuns t || sessionOpen t || t.pres.startReq.isSome || !t.cmds.longs.isEmpty then .now .busy [] t
        else .now .ok [] { t with pwr := { t.pwr with rest := target }, cmds := { t.cmds with after := .rest target } } } s

/-- SYS_EVT_MASK: bits 7 and 9 stay 1. -/
def doSysEvtMask (s : State) : State :=
  serve
    { opcode := 0x0107, len := lenIs 8
      bad := fun _ b => leAt b 4 2 % 2 != 0 || decide (4096 ≤ leAt b 4 2) || leAt b 6 2 != 0
      run := fun c t => .now .ok [] { t with ev := { t.ev with mask := BitVec.ofNat 16 (leAt c.bytes 4 2) ||| 0x0280 } } } s

/-! ### Presence group, 0x02 -/

/-- Life-cycle states in which PRES_WAKE and PRES_START are allowed. -/
def grantState (s : State) : Bool := lcOf s = .provisioned || lcOf s = .fielded

/-- PRES_PROFILE (R24): from the next Wake; persisted in CAL. -/
def doPresProfile (s : State) : State :=
  serve
    { opcode := 0x0201, len := lenIs 8
      bad := fun _ b => decide (1 < byteAt b 4) || decide (1 < byteAt b 5) || leAt b 6 2 != 0
      run := fun c t =>
        let d := byteAt c.bytes 4 == 1
        let r := byteAt c.bytes 5 == 1
        .now .ok [] (markDirty { t with
          pres := { t.pres with nextDeep := d, nextDouble := r }, orr := { t.orr with profile := some (d, r) } } calProfile) } s

/-- PRES_WAKE: handles treated as touched (R29, R178; in the XO fallback as R403 says). -/
def doPresWake (s : State) : State :=
  serve
    { opcode := 0x0202, len := lenIs 8, barred := fun t => !grantState t
      bad := fun _ b => byteAt b 4 == 0 || decide (15 < byteAt b 4) || !allZero (slice b 5 3)
      run := fun c t =>
        if lockedOut t .passive then .now .lockedOut [] t
        else if t.clk.fallback then .now .ok [] (startLinger t (tHfLinger t))
        else .now .ok [] (startApproach t (BitVec.ofNat 4 (byteAt c.bytes 4)) false) } s

/-- PRES_START: its conditions in the row's order; PENDING while the start path runs (R213, R385, R478). -/
def doPresStart (s : State) : State :=
  serve
    { opcode := 0x0203, len := lenIs 4, barred := fun t => !grantState t
      run := fun c t =>
        if lockedOut t .passive then .now .lockedOut [] t
        else if !t.bar.fieldEnd.synced then .now .epochMismatch [] t
        else if !t.bar.vstate.valid || t.bar.vstate.engineRun || !t.bar.vstate.standstill then .now .policyDenied [] t
        else match t.pres.start with
          | some x => .now .ok (leBytes 2 x.id.toNat) t
          | none =>
            if t.pres.startReq.isSome then .now .busy [] t
            else .now .pending [] (startPath { t with
              pres := { t.pres with startReq := some { since := now t, lastTry := now t } }
              cmds := { t.cmds with startCtag := some (BitVec.ofNat 16 (ctagOf c.bytes)) } }) } s

/-- PRES_DOOR: a report that changes the known state is logged, RETRY without room for a host report (R329); an opening
report of a door in the mask ends the entry session (R174). -/
def doPresDoor (s : State) : State :=
  serve
    { opcode := 0x0204, len := lenIs 8
      bad := fun _ b => decide (3 < byteAt b 4) || decide (1 < byteAt b 5) || leAt b 6 2 != 0
      run := fun c t =>
        let d := byteAt c.bytes 4
        let o := byteAt c.bytes 5 == 1
        let known := vgetN t.cmds.doors d none
        if known == some o then .now .ok [] t
        else if !ledgerHostRoom t then .now .retry [] t
        else
          let t1 := ledgerAdd { t with cmds := { t.cmds with doors := vmodN t.cmds.doors d fun _ => some o } } 4 0 0 none
            [byte d, byte (b2n o), 1]
          let t2 := match t1.pres.entry with
            | some e => if o && bitAt e.doors.toNat d then endEntry t1 1 0 else t1
            | none => t1
          .now .ok [] t2 } s

/-- PRES_TRACKED. -/
def doPresTracked (s : State) : State :=
  serve
    { opcode := 0x0205, len := lenIs 4
      run := fun _ t =>
        .now .ok ([byte t.pres.tracked.length, 0, 0, 0] ++
          t.pres.tracked.flatMap fun x => placementRecord x.ctx x.placement x.verdict.toNat) t } s

/-! ### Roster group, 0x03 -/

/-- The roster stored, and its ROSTER_LOAD entry (R325). -/
def rosterNote (s : State) (count : Nat) : State :=
  ledgerAdd (commitPart s rosterPages) 8 0 0 none
    ([byte (b2n s.keys.depot), 0] ++ leBytes 4 s.keys.rosterEpoch.toNat ++ leBytes 2 count)

/-- A change of one Keyring context: the roster epoch advances by one. DEDUCED, log 148. -/
def rosterStep (s : State) : State :=
  rosterNote { s with keys := { s.keys with rosterEpoch := s.keys.rosterEpoch + 1, rosterCount := ctxCount s } } (ctxCount s)

/-- A roster load or mode change: the tracked set is cleared, a run is discarded, the entry session ends with ROSTER
(R174, R183). -/
def rosterEnds (s : State) : State := endEntry (clearTracked (abortRun s)) 5 1

/-- Whether a slot refuses INVALIDATE for good (R251). -/
def genSpent (s : State) (n : Fin 224) : Bool := (slotAt s n).gen == 0xFFFFFFFF

/-- ROSTER_MODE (R257). DEDUCED, log 148. -/
def doRosterMode (s : State) : State :=
  serve
    { opcode := 0x0301, len := lenIs 8
      bad := fun _ b => decide (1 < byteAt b 4) || byteAt b 5 != 0xC5 || leAt b 6 2 != 0
      run := fun c t =>
        if genSpent t slotRw || genSpent t slotEpoch then .now .paramRange [] t
        else
          let t1 := dropAllCtx (destroyRoster (rosterEnds t))
          .now .ok [] (rosterNote { t1 with
            keys := { t1.keys with depot := byteAt c.bytes 4 == 1, rosterCount := 0, hfMask := [] } } 0) } s

/-- A context number; none from 160 on. -/
def ctxN (n : Nat) : Option (Fin 160) := if h : n < 160 then some ⟨n, h⟩ else none

/-- ROSTER_ADD (R246, R255): a context whose token stays the same keeps its press counter. DEDUCED, log 148. -/
def doRosterAdd (s : State) : State :=
  serve
    { opcode := 0x0302, len := lenIs 205, barred := fun t => t.keys.depot
      bad := fun _ b => decide (15 < byteAt b 4) || !allZero (slice b 5 3)
      run := fun c t =>
        let b := c.bytes
        match ctxN (byteAt b 4) with
        | none => .now .paramRange [] t
        | some x =>
          let id : W64 := BitVec.ofNat 64 (beAt b 8 8)
          let elsewhere := (List.finRange 160).any fun y => y ≠ x && (t.ctxs[y]).valid && (t.ctxs[y]).id == id
          if elsewhere || byteAt b 17 != x.val then .now .paramRange [] t
          else
            let r := importWrapped t (b.drop 16)
            if r.2 ≠ .ok then .now r.2 [] r.1
            else
              let old := r.1.ctxs[x]
              let t1 := if old.valid && old.id == id then r.1
                else { dropCtx r.1 x with ctxs := vset (dropCtx r.1 x).ctxs x { valid := true, id := id } }
              .long { committed := true } (rosterStep t1) } s

/-- ROSTER_ADD_HF (R255): the context holds a K_T. -/
def doRosterAddHf (s : State) : State :=
  serve
    { opcode := 0x0303, len := lenIs 197, barred := fun t => t.keys.depot
      bad := fun _ b => decide (15 < byteAt b 4) || !allZero (slice b 5 3)
      run := fun c t =>
        let b := c.bytes
        match ctxN (byteAt b 4) with
        | none => .now .paramRange [] t
        | some x =>
          if !((t.ctxs[x]).valid && (slotAt t (slotKt x)).state = .valid) then .now .wrongState [] t
          else if byteAt b 9 != 16 + x.val then .now .paramRange [] t
          else
            let r := importWrapped t (b.drop 8)
            if r.2 ≠ .ok then .now r.2 [] r.1 else .long { committed := true } (rosterStep r.1) } s

/-- ROSTER_REVOKE (R255, R264): slots n and 16 + n are invalidated, the token leaves the run and the tracked set. -/
def doRosterRevoke (s : State) : State :=
  serve
    { opcode := 0x0304, len := lenIs 8, barred := fun t => t.keys.depot
      bad := fun _ b => decide (15 < byteAt b 4) || !allZero (slice b 5 3)
      run := fun c t =>
        match ctxN (byteAt c.bytes 4) with
        | none => .now .paramRange [] t
        | some x =>
          if genSpent t (slotKt x) || genSpent t (slotKhf x) then .now .paramRange [] t
          else
            let t1 := (invalidate (invalidate t (slotKt x)).1 (slotKhf x)).1
            let t2 := dropCtx (endTok (departTracked t1 x) x) x
            .now .ok [] (rosterStep t2) } s

/-- Fields of a roster batch (R394). -/
def batchCount (b : Bytes) : Nat := leAt b 6 2

def batchEpoch (b : Bytes) : Nat := leAt b 8 4

/-- The wrapped key of a batch entry. DEDUCED, log 148. -/
def batchBlob (b : Bytes) : Bytes := slice b 16 205

def batchId (b : Bytes) (i : Nat) : Nat := beAt b (224 + 8 * i) 8

def batchMask (b : Bytes) : Bytes := b.drop (b.length - 20)

/-- A batch's blob is one of K_EPOCH: TARGET 165, TYPE 3 (R394). DEDUCED, log 148. -/
def epochBlob (b : Bytes) : Bool := byteAt (batchBlob b) 1 == 165 && byteAt (batchBlob b) 2 == 3

/-- R256 on a verified batch: slot 165 invalidated, K_EPOCH imported, the roster replaced, Depot slots derived; a blob that
fails leaves the roster as it was. With COUNT 0 step 1 alone runs: every Depot token slot is an orphan, slot 165 EMPTY, and the
stored roster epoch stays. -/
def loadBatch (s : State) (b : Bytes) : State × Status :=
  let n := batchCount b
  if genSpent s slotEpoch then (s, .paramRange)
  else
    let s1 := (invalidate s slotEpoch).1
    let r := if n = 0 then (s1, Status.ok) else if epochBlob b then importWrapped s1 (batchBlob b) else (s1, Status.paramRange)
    if r.2 ≠ .ok then (s, r.2)
    else
      let t := dropAllCtx (rosterEnds r.1)
      let t1 := { t with
        ctxs := Vector.ofFn fun c => if c.val < n then { valid := true, id := BitVec.ofNat 64 (batchId b c.val) } else {}
        keys := { t.keys with
          rosterEpoch := if n = 0 then t.keys.rosterEpoch else BitVec.ofNat 32 (batchEpoch b), rosterCount := n
          hfMask := (List.finRange 160).filter fun c => bitAt (byteAt (batchMask b) (c.val / 8)) (c.val % 8) } }
      (rosterNote (deriveDepot t1) n, .ok)

/-- ROSTER_LOAD (R183, R256). DEDUCED, log 148. -/
def doRosterLoad (s : State) : State :=
  serve
    { opcode := 0x0305, len := lenIs 4, barred := fun t => !t.keys.depot || !t.cmds.area1.verified, res := .staging
      run := fun _ t =>
        let b := t.cmds.area1.body
        let r := loadBatch t b
        if r.2 ≠ .ok then .now r.2 [] r.1
        else
          .long { committed := true, result := leBytes 2 (batchCount b) ++ [0, 0] ++ leBytes 4 (batchEpoch b) } (zeroArea r.1 1) } s

/-- One entry of ROSTER_LIST, little-endian (R4). DEDUCED, log 148. -/
def listEntry (s : State) (c : Fin 160) : Bytes :=
  let x := s.ctxs[c]
  let hf := if s.keys.depot then s.keys.hfMask.contains c else decide (c.val < 16) && (slotAt s (slotKhf c)).state = .valid
  let fl := b2n hf + 2 * b2n (s.pres.tracked.any fun t => t.ctx == c) + 4 * b2n (decide (0xFFFF0000 ≤ x.ctrL.toNat))
  leBytes 8 x.id.toNat ++ [byte (slotStateCode (slotAt s (slotKt c)).state), byte fl, 0, 0] ++ leBytes 4 x.ctrL.toNat

/-- ROSTER_LIST. -/
def doRosterList (s : State) : State :=
  serve
    { opcode := 0x0306, len := lenIs 8
      bad := fun t b =>
        byteAt b 5 == 0 || decide (15 < byteAt b 5) || leAt b 6 2 != 0 ||
          decide ((if t.keys.depot then 160 else 16) < byteAt b 4 + byteAt b 5)
      run := fun c t =>
        .now .ok ((List.range (byteAt c.bytes 5)).flatMap fun i => match ctxN (byteAt c.bytes 4 + i) with
          | some x => listEntry t x
          | none => []) t } s

/-! ### Keys and attestation group, 0x04 -/

/-- KEY_IMPORT: the tag keys, in Provisioned (R246). -/
def doKeyImport (s : State) : State :=
  serve
    { opcode := 0x0401, len := lenIs 193, barred := fun t => lcOf t != .provisioned
      bad := fun _ b => byteAt b 5 != 168 && byteAt b 5 != 169
      run := fun c t =>
        let r := importWrapped t (c.bytes.drop 4)
        if r.2 ≠ .ok then .now r.2 [] r.1 else .long { committed := true } r.1 } s

/-- KEY_TAG_LOAD (R248). -/
def doKeyTagLoad (s : State) : State :=
  serve
    { opcode := 0x0402, len := lenIs 4
      barred := fun t => lcOf t != .provisioned || [(167 : Fin 224), 168, 169].any fun n => (slotAt t n).state != .valid
      run := fun _ t =>
        let r := tagLoad t
        .now r.2 [] r.1 } s

/-- A refusal of DIK as R244 gives it, or of the random bits of a signature (R283); and DIK's key. -/
def dikRefusal (s : State) : Option Status :=
  match slotRefusal s (slotAt s 161) useSign with
  | some st => some st
  | none => trngRefusal s

def dikKey (s : State) : Bytes := (slotAt s 161).key.getD []

/-- KEY_IMPORT_PUB: K_IMP's public key, signed by DIK. -/
def doKeyImportPub (s : State) : State :=
  serve
    { opcode := 0x0403, len := lenIs 4, res := .signing
      run := fun _ t =>
        match dikRefusal t with
        | some st => .now st [] t
        | none =>
          let head := point65 (Config.ecPublic ((slotAt t 166).key.getD [])) ++ leBytes 4 t.keys.importSeq.toNat ++ [0, 0, 0]
          let (k, t1) := drbgBytes t 48
          .long { result := head ++ Config.ecdsaSign (dikKey t) k (ascii "TV8160-IMP" ++ serialBytes t ++ head) } t1 } s

/-- KEY_ATTR (R243). -/
def doKeyAttr (s : State) : State :=
  serve
    { opcode := 0x0404, len := lenIs 8
      bad := fun _ b => decide (223 < byteAt b 4) || !allZero (slice b 5 3)
      run := fun c t =>
        .now .ok (match slotN (byteAt c.bytes 4) with
          | some n => (attrWords (slotAt t n)).flatMap (leBytes 4)
          | none => []) t } s

/-! ### Attestation (R285 to R288) -/

/-- kid: the first 8 bytes of SHA-256 over the DIK public key. -/
def dikKid (dikPub : Bytes) : Bytes := (Config.sha256 (point65 dikPub)).take 8

/-- PROGRAM sections of the loaded bundle in engine and address order. -/
def loadedPrograms (s : State) : List Bytes :=
  match s.cmds.bundle with
  | none => []
  | some b =>
    let l := (b.secs.filter fun p => p.1 == 12).map (·.2)
    sortBy (fun x => 65536 * byteAt x 0 + leAt x 2 2) l

/-- One entry of the PROGRAMS claim. DEDUCED, log 150. -/
def programClaim (x : Bytes) : Bytes :=
  cborArr [cborUint (byteAt x 0), cborUint (leAt x 2 2), cborBstr (Config.sha256 (slice x 8 (2 * leAt x 4 2))), cborUint (byteAt x 1)]

/-- Every condition of R288. DEDUCED, log 150. -/
def evaluated (s : State) : Bool :=
  let v := (imageAt s (runningSlot s.boot.running)).ver
  (s.boot.running == .slotA || s.boot.running == .slotB) && byteAt v 0 == 3 && byteAt v 1 == 2 &&
    decide (lcOf s = .fielded) && !s.keys.svcLock && (loadedPrograms s).all (fun x => byteAt x 1 == 0) &&
    s.keys.debugLocked && s.keys.jtagLimited && s.tamper.lock

/-- The claims map of R286. DEDUCED, log 150. -/
def claims (s : State) (nonce : Bytes) : Bytes :=
  let img := imageAt s (runningSlot s.boot.running)
  let flags := b2n s.keys.svcLock + 2 * b2n s.keys.debug + 4 * b2n (s.tamper.src != 0) + 8 * b2n (s.pres.deep && (s.gq.engAOut || s.gq.engBOut))
  let clear := (List.finRange 224).filter fun n => (slotAt s n).state != .empty && (slotAt s n).origin == 3
  let vals : List Bytes :=
    [cborBstr (serialBytes s), cborTstr "TV8160-BG196-A2", cborArr (img.ver.map fun x => cborUint x.toNat),
     cborUint (lcCode (lcOf s)), cborUint flags,
     cborArr [cborUint (imageCode s.boot.running), cborBstr img.sha, cborUint s.boot.arbDevice],
     cborBstr (if s.cmds.bundle.isSome then s.orr.sys.digest else []), cborArr ((loadedPrograms s).map programClaim),
     cborArr [cborUint (b2n s.keys.depot), cborUint s.keys.rosterEpoch.toNat, cborUint (ctxCount s)],
     cborArr [cborUint (b2n s.pres.deep), cborUint (b2n s.pres.double)], cborArr (clear.map fun n => cborUint n.val),
     cborBstr (point65 (Config.ecPublic ((slotAt s 162).key.getD []))), cborUint (rtcNow s), cborBool (evaluated s), cborBstr nonce]
  cborMap (vals.zipIdx.map fun p => (cborUint (p.2 + 1), p.1))

/-- The attestation statement of R285, signed with the random bits `k` (R282). DEDUCED, log 150. -/
def statement (s : State) (k nonce : Bytes) : Bytes :=
  let payload := claims s nonce
  coseSign1 (cborMap [(cborUint 4, cborBstr (dikKid (Config.ecPublic (dikKey s))))]) payload
    (Config.ecdsaSign (dikKey s) k (sigStructure payload))

/-- KEY_ATTEST (R285, R386). -/
def doKeyAttest (s : State) : State :=
  serve
    { opcode := 0x0405, len := fun b => decide (12 ≤ b.length) && decide (b.length ≤ 36), res := .signing
      run := fun c t =>
        match dikRefusal t with
        | some st => .now st [] t
        | none =>
          let (k, t1) := drbgBytes t 48
          .long (bulkAns 2 1 (statement t k (c.bytes.drop 4))) t1 } s

/-- KEY_ENDORSE (R287, R386): the endorsement as the boot sector holds it. -/
def doKeyEndorse (s : State) : State :=
  serve
    { opcode := 0x0406, len := lenIs 4, res := .signing
      run := fun _ t => .long (bulkAns 3 1 t.boot.endorse) t } s

/-! ### The commands of this file -/

/-- SYS_INFO (R383). -/
def execSysInfo (s : State) : Host.Outcome State Fault Refusal :=
  done s (doSysInfo s)

/-- SYS_ECHO (R383). -/
def execSysEcho (s : State) : Host.Outcome State Fault Refusal :=
  done s (doSysEcho s)

/-- SYS_TIME_GET (R326). -/
def execSysTimeGet (s : State) : Host.Outcome State Fault Refusal :=
  done s (doSysTimeGet s)

/-- SYS_TIME_SET (R326). -/
def execSysTimeSet (s : State) : Host.Outcome State Fault Refusal :=
  done s (doSysTimeSet s)

/-- SYS_RESTART_STEWARD (R453). -/
def execSysRestartSteward (s : State) : Host.Outcome State Fault Refusal :=
  done s (doSysRestartSteward s)

/-- SYS_RESTART_DEVICE (R388). -/
def execSysRestartDevice (s : State) : Host.Outcome State Fault Refusal :=
  done s (doSysRestartDevice s)

/-- SYS_POWER (R415). -/
def execSysPower (s : State) : Host.Outcome State Fault Refusal :=
  done s (doSysPower s)

/-- SYS_EVT_MASK (R387). -/
def execSysEvtMask (s : State) : Host.Outcome State Fault Refusal :=
  done s (doSysEvtMask s)

/-- PRES_PROFILE (R24). -/
def execPresProfile (s : State) : Host.Outcome State Fault Refusal :=
  done s (doPresProfile s)

/-- PRES_WAKE (R29). -/
def execPresWake (s : State) : Host.Outcome State Fault Refusal :=
  done s (doPresWake s)

/-- PRES_START (R478). -/
def execPresStart (s : State) : Host.Outcome State Fault Refusal :=
  done s (doPresStart s)

/-- PRES_DOOR (R174). -/
def execPresDoor (s : State) : Host.Outcome State Fault Refusal :=
  done s (doPresDoor s)

/-- PRES_TRACKED (R383). -/
def execPresTracked (s : State) : Host.Outcome State Fault Refusal :=
  done s (doPresTracked s)

/-- ROSTER_MODE (R257). -/
def execRosterMode (s : State) : Host.Outcome State Fault Refusal :=
  done s (doRosterMode s)

/-- ROSTER_ADD (R255). -/
def execRosterAdd (s : State) : Host.Outcome State Fault Refusal :=
  done s (doRosterAdd s)

/-- ROSTER_ADD_HF (R255). -/
def execRosterAddHf (s : State) : Host.Outcome State Fault Refusal :=
  done s (doRosterAddHf s)

/-- ROSTER_REVOKE (R255). -/
def execRosterRevoke (s : State) : Host.Outcome State Fault Refusal :=
  done s (doRosterRevoke s)

/-- ROSTER_LOAD (R256). -/
def execRosterLoad (s : State) : Host.Outcome State Fault Refusal :=
  done s (doRosterLoad s)

/-- ROSTER_LIST (R383). -/
def execRosterList (s : State) : Host.Outcome State Fault Refusal :=
  done s (doRosterList s)

/-- KEY_IMPORT (R246). -/
def execKeyImport (s : State) : Host.Outcome State Fault Refusal :=
  done s (doKeyImport s)

/-- KEY_TAG_LOAD (R248). -/
def execKeyTagLoad (s : State) : Host.Outcome State Fault Refusal :=
  done s (doKeyTagLoad s)

/-- KEY_IMPORT_PUB (R383). -/
def execKeyImportPub (s : State) : Host.Outcome State Fault Refusal :=
  done s (doKeyImportPub s)

/-- KEY_ATTR (R243). -/
def execKeyAttr (s : State) : Host.Outcome State Fault Refusal :=
  done s (doKeyAttr s)

/-- KEY_ATTEST (R285). -/
def execKeyAttest (s : State) : Host.Outcome State Fault Refusal :=
  done s (doKeyAttest s)

/-- KEY_ENDORSE (R287). -/
def execKeyEndorse (s : State) : Host.Outcome State Fault Refusal :=
  done s (doKeyEndorse s)

end Sys2Proof.Machine
end

