-- ==== Sys2Proof/Machine/Transfer.lean ====
section
/-! DEFINITION. Sealed transfers and what STAGE_VERIFY checks of an image, a bundle and a roster batch (R53, R96, R131,
R142, R152, R160, R161, R185, R390 to R394, R418, R437). -/

namespace Sys2Proof.Machine

open Sys2Proof

/-- What a content check finds: nothing wrong; a fault with the offset and REASON of STAGE_VERIFY's result; a sequence number
that is not greater than the stored one. -/
inductive Content where
  | good
  | invalid (off reason : Nat)
  | denied
  deriving DecidableEq, Repr

/-- A check with the offset and REASON that it reports when it fails. -/
structure Check where
  ok : Bool
  off : Nat := 0
  reason : Nat

/-- The first check of a list that fails decides. -/
def firstFault (l : List Check) : Content :=
  match l.find? fun c => !c.ok with
  | some c => .invalid c.off c.reason
  | none => .good

/-- `a` decides, or `b` where `a` finds nothing. -/
def Content.andThen (a : Content) (b : Content) : Content := if a = .good then b else a

/-! ### The transfer (R390, R391) -/

/-- KIND of the transfer that an area takes. -/
def kindOf (area : Nat) : Nat := match area with
  | 0 => 1
  | 1 => 3
  | _ => 2

/-- R391 step 1 on the first 16 bytes of a transfer of `total` bytes. UNVERIFIED, log 157. -/
def headerOk (s : State) (area total : Nat) (h : Bytes) : Bool :=
  byteAt h 0 == 1 && byteAt h 1 == kindOf area && leAt h 2 2 == 0 && slice h 8 8 == serialBytes s &&
    leAt h 4 4 + 173 == total && decide (1 ≤ leAt h 4 4) && decide (leAt h 4 4 ≤ areaMax area)

/-- The key that R391 step 2 names; none while its slot is not valid. UNVERIFIED, log 157. -/
def transferKey (s : State) (area : Nat) : Option Bytes :=
  if area ≠ 1 && lcOf s = .blank then some Config.torvernKey
  else
    let k := slotAt s (if area = 1 then 173 else 172)
    if k.state = .valid then k.key else none

/-- R391 step 2: SIG over everything before it. -/
def transferSigned (s : State) (area : Nat) (b : Bytes) : Bool :=
  match transferKey s area with
  | some k => Config.ecdsaVerify k (b.take (b.length - 64)) (b.drop (b.length - 64))
  | none => false

/-- R391 step 3: the plaintext, where Q_E is a point of the curve (R282) and the GCM tag verifies.
UNVERIFIED, log 157. -/
def transferOpen (s : State) (b : Bytes) : Option Bytes :=
  let n := b.length - 173
  let q := slice b 16 65
  let kek := Config.kdf (Config.ecdh 32 ((slotAt s 166).key.getD []) (q.drop 1)) (ascii "TV8160-WRAP") (slice q 1 32 ++ b.take 16) 256
  let iv := slice b 81 12
  let pt := Config.ctrDec false kek iv (slice b 93 n)
  if Config.ecOnCurve (q.drop 1) && decide ((Config.gcm kek iv (b.take 16) pt).2 = slice b (93 + n) 16) then some pt else none

/-! ### Images (R437) -/

/-- The image checks in their order. -/
def imageContent (s : State) (b : Bytes) : Content :=
  (firstFault [
    { ok := imageHeaderOk b, reason := 1 },
    { ok := imageSigned b, reason := 1 },
    { ok := imageHashed b, reason := 1 }]).andThen
  (if leAt b 12 4 < s.boot.arbDevice then .denied else .good)

/-- The image slot as programmed. -/
def imageSlotOf (b : Bytes) : ImageSlot :=
  { present := true, bytes := b, ver := slice b 6 3, arb := leAt b 12 4, digest := slice b 32 32, sha := Config.sha256 b }

/-- The programming of a verified image begins: until it has been read back the slot meets no check and is not valid (R437).
DESIGN CHOICE, log 129. -/
def programBegin (s : State) (b : Bytes) : State :=
  let n := targetSlot s
  let s1 := bootCommit s (setSlotState s.boot.record n .empty)
  { s1 with boot := { s1.boot with images := vset s1.boot.images (imageIx n) { imageSlotOf b with intact := false } } }

/-- The programming has been read back: the slot is valid (R437). DESIGN CHOICE, log 129. -/
def programEnd (s : State) : State :=
  let n := targetSlot s
  let s1 := bootCommit s (setSlotState s.boot.record n .valid)
  { s1 with boot := { s1.boot with images := vmod s1.boot.images (imageIx n) fun x => { x with intact := true } } }

/-! ### Bundle: header and sections (R392) -/

/-- A section with its offset in the plaintext. -/
structure Section where
  off : Nat
  type : Nat
  body : Bytes

/-- The sections from an offset on, or the offset of the first that breaks the structure. DEDUCED, log 158. -/
def walkSections : Nat → Nat → Bytes → Except Nat (List Section)
  | 0, off, _ => .error off
  | k + 1, off, bs =>
    if bs.isEmpty then .ok []
    else
      let n := leAt bs 2 2
      let padded := ceilDiv n 4 * 4
      if bs.length < 4 + padded || !allZero (slice bs (4 + n) (padded - n)) then .error off
      else (walkSections k (off + 4 + padded) (bs.drop (4 + padded))).map ({ off := off, type := leAt bs 0 2, body := slice bs 4 n } :: ·)

/-- SLEN of the types 1 to 11. -/
def fixedLen (t : Nat) : Nat := [0, 16, 28, 1040, 64, 200, 1912, 64, 4, 16, 8, 4].getD t 0

/-- Exactly the length given for the type. -/
def lengthOk (x : Section) : Bool :=
  if x.type == 12 then x.body.length == 72 + 2 * leAt x.body 4 2
  else decide (1 ≤ x.type) && decide (x.type ≤ 11) && x.body.length == fixedLen x.type

/-- A name of ASCII characters, zero-padded. DEDUCED, log 158. -/
def nameOk (b : Bytes) : Bool := b.all (fun c => decide (c.toNat < 128)) && allZero (b.dropWhile (· != 0))

/-- The header of R392 against the body and its number of sections. DEDUCED, log 158. -/
def bundleHeaderOk (b : Bytes) (sections : Nat) : Bool :=
  decide (32 ≤ b.length) && slice b 0 4 == ascii "IZBN" && leAt b 4 2 == 1 && leAt b 6 2 == sections && leAt b 12 4 == b.length &&
    nameOk (slice b 16 16)

/-- Whether a byte is a number below `n` or 0xFF for none. -/
def noneOrBelow (n x : Nat) : Bool := decide (x < n) || x == 0xFF

/-! ### Values of the sections -/

/-- GENERAL. -/
def generalOk (b : Bytes) : Bool :=
  leAt b 0 2 != 0 && decide (byteAt b 2 ≤ 1) && decide (byteAt b 3 ≤ 1) && decide (byteAt b 4 ≤ 3) && decide (1 ≤ byteAt b 5) &&
    decide (byteAt b 5 ≤ 2) && decide (byteAt b 6 ≤ 2) && decide (byteAt b 7 ≤ 3) && decide (byteAt b 8 ≤ 15) &&
    decide (5 ≤ byteAt b 9) && decide (byteAt b 9 ≤ 120) && decide (1 ≤ byteAt b 10) && decide (byteAt b 10 ≤ 30) &&
    decide (1 ≤ byteAt b 11) && decide (byteAt b 11 ≤ 30) && decide (10 ≤ byteAt b 12) && decide (byteAt b 12 ≤ 120) &&
    allZero (slice b 13 3)

/-- LF: R69, the population and substitutes; F_LF of 125 kHz where the Aqmos link is enabled (R96). -/
def lfOk (gen b : Bytes) : Bool :=
  decide (8000 ≤ leAt b 0 2) && decide (leAt b 0 2 ≤ 60000) && decide (leAt b 2 2 < 4096) &&
    ((List.range 24).all fun i => noneOrBelow 12 (byteAt b (4 + i))) && (!bitAt (byteAt gen 4) 0 || leAt b 0 2 == 50000)

/-- A TERM is used. -/
def termUsed (b : Bytes) (n j : Nat) : Bool := byteAt b (16 + 64 * n + 16 * j + 13) == 1

/-- A TRIPLE and whether it is used. -/
def tripleAt (b : Bytes) (t : Nat) : Bytes := slice b (784 + 16 * t) 16

def tripleUsed (b : Bytes) (t : Nat) : Bool := byteAt (tripleAt b t) 0 != 0xFF

/-- Channels in which two triples differ. DESIGN CHOICE, log 190. -/
def tripleDiff (x y : Bytes) : Nat := ((List.range 3).filter fun i => byteAt x i != byteAt y i).length

/-- One TRIPLE against R160 and R161. -/
def tripleOk (b : Bytes) (t : Nat) : Bool :=
  let x := tripleAt b t
  let m := leAt b 2 2
  let chOk := (List.range 3).all fun i => decide (byteAt x i < 12) && bitAt m (byteAt x i)
  let distinct := byteAt x 0 != byteAt x 1 && byteAt x 0 != byteAt x 2 && byteAt x 1 != byteAt x 2
  let ampOk := (List.range 3).all fun i => decide (byteAt x (3 + i) ≤ 63)
  let p := byteAt x 13
  let primOk := p == 0xFF ||
    (decide (p < 16) && tripleUsed b p && byteAt (tripleAt b p) 13 == 0xFF && decide (tripleDiff x (tripleAt b p) ≤ 1))
  !tripleUsed b t || (chOk && distinct && ampOk && primOk && !bitAt (byteAt x 12) 0 && leAt x 14 2 == 0)

/-- Whether a value lies in a range. -/
def within (lo hi x : Nat) : Bool := decide (lo ≤ x) && decide (x ≤ hi)

/-- FIELD_MAP (R160, R161). -/
def fieldMapOk (lf b : Bytes) : Bool :=
  let m := leAt b 2 2
  leAt b 0 2 == 1 && decide (m < 4096) && leAt b 4 2 == leAt lf 0 2 && within 1 20 (byteAt b 6) && within 4 40 (byteAt b 7) &&
    within 2 20 (byteAt b 8) && within 2 12 (byteAt b 9) && within 2 12 (byteAt b 10) && decide (byteAt b 11 ≤ 1) &&
    leAt b 12 4 == 0 && decide (byteAt b 6 < byteAt b 7) &&
    ((List.range 12).all fun n => (List.range 4).all fun j =>
      decide (byteAt b (16 + 64 * n + 16 * j + 13) ≤ 1) && leAt b (16 + 64 * n + 16 * j + 14) 2 == 0) &&
    ((List.range 12).all fun n => !bitAt (leAt lf 2 2) n || bitAt m n) &&
    ((List.range 12).all fun n => !bitAt m n || (List.range 4).any (termUsed b n)) &&
    (List.range 16).all (tripleOk b)

/-- A PHY entry of the UWB_PHY section. -/
def phyAt (b : Bytes) (n : Nat) : AzPhy := phyPut (phyPut {} false (secWord b (8 * n))) true (secWord b (8 * n + 4))

/-- R131 on an entry that a program uses. -/
def phyOk (b : Bytes) (n : Nat) : Bool :=
  let p := phyAt b n
  Config.uwbCodeOk p.chan.toNat p.prf.toNat p.code.toNat && (p.prf != 0 || (p.rate == 0 && p.stsSeg == 0)) && p.prf != 3 &&
    p.sp != 0 && decide (leAt b (8 * n) 4 < 2 ^ 21) && decide (leAt b (8 * n + 4) 4 < 256)

/-- UWB_PORTS: port and pair records and the alternates. DEDUCED, log 158. -/
def portsOk (b : Bytes) : Bool :=
  ((List.range 6).all fun p =>
    decide (byteAt b (20 * p + 16) ≤ 3) && noneOrBelow 6 (byteAt b (20 * p + 17)) && noneOrBelow 6 (byteAt b (20 * p + 18)) &&
      byteAt b (20 * p + 19) == 0) &&
  ((List.range 6).all fun i =>
    byteAt b (120 + 12 * i + 1) == 0xFF ||
      (decide (byteAt b (120 + 12 * i) < 6) && decide (byteAt b (120 + 12 * i + 1) < 6) && noneOrBelow 6 (byteAt b (120 + 12 * i + 10)) &&
        noneOrBelow 6 (byteAt b (120 + 12 * i + 11)))) &&
  (List.range 8).all fun k => noneOrBelow 8 (byteAt b (192 + k))

/-! ### Zone map (R151, R152) -/

/-- A volume of the zone map. -/
def volumeOk (b : Bytes) (off : Nat) : Bool :=
  let n := byteAt b off
  let l := zonePlanes b off
  allZero (slice b (off + 1) 3) && (n == 0 ||
    (within 4 8 n && bounded l && (l.all fun p => decide (16320 * 16320 ≤ dot p p) && decide (dot p p ≤ 16448 * 16448)) &&
      (triples l).all fun t => match meet t.1 t.2.1 t.2.2 with
        | some (v, m) => !farVertex l v m
        | none => true))

/-- PRECEDENCE: zones 1 to 7 each once, 0 last. -/
def precedenceOk (b : Bytes) : Bool :=
  let z (i : Nat) : Nat := leAt b 2 4 / 16 ^ i % 16
  z 7 == 0 && (List.range 7).all fun k => ((List.range 7).filter fun i => z i == k + 1).length == 1

/-- ZONE_MAP. DEDUCED, log 158. -/
def zoneMapOk (b : Bytes) : Bool :=
  leAt b 0 2 == 1 && leAt b 6 2 == 0 && precedenceOk b && (List.range 28).all fun v => volumeOk b (8 + 68 * v)

/-! ### UHF and the small sections -/

/-- A frequency within the three synthesiser ranges. -/
def uhfRange (f : Nat) : Bool := within 300000000 350000000 f || within 380000000 470000000 f || within 770000000 960000000 f

def uhfAqmos (f : Nat) : Bool := f == 315000000 || f == 433920000 || f == 868300000

/-- UHF (R185); `aqmos`: entries that a Tenné program selects. An entry is used that a program selects, that has SNIFF set or
whose FREQ is not 0. DEDUCED, log 159. -/
def uhfOk (gen b : Bytes) (aqmos : List Nat) : Bool :=
  let freq (n : Nat) : Nat := leAt b (8 * n) 4 % 2 ^ 30
  let sniff (n : Nat) : Bool := bitAt (leAt b (8 * n) 4) 30
  ((List.range 8).all fun n =>
    let carries := aqmos.contains n || sniff n
    (!(carries || freq n != 0) || uhfRange (freq n)) && (!carries || uhfAqmos (freq n)) && !bitAt (leAt b (8 * n) 4) 31 &&
      decide (byteAt b (8 * n + 4) < 64) && leAt b (8 * n + 6) 2 == 0) &&
  (!bitAt (byteAt gen 4) 1 || ((List.range 8).filter sniff).length == 1)

/-- COEX. -/
def coexSecOk (b : Bytes) : Bool := decide (leAt b 0 4 < 16)

/-- HANDLES. -/
def handlesOk (b : Bytes) : Bool :=
  (List.range 4).all fun i =>
    byteAt b (4 * i) == 0xFF ||
      (decide (byteAt b (4 * i) < 4) && decide (byteAt b (4 * i + 1) < 8) && decide (byteAt b (4 * i + 2) < 4) && byteAt b (4 * i + 3) == 0)

/-- TOUCH (R418). -/
def touchOk (b : Bytes) : Bool :=
  decide (byteAt b 0 < 16) && allZero (slice b 1 3) &&
    (List.range 4).all fun c => decide (byteAt b (4 + c) < 128) && (!bitAt (byteAt b 0) c || byteAt b (4 + c) % 64 != 0)

/-- HF_LPCD. -/
def lpcdOk (b : Bytes) : Bool := leAt b 2 2 == 0

/-! ### Programs (R53, R84, R122, R147, R392) -/

/-- The engine of a PROGRAM section. -/
def progEngine (b : Bytes) : SeqId := match byteAt b 0 with
  | 0 => .vert
  | 1 => .azure
  | _ => .tenne

/-- Its words. -/
def progCode (b : Bytes) : List Nat := (List.range (leAt b 4 2)).map fun i => leAt b (8 + 2 * i) 2

/-- Its instructions, empty where a word does not decode. -/
def progOps (b : Bytes) : List ProgOp := (decodeAll (progEngine b) (progCode b).length (progCode b)).getD []

/-- Its run with the loops unrolled. -/
def progTrace (b : Bytes) : List ProgOp := ((unroll (progOps b)).getD []).map (·.op)

/-- Fields of a PROGRAM section. -/
def progFieldsOk (b : Bytes) : Bool := decide (byteAt b 0 ≤ 2) && decide (byteAt b 1 ≤ 1) && leAt b 6 2 == 0

/-- Two programs of one engine overlap. -/
def progOverlap (a b : Bytes) : Bool :=
  byteAt a 0 == byteAt b 0 && decide (leAt a 2 2 < leAt b 2 2 + leAt b 4 2) && decide (leAt b 2 2 < leAt a 2 2 + leAt a 4 2)

/-- A program against its engine's rules and the bundle's own tables; TX of the launching entry is checked at ARM. -/
def progOk (bu : Bundle) (b : Bytes) : Bool :=
  let ws := progCode b
  let start := leAt b 2 2
  let ports := secOfBundle bu 5
  let tables : AzureTables :=
    { pop := portsPopulated ports, phy := phyAt (secOfBundle bu 4), txOk := true
      txAllowed := (List.range 6).foldl (fun m p => m + 2 ^ p * b2n (bitAt (byteAt ports (20 * p + 16)) 1)) 0 }
  leAt b 4 2 != 0 && decide (start + leAt b 4 2 ≤ progWords (progEngine b)) &&
    match progEngine b with
    | .vert => vertProgOk (leAt (secOfBundle bu 2) 2 2) start ws
    | .azure => azureProgOk tables start ws
    | .tenne => tenneProgOk true (fun n => byteAt (secOfBundle bu 7) (8 * n + 4) % 64) start ws

/-- A program's signature (R392, R393). -/
def progSigned (s : State) (b : Bytes) : Bool :=
  let n := 2 * leAt b 4 2
  let msg := ascii "TV8160-PROG" ++ slice b 0 6 ++ slice b 8 n
  let sig := slice b (8 + n) 64
  if byteAt b 1 == 0 then Config.ecdsaVerify Config.torvernKey msg sig
  else if lcOf s = .blank || (slotAt s 172).state ≠ .valid then false
  else Config.ecdsaVerify ((slotAt s 172).key.getD []) msg sig

/-- PHY entries that the Azure programs select. DEDUCED, log 159. -/
def phyUsed (progs : List Bytes) : List Nat :=
  (progs.filter fun b => byteAt b 0 == 1).flatMap fun b => (progOps b).filterMap fun o => match o with
    | .azPhy n => some n
    | _ => none

/-- Channel entries that the Tenné programs select. DEDUCED, log 159. -/
def chanUsed (progs : List Bytes) : List Nat :=
  (progs.filter fun b => byteAt b 0 == 2).flatMap fun b => (progOps b).filterMap fun o => match o with
    | .tnSynth n => some n
    | _ => none

/-- The receive ports A and B that a run turns on together, each with the PHY entry in force. -/
def rxPairs : List ProgOp → Nat → List (Nat × Nat × Nat)
  | [], _ => []
  | .azPhy n :: l, _ => rxPairs l n
  | .azRxOn a b :: l, n => (a, b, n) :: rxPairs l n
  | _ :: l, n => rxPairs l n

/-- R142: no pair's baseline exceeds half the wavelength of a channel that a program uses on it. -/
def baselinesOk (ports phy : Bytes) (progs : List Bytes) : Bool :=
  let used := (progs.filter fun b => byteAt b 0 == 1).flatMap fun b => rxPairs (progTrace b) 0
  (List.range 6).all fun i =>
    let r := slice ports (120 + 12 * i) 12
    byteAt r 1 == 0xFF ||
      used.all fun u => !(u.1 == byteAt r 0 && u.2.1 == byteAt r 1) ||
        decide (leAt r 8 2 ≤ if (phyAt phy u.2.2).chan = 1 then 187 else 231)

/-! ### The bundle's content (R393) -/

/-- The value check of a section. DEDUCED, log 158. -/
def sectionOk (bu : Bundle) (progs : List Bytes) (x : Section) : Bool :=
  let gen := secOfBundle bu 1
  match x.type with
  | 1 => generalOk x.body
  | 2 => lfOk gen x.body
  | 3 => fieldMapOk (secOfBundle bu 2) x.body
  | 4 => (phyUsed progs).all (phyOk x.body)
  | 5 => portsOk x.body && baselinesOk x.body (secOfBundle bu 4) progs
  | 6 => zoneMapOk x.body
  | 7 => uhfOk gen x.body (chanUsed progs)
  | 8 => coexSecOk x.body
  | 9 => handlesOk x.body
  | 10 => touchOk x.body
  | 11 => lpcdOk x.body
  | _ => progFieldsOk x.body

/-- A section's type stood before it, among the types that appear once. -/
def repeated (l : List Section) (x : Section) : Bool := x.type != 12 && l.any fun y => y.type == x.type && decide (y.off < x.off)

/-- R392 and R393 on a plaintext: header, section structure, values, programs, program signatures, then BUNDLE_SEQ. -/
def bundleContent (s : State) (b : Bytes) : Content :=
  match walkSections (b.length + 1) 32 (b.drop 32) with
  | .error off => if bundleHeaderOk b (leAt b 6 2) then .invalid off 2 else .invalid 0 1
  | .ok l =>
    let bu : Bundle := { seq := BitVec.ofNat 32 (leAt b 8 4), model := slice b 16 16, secs := l.map fun x => (x.type, x.body) }
    let ps := l.filter fun x => x.type == 12
    let progs := ps.map (·.body)
    let has (t : Nat) : Bool := l.any fun x => x.type == t
    let seq := leAt b 8 4
    let stored := s.orr.sys.bundleSeq.toNat
    (firstFault (
      [{ ok := bundleHeaderOk b l.length, reason := 1 }] ++
      l.map (fun x => { ok := lengthOk x && !repeated l x, off := x.off, reason := 2 }) ++
      [{ ok := ((List.range 11).all fun t => has (t + 1)) && ((List.range 3).all fun e => progs.any fun p => byteAt p 0 == e), reason := 2 }] ++
      l.map (fun x => { ok := sectionOk bu progs x, off := x.off, reason := 3 }) ++
      ps.map (fun x => { ok := progOk bu x.body && !(ps.any fun y => decide (y.off < x.off) && progOverlap y.body x.body), off := x.off, reason := 4 }) ++
      ps.map (fun x => { ok := progSigned s x.body, off := x.off, reason := 5 }))).andThen
    (if seq < stored || (seq == stored && Config.sha256 b != s.orr.sys.digest) then .denied else .good)

/-! ### The batch's content (R394) -/

/-- IDs of a batch. -/
def batchIds (b : Bytes) : List Nat := (List.range (batchCount b)).map (batchId b)

/-- R394 on a plaintext. -/
def batchContent (s : State) (b : Bytes) : Content :=
  let n := batchCount b
  (firstFault [
    { ok := slice b 0 4 == ascii "IZRB" && leAt b 4 2 == 1 && decide (n ≤ 160) && b.length == 244 + 8 * n && decide (byteAt b 12 ≤ 1) &&
        allZero (slice b 13 3) && allZero (slice b 221 3), reason := 1 },
    { ok := (batchIds b).eraseDups.length == n, reason := 3 },
    { ok := n != 0 || (byteAt b 12 == 1 && allZero (batchBlob b)), reason := 3 },
    { ok := (List.range 160).all fun k => decide (k < n) || !bitAt (byteAt (batchMask b) (k / 8)) (k % 8), reason := 3 }]).andThen
  (if batchEpoch b ≤ s.keys.rosterEpoch.toNat then .denied else .good)

/-- The content check of an area. -/
def contentOf (s : State) (area : Nat) (b : Bytes) : Content :=
  match area with
  | 0 => imageContent s b
  | 1 => batchContent s b
  | _ => bundleContent s b

end Sys2Proof.Machine
end

