-- ==== Sys2Proof/Machine/Diag.lean ====
section
/-! DEFINITION. The diagnostics commands of the host, undefined opcodes, the completion of long commands and the posting of
events (R79, R144, R162, R186, R381, R383 to R387, R433, R449, and the table of group 0x09). -/

namespace Sys2Proof.Machine

open Sys2Proof

/-! ### Field tests (R79, R144, R186) -/

/-- 50 ms, for which a test waits for its conditions. -/
def testWait : Nat := 50 * ticksPerMs

/-- DIAG_LF_SWEEP: the sweeps of the masked channels run beneath later commands. -/
def doDiagLfSweep (s : State) : State :=
  serve
    { opcode := 0x0901, len := lenIs 8, res := .fieldTest
      bad := fun _ b => leAt b 4 2 == 0 || decide (4096 ≤ leAt b 4 2) || leAt b 6 2 != 0
      run := fun c t =>
        if approachRuns t || sessionOpen t then .now .busy [] t
        else .long { work := .lfSweep (BitVec.ofNat 12 (leAt c.bytes 4 2) &&& t.vert.pop) (now t) } t } s

/-- DIAG_UWB_TEST. DEDUCED, log 162. -/
def doDiagUwbTest (s : State) : State :=
  serve
    { opcode := 0x0902, len := lenIs 8, res := .fieldTest
      bad := fun _ b => byteAt b 4 == 0 || decide (64 ≤ byteAt b 4) || !allZero (slice b 5 3)
      run := fun c t =>
        if approachRuns t || sessionOpen t then .now .busy [] t
        else .long { work := .uwbTest (BitVec.ofNat 6 (byteAt c.bytes 4) &&& t.az.pop) (now t) } t } s

/-- CLASS of every LF channel and of every UWB port. -/
def lfClasses (s : State) : Bytes := s.vert.ch.toList.map fun c => byte (lfCode c.cls)

def azClasses (s : State) : Bytes := s.az.ports.toList.map fun p => byte (azCode p.cls)

/-- A LOOPBACK of a port under test: a FAULT port's test is requested with it (R144). -/
def testPort (s : State) (p : Fin 6) (x : PortCheck) : State :=
  classifyPort { (modPort s p fun y => { y with testReq := true }) with az := { (modPort s p fun y => { y with testReq := true }).az with
    nLoopback := satInc s.az.nLoopback } } p x.decoded x.amp x.dly

/-- The ports of a mask tested. -/
def testPorts (s : State) (mask : BitVec 6) (ports : Vector PortCheck 6) : State :=
  (List.finRange 6).foldl (fun t p => if bitAt mask.toNat p.val then testPort t p ports[p] else t) s

/-- States in which DIAG_FIELD_CAL and DIAG_PROBE are allowed. -/
def calState (s : State) : Bool := lcOf s = .provisioned || lcOf s = .servicing

/-- Element n of the GAIN and PHADJ arrays of DIAG_FIELD_CAL. -/
def calGain (b : Bytes) (n : Nat) : Int := s16 (leAt b (8 + 2 * n) 2)

def calPhAdj (b : Bytes) (n : Nat) : Int := s8 (byteAt b (32 + n))

/-- DIAG_FIELD_CAL (R162): the masked channels' GAIN and PHADJ, committed synchronously. DEDUCED, log 162. -/
def doDiagFieldCal (s : State) : State :=
  serve
    { opcode := 0x0905, len := lenIs 44, barred := fun t => !calState t
      bad := fun _ b => leAt b 4 2 == 0 || decide (4096 ≤ leAt b 4 2) || leAt b 6 2 != 0 ||
        (List.range 12).any fun n => decide (60 < (calGain b n).natAbs) || decide (32 < (calPhAdj b n).natAbs)
      run := fun c t =>
        let m := leAt c.bytes 4 2
        let cal := t.pres.cal
        let g (n : Fin 12) : Int := if bitAt m n.val then calGain c.bytes n.val else cal.gain[n]
        let p (n : Fin 12) : Int := if bitAt m n.val then calPhAdj c.bytes n.val else cal.phAdj[n]
        let r := commitTry { t with pres := { t.pres with cal := { cal with gain := Vector.ofFn g, phAdj := Vector.ofFn p } } } calField
        .now (if r.2 then .ok else .retry) [] r.1 } s

/-! ### DIAG_PROBE (R162) -/

/-- A measured slot of a probe. -/
def probeRes (s : State) (t k : Nat) (i : BitVec 12) (ph : Byte) : LfRes :=
  { iMeas := i, ph := ph, ch := BitVec.ofNat 4 (tripleByte s t k), valid := true }

/-- The exchange of a probe as Weigh takes it. -/
def probeExchange (s : State) (t : Fin 16) (sig : Bytes) (i : Vector (BitVec 12) 3) (a b : Vector Byte 3) : TintExchange :=
  let r (ph : Vector Byte 3) : LfResult :=
    { s0 := probeRes s t.val 0 i[0] ph[0], s1 := probeRes s t.val 1 i[1] ph[1], s2 := probeRes s t.val 2 i[2] ph[2] }
  { sig := sig, nC := s.gq.nC, select := true, triple := t, ownCoils := true, resA := r a, resB := r b }

/-- RHO: the root mean square residual in 0.1 dB. DEDUCED, log 162. -/
def rhoByte (ds : List Int) : Byte :=
  if ds.isEmpty then 0 else byte (Nat.min 255 (Nat.sqrt ((ds.map fun d => d.natAbs * d.natAbs).sum / ds.length) / 100))

/-- The result of a probe at a surveyed point. -/
def probeResult (s : State) (c : Fin 160) (t : Fin 16) (point : Int × Int × Int) (sig : Bytes) (i : Vector (BitVec 12) 3)
    (a b : Vector Byte 3) : Bytes :=
  let x := probeExchange s t sig i a b
  let ctx := s.ctxs[c]
  let fit := signatureFit
    { fieldMap := secOf s 3, gain := s.pres.cal.gain.toList, phAdj := s.pres.cal.phAdj.toList, tintA := tintOf s x false
      tintB := tintOf s x true, p := point, axes := axesK sig, first := ctx.firstUse, offset := ctx.offset }
  let lv (k : Nat) : Bytes := leBytes 2 (ofSigned 16 (fit.1.getD k 0 / 100)).toNat
  padTo 6 sig ++ [0, 0] ++ (List.range 6).flatMap lv ++ i.toList.flatMap (fun v => leBytes 2 v.toNat) ++
    [rhoByte (residuals sig fit.1 false ++ residuals sig fit.1 true), 0, 0, 0, 0, 0]

/-- DIAG_PROBE: `ok`, the token's proof verifies; then SIG, the currents and the phases of Tint A and Tint B as measured. The
challenge takes a fresh N_C, and its check a use of K_T (R249, R270). No challenge is sent while the passive path is locked
out (R178). DEDUCED, log 162. -/
def doDiagProbe (ok : Bool) (sig : Vector Byte 6) (i : Vector (BitVec 12) 3) (a b : Vector Byte 3) (s : State) : State :=
  serve
    { opcode := 0x0906, len := lenIs 12, barred := fun t => !calState t || !mayEmit t, res := .fieldTest
      bad := fun t b => decide (159 < byteAt b 4) || decide (15 < byteAt b 5) || tripleByte t (byteAt b 5) 0 == 0xFF
      run := fun c t =>
        match ctxN (byteAt c.bytes 4) with
        | none => .now .paramRange [] t
        | some x =>
          if lockedOut t .passive then .now .lockedOut [] t
          else if !(t.pres.tracked.any fun y => y.ctx == x) then .now .wrongState [] t
          else match (slotRefusal t (slotAt t (slotKt x)) useAqmos).or (trngRefusal t) with
            | some st => .now st [] t
            | none =>
              let (n, t1) := drbgBytes t 4
              let t2 := spendUse { t1 with gq := { t1.gq with nC := BitVec.ofNat 32 (beAt n 0 4), nCFresh := false } } (slotKt x)
              if !ok then .long { status := .authFail } (passiveFailure t2)
              else
                let k (n : Nat) : Int := s16 (leAt c.bytes (6 + 2 * n) 2) * 1000
                .long { result := probeResult t x ⟨byteAt c.bytes 5 % 16, Nat.mod_lt _ (by decide)⟩ (k 0, k 1, k 2) sig.toList i a b } t2 } s

/-! ### DIAG_UHF_TEST (R186) -/

/-- DIAG_UHF_TEST; `result`: bits received and bit errors. The grant of pair 0 is judged as the test ends.
DEDUCED, log 143, 162. -/
def uhfTest (result : Bytes) : CmdRow :=
  { opcode := 0x0907, len := lenIs 12, res := .fieldTest
    barred := fun t => !(lcOf t = .blank || lcOf t = .provisioned || lcOf t = .servicing) || !mayEmit t
    bad := fun t b =>
      decide (1 < byteAt b 4) || decide (7 < byteAt b 5) || decide (63 < byteAt b 6) || byteAt b 7 != 0 || leAt b 8 2 == 0 ||
        decide (10000 < leAt b 8 2) || leAt b 10 2 != 0 || decide ((vgetN t.tn.chan (byteAt b 5) {}).pwrMax.toNat < byteAt b 6)
    run := fun c t => .long { result := result, work := .uhfTest (now t) (leAt c.bytes 8 2 * ticksPerMs) (byteAt c.bytes 4 == 0) } t }

/-- DIAG_UHF_TEST with MODE 0, and the refusal of an undefined MODE: a carrier at STEP. DEDUCED, log 162. -/
def doDiagUhfCarrier (s : State) : State := coexUpdate (serveIf (uhfTest (zeros 8)) (fun b => byteAt b 4 != 1) s)

/-- DIAG_UHF_TEST with MODE 1: bits received and bit errors on the 2.4 kb/s test profile. DEDUCED, log 162. -/
def doDiagUhfReceive (bits errors : W32) (s : State) : State :=
  coexUpdate (serveIf (uhfTest (leBytes 4 bits.toNat ++ leBytes 4 errors.toNat)) (fun b => byteAt b 4 == 1) s)

/-! ### Exports (R386, R433, R449) -/

/-- Journal records with JSEQ from `first` on, in order. -/
def journalFrom (s : State) (first : Nat) : List Bytes :=
  sortBy (fun b : Bytes => leAt b 0 4)
    (((List.range 64).filterMap (ringRead s.orr.journal)).filter fun b => decide (first ≤ leAt b 0 4))

/-- DIAG_JOURNAL: as many records as the frame holds; none: FN 0xFF. -/
def doDiagJournal (s : State) : State :=
  serve
    { opcode := 0x0903, len := lenIs 8, res := .bulkOut
      run := fun c t =>
        let l := (journalFrom t (leAt c.bytes 4 4)).take 85
        if l.isEmpty then .long { result := bulkResult 0xFF 4 0 0 } t
        else .long (bulkAns 4 l.length (l.flatMap (padTo 48))) t } s

/-- GROUP and INDEX of a telemetry entry. -/
def telemKey (k : Nat) : Nat × Nat :=
  if k < 4 then (0, k) else if k < 20 then (1, k - 4) else if k < 28 then (2, k - 20) else if k < 44 then (3, k - 28)
  else if k < 52 then (4, k - 44) else if k < 60 then (5, k - 52) else (6, k - 60)

/-- One telemetry entry (R449). -/
def telemEntry (s : State) (k : Fin 76) : Bytes :=
  let t := s.orr.telem.totals[k]
  [byte (telemKey k.val).1, byte (telemKey k.val).2, byte (b2n t.sat), 0] ++ leBytes 8 t.total.toNat

/-- DIAG_TELEMETRY. -/
def doDiagTelemetry (s : State) : State :=
  serve
    { opcode := 0x0904, len := lenIs 4, res := .bulkOut
      run := fun _ t =>
        let h := leBytes 2 1 ++ leBytes 2 76 ++ leBytes 4 t.orr.telem.foldS.toNat ++ leBytes 4 t.orr.telem.chalkS ++ leBytes 4 t.orr.telem.cold
        .long (bulkAns 5 76 (h ++ (List.finRange 76).flatMap (telemEntry t))) t } s

/-! ### Undefined opcodes (R381, R383) -/

/-- The opcodes of the command tables. -/
def opcodeDefined (op : Nat) : Bool :=
  let n := op % 256
  decide (1 ≤ n) && decide (n ≤ [0, 7, 5, 6, 6, 14, 4, 8, 4, 7].getD (groupOf op) 0)

/-- UNDEFINED_OPCODE: BAD_OPCODE; a record of fewer than 4 bytes is answered BAD_LENGTH. -/
def doUndefinedOpcode (s : State) : State :=
  match s.cmds.queue with
  | [] => s
  | c :: rest =>
    if servesNow s && !opcodeDefined (opcodeOf c.bytes) then
      afterAnswer (passEnd (answerCmd { s with cmds := { s.cmds with queue := rest } } c
        (if c.bytes.length < 4 then .badLength else .badOpcode) []))
    else s

/-! ### Long commands end, events go out (R384, R386, R387) -/

/-- Whether an earlier long command holds the same resource. -/
def heldBefore (ls : List LongCmd) (l : LongCmd) : Bool :=
  l.res != .none && (ls.takeWhile (· != l)).any fun x => x.res == l.res

/-- The long command of a slot that may end. DEDUCED, log 167. -/
def longOf (s : State) (slot : Fin 16) : Option LongCmd := s.cmds.longs.find? fun l => l.slot == slot && !heldBefore s.cmds.longs l

/-- A long command ends as `x` says. -/
def endWith (s : State) (l x : LongCmd) : State :=
  finishLong { s with cmds := { s.cmds with longs := lmodIf s.cmds.longs (· == l) fun _ => x } } x

/-- A test whose conditions fail ends with BUSY 50 ms after its acceptance (R79). -/
def testBusy (s : State) (l : LongCmd) (since : Nat) : State :=
  if l.committed then s else endWith (elapseTo s (since + testWait)) l { l with status := .busy, result := [] }

/-- A DIAG_UHF_TEST ends after its DURATION; without the grant of pair 0, or with it withdrawn, COEX_DENIED, counted as any
denial (R197, R198); a carrier while nothing may be transmitted ends BUSY (R424). DEDUCED, log 162. -/
def uhfTestEnd (s0 : State) (l : LongCmd) (since dur : Nat) (tx : Bool) : State :=
  if tx && vbatNoTx s0 then coexUpdate (endWith s0 l { l with status := .busy, result := [] })
  else if coexGranted s0 0 then coexUpdate (finishLong (elapseTo s0 (since + dur)) l)
  else
    let s := anomSet { s0 with
      cel := { s0.cel with nCoex := satInc s0.cel.nCoex }, tn := { s0.tn with nCoex0 := satInc s0.tn.nCoex0 } } 8
    coexUpdate (endWith s l { l with status := .coexDenied, result := [] })

/-- A long command's end, as far as its work allows; `ports`: the loopbacks of a DIAG_UWB_TEST. DEDUCED, log 167. -/
def endLong (s : State) (l : LongCmd) (ports : Vector PortCheck 6) : State :=
  match l.work with
  | .done => finishLong s l
  | .program => finishLong (programEnd s) l
  | .uhfTest since dur tx => uhfTestEnd s l since dur tx
  | .lfSweep m since => if m = 0 then endWith s l { l with result := lfClasses s } else if sweepMay s then s else testBusy s l since
  | .uwbTest m since =>
    if sweepMay s then
      let t := testPorts s m ports
      endWith t l { l with result := azClasses t }
    else testBusy s l since

/-- LONG_COMMAND_COMPLETE (R384): the first long command of a slot ends and is answered. DEDUCED, log 167. -/
def doLongCommandComplete (slot : Fin 16) (ports : Vector PortCheck 6) (s : State) : State :=
  match longOf s slot with
  | none => s
  | some l => afterAnswer (passEnd (endLong s l ports))

/-- An EVT record's payload (R387). -/
def evtPayload (e : Event) (lost : Nat) : Bytes :=
  [e.code, byte lost] ++ leBytes 2 e.status.toNat ++ leBytes 4 e.rtcS.toNat ++ leBytes 4 e.tb.toNat ++ padTo 36 e.body

/-- EVT_POST (R387): the oldest event goes out once the buffer has room. -/
def doEvtPost (s : State) : State :=
  match s.ev.ring with
  | [] => s
  | e :: es =>
    if s.cmds.outbox.isEmpty && s.bar.link = .up && !s.cmds.repostWait && roomFor s (recordUnits 48) then
      let s1 := postRecord s 2 (byte s.ev.evtIdx.toNat) (evtPayload e s.ev.lost)
      afterAnswer (passEnd { s1 with ev := { s1.ev with ring := es, lost := 0, evtIdx := s1.ev.evtIdx + 1 } })
    else s

/-! ### The commands of this file -/

/-- DIAG_LF_SWEEP (R79). -/
def execDiagLfSweep (s : State) : Host.Outcome State Fault Refusal :=
  done s (doDiagLfSweep s)

/-- DIAG_UWB_TEST (R144). -/
def execDiagUwbTest (s : State) : Host.Outcome State Fault Refusal :=
  done s (doDiagUwbTest s)

/-- DIAG_JOURNAL (R435). -/
def execDiagJournal (s : State) : Host.Outcome State Fault Refusal :=
  done s (doDiagJournal s)

/-- DIAG_TELEMETRY (R449). -/
def execDiagTelemetry (s : State) : Host.Outcome State Fault Refusal :=
  done s (doDiagTelemetry s)

/-- DIAG_FIELD_CAL (R162). -/
def execDiagFieldCal (s : State) : Host.Outcome State Fault Refusal :=
  done s (doDiagFieldCal s)

/-- DIAG_PROBE (R162). -/
def execDiagProbe (ok : Bool) (sig : Vector Byte 6) (cur : Vector (BitVec 12) 3) (a : Vector Byte 3) (b : Vector Byte 3) (s : State) : Host.Outcome State Fault Refusal :=
  done s (doDiagProbe ok sig cur a b s)

/-- DIAG_UHF_CARRIER (R186). -/
def execDiagUhfCarrier (s : State) : Host.Outcome State Fault Refusal :=
  done s (doDiagUhfCarrier s)

/-- DIAG_UHF_RECEIVE (R186). -/
def execDiagUhfReceive (bits : W32) (errors : W32) (s : State) : Host.Outcome State Fault Refusal :=
  done s (doDiagUhfReceive bits errors s)

/-- UNDEFINED_OPCODE (R383). -/
def execUndefinedOpcode (s : State) : Host.Outcome State Fault Refusal :=
  done s (doUndefinedOpcode s)

/-- LONG_COMMAND_COMPLETE (R384). -/
def execLongCommandComplete (slot : Fin 16) (ports : Vector PortCheck 6) (s : State) : Host.Outcome State Fault Refusal :=
  done s (doLongCommandComplete slot ports s)

/-- EVT_POST (R387). -/
def execEvtPost (s : State) : Host.Outcome State Fault Refusal :=
  done s (doEvtPost s)

end Sys2Proof.Machine
end

