-- ==== Sys2Proof/Machine/Background.lean ====
section
/-! DEFINITION. Background services, job completions and the steward's resets (R118, R141, R143, R144, R267, R296, R326, R444
to R454). -/

namespace Sys2Proof.Machine

open Sys2Proof

/-! ### Jobs (R267) -/

/-- GQ_JOB_COMPLETE: a running job ends with its status and output, and the steward acts on it; a window job takes its next
segment (R274). `mismatch`: the outputs of paired
or repeated runs differ (R279, R280). DESIGN CHOICE, log 166. -/
def doGqJobComplete (tag : Fin 48) (mismatch : Bool) (s : State) : State :=
  match jobAt s tag with
  | none => s
  | some j =>
    let grant := (memRead s.gq.inBuf (256 * tag.val)).toNat
    match endJob s tag mismatch with
    | (s1, none) => s1
    | (s1, some st) => passEnd (pipelineJob s1 tag j grant st)

/-- The steward acts on a pipeline job that ended at once, refused at its submission or at its start (R118, R244). -/
def settleRefused (s s1 : State) (t : Fin 48) : State :=
  match jobAt s t, jobAt s1 t with
  | some j, some k => if j.phase = .ready && k.phase = .done then passEnd (pipelineJob s1 t k (memRead s1.gq.inBuf (256 * t.val)).toNat k.status) else s1
  | none, some k => if k.phase = .done then passEnd (pipelineJob s1 t k (memRead s1.gq.inBuf (256 * t.val)).toNat k.status) else s1
  | _, _ => s1

/-- GQ_JOB_DISPATCH (R267): the first class whose next ready job can start starts it. -/
def doGqJobDispatch (s : State) : State :=
  match pickJob s with
  | some (t, j, e) => settleRefused s (startJob s t j e) t
  | none => s

/-- AQMOS_ALIAS (R101, R269). -/
def doAqmosAlias (w : JobWords) (s : State) : State := settleRefused s (submit .aqmosAlias w s.gq.privileged s) w.tag

/-- AQMOS_VERIFY (R269, R270). -/
def doAqmosVerify (w : JobWords) (s : State) : State := settleRefused s (submit .aqmosVerify w s.gq.privileged s) w.tag

/-- VERDICT (R271, R272). -/
def doVerdict (w : JobWords) (s : State) : State := settleRefused s (submit .verdict w s.gq.privileged s) w.tag

/-- REGISTER_WRITE (R5, R6): a 32-bit write at a word-aligned offset of a block. DEDUCED, log 113. -/
def doRegisterWrite (block : RegBlock) (off : W16) (v : W32) (s : State) : State :=
  let o := off.toNat / 4 * 4
  match block with
  | .celeste => celWrite o v s
  | .vert => vertWrite o v s
  | .azure => azWrite o v s
  | .tenne => tnWrite o v s
  | .gules =>
    let s1 := gqWrite o v s
    if o = 0x02C then
      match subTag s1.gq.sub with
      | some t => settleRefused s s1 t
      | none => s1
    else s1
  | .orr => orWrite o v s
  | .sable => sableWrite o v s

/-! ### Scrubbing (R296, R332, R444) -/

/-- Units of a pass: working SRAM, code NV with the boot sector, shadow SRAM, Or NV, key store NV. -/
def scrubUnits (m : Fin 5) : Nat := [512, 8256, 256, 9472, 256].getD m.val 1

/-- Bytes of a unit. -/
def scrubBytes (m : Fin 5) : Nat := [512, 128, 256, 128, 128].getD m.val 1

/-- Byte address of a group of the unit that is due. PRESUMED, log 163. -/
def scrubAddr (s : State) (m : Fin 5) (group : Nat) : Nat := s.bg.scrubAt[m] * scrubBytes m + 8 * (group % (scrubBytes m / 8))

/-- Where a byte of Or's NV lies: the store in the code of OR_ECC_ADDR, and the address within it. The banks' pages have 272
bytes, the legacy pages 48, trailers included. PRESUMED, log 163. -/
def nvPlace (a : Nat) : Nat × Nat :=
  if a < 69632 then (1, a)
  else if a < 139264 then (2, a - 69632)
  else if a < 163840 then (4, a - 139264)
  else (3, a - 163840)

/-- A corrected group of Or counted. -/
def countCe (s : State) : State := { s with orr := { s.orr with nEccCe := satInc s.orr.nEccCe } }

/-- A page whose copy holds a corrected group is committed again from that copy, which is no change of the page in SRAM; not while
its transaction is open (R296, R311, R332). PRESUMED, log 163. -/
def recommit (s : State) (p : Fin 256) : State :=
  match currentCopy (s.orr.pages[p]).nv with
  | none => s
  | some c => if s.orr.txnDone.toNat < c.txn.toNat then s else (commitData s p c.data 0 (readBacks s none)).1

/-- A ring page written again in its place, its content through the commit buffer (R296). PRESUMED, log 163. -/
def ringRewrite (g : RingGeo) (r : Ring) (q : Nat) : Ring :=
  { r with slots := r.slots.map fun x => if pageOfSlot g x.addr == q then { x with fixed := false } else x }

/-- The counters of a page or sector that is erased and written again. -/
def countRewrite (o : Store) : Store := { (addErases o 1) with nCommits := satInc o.nCommits }

/-- A corrected group of Or's NV: the page, slot page or ledger sector that holds it is committed again (R296).
PRESUMED, log 163. -/
def nvCorrected (s : State) (a : Nat) : State :=
  let (store, x) := nvPlace a
  if store = 1 ∨ store = 2 then
    let p := x / 272
    let half := store - 1
    if 74 ≤ p ∧ p < 106 then
      { s with orr := { (countRewrite s.orr) with ringCtr := ringRewrite geoCtr s.orr.ringCtr (p - 74 + 32 * half) } }
    else if 106 ≤ p ∧ p < 122 then
      { s with orr := { (countRewrite s.orr) with ringSec := ringRewrite geoSec s.orr.ringSec (p - 106 + 16 * half) } }
    else if 122 ≤ p ∧ p < 138 then
      { s with orr := { (countRewrite s.orr) with journal := ringRewrite geoJournal s.orr.journal (p - 122 + 16 * half) } }
    else match pageN p with
      | some q => recommit s q
      | none => s
  else if store = 4 then
    let p := x % 12288 / 48
    match currentCopy (vgetN s.orr.lw p {}) with
    | none => s
    | some c =>
      let r := commitNv (vgetN s.orr.lw p {}) c.data 0 (readBacks s none) s.orr
      let s1 := { s with orr := { r.2.1 with lw := vmodN s.orr.lw p fun _ => r.1 } }
      if r.2.2 then s1 else evtStore s1 3 4 p .ok
  else
    { s with
      orr := countRewrite s.orr
      ledger := { s.ledger with ring := s.ledger.ring.map fun e =>
        if e.pos % 16384 / 64 == x / 4096 then { e with fixed := false } else e } }

/-- A shadow page loaded again from its current NV copy: pending changes are lost (R332). The roster is committed as it
changes, and the rings' pages hold Or's index. -/
def reloadPage (s : State) (p : Fin 256) : State :=
  let s1 := { s with orr := { s.orr with pages := vmod s.orr.pages p fun g => { g with dirty := none } } }
  let n := p.val
  if n < 2 then
    let d := sysOf (partData s sysPages)
    { s1 with orr := { s1.orr with sys := d }, ledger := { s1.ledger with ack := d.ledgerAck } }
  else if n < 10 then restorePage s1 p
  else if 138 ≤ n ∧ n < 146 then { s1 with orr := { s1.orr with telem := telemOf (partData s telemPages) } }
  else if 146 ≤ n ∧ n < 150 then { s1 with ledger := { s1.ledger with lpend := lpendOf (partData s lpendPages) } }
  else if 58 ≤ n ∧ n < 138 then s1
  else { s1 with orr := { s1.orr with pages := vmod s1.orr.pages p fun g => { g with shadow := loadShadow g.nv } } }

/-- A ring's slots that lie on the group at data offset `o` of ring page `q` lose their validity.
PRESUMED, log 163. -/
def ringLose (g : RingGeo) (r : Ring) (q o : Nat) : Ring :=
  { r with slots := r.slots.map fun x => if x.addr == q * g.spp + o / (256 / g.spp) then { x with ue := true } else x }

/-- A page with a group of one copy uncorrectable. -/
def copyLost (g : NvPage) (bank : Bool) : NvPage :=
  if bank then { g with c1 := { g.c1 with ue := true } } else { g with c0 := { g.c0 with ue := true } }

/-- An uncorrectable group in a bank: the page copy, or the ring slot, is no longer valid. -/
def bankLose (s : State) (bank1 : Bool) (x : Nat) : State :=
  let p := x / 272
  let o := x % 272
  let half := b2n bank1
  if 74 ≤ p ∧ p < 106 then
    if o < 256 then { s with orr := { s.orr with ringCtr := ringLose geoCtr s.orr.ringCtr (p - 74 + 32 * half) o } } else s
  else if 106 ≤ p ∧ p < 122 then
    if o < 256 then { s with orr := { s.orr with ringSec := ringLose geoSec s.orr.ringSec (p - 106 + 16 * half) o } } else s
  else if 122 ≤ p ∧ p < 138 then
    if o < 256 then { s with orr := { s.orr with journal := ringLose geoJournal s.orr.journal (p - 122 + 16 * half) o } } else s
  else { s with orr := { s.orr with pages := vmodN s.orr.pages p fun g => { g with nv := copyLost g.nv bank1 } } }

/-- An uncorrectable group in the legacy window: its copy is no longer valid, and without another the page reads as zeros (R299).
PRESUMED, log 163. -/
def lwLose (s : State) (x : Nat) : State :=
  let p := x % 12288 / 48
  let g := vgetN s.orr.lw p {}
  let g1 := copyLost g (decide (12288 ≤ x))
  let s1 := { s with orr := { s.orr with lw := vmodN s.orr.lw p fun _ => g1 } }
  if (currentBank g).isSome && (currentBank g1).isNone then evtStore s1 1 4 p .ok else s1

/-- An uncorrectable group of a ledger entry: the group delivers no data, and the entry is damaged (R296, R327).
PRESUMED, log 163. -/
def ledgerLose (s : State) (x : Nat) : State :=
  { s with ledger := { s.ledger with ring := s.ledger.ring.map fun e =>
      if e.pos % 16384 == x / 64 then { e with ue := true, data := overlay e.data (x % 64 / 8 * 8) (zeros 8) } else e } }

/-- An uncorrectable group of Or's NV. PRESUMED, log 163. -/
def nvLost (s : State) (a : Nat) : State :=
  let (store, x) := nvPlace a
  let s1 := noteUe s store x
  if store = 1 then bankLose s1 false x
  else if store = 2 then bankLose s1 true x
  else if store = 3 then ledgerLose s1 x
  else lwLose s1 x

/-- An uncorrectable group of code NV or of the boot sector: the image that holds it no longer verifies (R456), and a copy of the
boot record, in the sector's first two pages of 272 bytes, is no longer valid (R299). PRESUMED, log 163. -/
def codeLose (s : State) (a : Nat) : State :=
  let lose (n : Fin 3) (t : State) : State :=
    { t with boot := { t.boot with images := vmod t.boot.images n fun x => { x with intact := false } } }
  anomSet (if a < 458752 then lose 0 s else if a < 917504 then lose 1 s else if a < 1048576 then lose 2 s
    else if a < 1048848 then { s with boot := { s.boot with page := { s.boot.page with c0 := { s.boot.page.c0 with ue := true } } } }
    else if a < 1049120 then { s with boot := { s.boot with page := { s.boot.page with c1 := { s.boot.page.c1 with ue := true } } } } else s) 3

/-- An uncorrectable group of a key record: the record is lost. PRESUMED, log 163. -/
def keyLose (s : State) (a : Nat) : State :=
  anomSet { s with keys := { s.keys with slots := vmodN s.keys.slots (a / 128) fun k => { k with nv := none } } } 3

/-- An uncorrectable group of working SRAM: in a retained copy that copy is no longer valid; elsewhere the steward restarts
(R451, R452). -/
def sramLose (s : State) (copy : Option Bool) : State :=
  let t := anomSet s 3
  match copy with
  | none => stewardRestart t
  | some false => { t with bg := { t.bg with ret0 := { t.bg.ret0 with valid := false } } }
  | some true => { t with bg := { t.bg with ret1 := { t.bg.ret1 with valid := false } } }

/-- What a unit finds acted on. DESIGN CHOICE, log 14. -/
def scrubFound (s : State) (m : Fin 5) (group : Fin 64) : ScrubFind → State
  | .clean => s
  | .corrected =>
    let s1 := anomSet s 2
    match m.val with
    | 2 => countCe s1
    | 3 => nvCorrected (countCe s1) (scrubAddr s m group.val)
    | _ => s1
  | .uncorrectable copy =>
    let a := scrubAddr s m group.val
    match m.val with
    | 0 => sramLose s copy
    | 1 => codeLose s a
    | 2 => reloadPage (noteUe s 0 a) ⟨a / 256 % 256, Nat.mod_lt _ (by decide)⟩
    | 3 => nvLost s a
    | _ => keyLose s a

/-- Ticks between two units of one scrub, 10 ms (R444). -/
def scrubEvery : Nat := 10 * ticksPerMs

/-- The unit counted; at the end of a pass the pass is counted, and one that ends more than a cadence late (R446, R450).
DEDUCED, log 170. -/
def scrubNext (s : State) (m : Fin 5) : State :=
  let n := s.bg.scrubAt[m] + 1
  let s1 := { s with bg := { s.bg with times := { s.bg.times with scrub := vset s.bg.times.scrub m (chalkNow s) } } }
  if n < scrubUnits m then { s1 with bg := { s1.bg with scrubAt := vset s1.bg.scrubAt m n } }
  else
    let s2 := countLate s1 (s1.bg.times.pass[m] + scrubUnits m * scrubEvery) scrubEvery
    { s2 with bg := { s2.bg with
        scrubAt := vset s2.bg.scrubAt m 0, times := { s2.bg.times with pass := vset s2.bg.times.pass m (chalkNow s2) }
        pu := { s2.bg.pu with scrub := satInc s2.bg.pu.scrub } } }

/-- SCRUB_UNIT (R444): memory 0 working SRAM, 1 code NV, 2 shadow SRAM, 3 Or NV, 4 key store NV; a unit every 10 ms in Chalk,
and Or's not during the Ash store (R313). DEDUCED, log 170. -/
def doScrubUnit (m : Fin 5) (group : Fin 64) (find : ScrubFind) (s : State) : State :=
  if s.pwr.pstate = .chalk && !s.orr.ash then
    let s1 := elapseChalk s (s.bg.times.scrub[m] + scrubEvery)
    scrubFound (scrubNext s1 m) m group find
  else s

/-! ### Calibration (R143, R144, R326, R444) -/

/-- A LOOPBACK result within ±64 units. -/
def within64 (d : Option Int) : Int := if chainIn d then d.getD 0 else 0

/-- Whether a posting to an island falls within the next `n` ticks: background work of that length would end for it (R445). -/
def postingWithin (s : State) (island n : Nat) : Bool :=
  match nextPosting s island with
  | some t => decide (t < now s + n)
  | none => false

/-- The UWB tests of the background may begin: no Azure program runs, no run stands in Range, whose exchanges go first, and
PLL_U's reference is the XO (R143, R403, R445, R457). -/
def uwbTestMay (s : State) : Bool :=
  !seqRuns s .azure && !s.clk.fallback && !(s.pres.run.any fun r => r.stage == .range)

/-- A die temperature 10 °C away from that of the last delay tracking (R444). -/
def tempMoved (s : State) (temp : Int) : Bool := s.bg.uwbTemp.any fun t => decide (10 ≤ (temp - t).natAbs)

/-- UWB_DELAY_TRACKING (R143, R444, R457): the internal loopback of each chain, every 60 s or at once after a 10 °C change;
deviations beyond ±64 units change nothing. A posting within its 7,680 ticks ends it with CUT and it measures nothing.
DEDUCED, log 170. -/
def doUwbDelayTracking (a b : Option Int) (temp : Int) (s0 : State) : State :=
  if s0.pwr.pstate = .chalk then
    let due := s0.bg.times.delay + 60 * ticksPerSec
    let s := if tempMoved s0 temp then s0 else elapseChalk s0 due
    if !uwbTestMay s then s
    else if postingWithin s 1 7680 then { s with az := { s.az with calUntil := now s + 7680 } }
    else
      let s1 := chainCorrect (countLate s due (60 * ticksPerSec)) (if s.az.chainA then within64 a else 0) (if s.az.chainB then within64 b else 0)
      markDirty { s1 with
        az := { s1.az with calUntil := now s1 + 7680 }
        bg := { s1.bg with uwbTemp := some temp, times := { s1.bg.times with delay := chalkNow s1 } } } calUwb
  else s0

/-- A FAULT port whose last test is 10 minutes old is due for one (R144). -/
def faultDue (s : State) (p : Fin 6) : Bool :=
  (s.az.ports[p]).cls = .fault && (match (s.az.ports[p]).testAt with
    | some t => decide (t + 600 ≤ rtcNow s)
    | none => true)

/-- What a LOOPBACK of a classification run tells of one port. -/
def classifyRun (s : State) (n : Nat) (x : PortCheck) : State :=
  if h : n < 6 then
    let p : Fin 6 := ⟨n, h⟩
    if bitAt s.az.pop.toNat n then
      classifyPort (if faultDue s p then modPort s p fun y => { y with testReq := true } else s) p x.decoded x.amp x.dly
    else s
  else s

/-- UWB_PORT_CLASSIFY_RUN (R144, R444): every 10 minutes one LOOPBACK of the next configured pair classifies its ports. A posting
within its 12,801 ticks ends it with CUT. DEDUCED, log 170. -/
def doUwbPortClassifyRun (a b : PortCheck) (s0 : State) : State :=
  if s0.pwr.pstate = .chalk then
    let due := s0.bg.times.classify + 600 * ticksPerSec
    let s := elapseChalk s0 due
    let ps := uwbPairs s
    match ps[s.bg.pairAt % ps.length]? with
    | none => s
    | some q =>
      if !uwbTestMay s || postingWithin s 1 12801 then s
      else
        let s1 := classifyRun (classifyRun (countLoops (countLate s due (600 * ticksPerSec)) 1) q.2.1 a) q.2.2 b
        { s1 with bg := { s1.bg with
            pairAt := (s1.bg.pairAt + 1) % ps.length, times := { s1.bg.times with classify := chalkNow s1 } } }
  else s0

/-- RTC_DRIFT_WINDOW (R326, R444): a 10 s comparison of the XO with the RTC crystal; after 60 windows since the cold start the
learned coefficient applies and the drift state becomes 2. DEDUCED, log 164. -/
def doRtcDriftWindow (coeff : Int) (s0 : State) : State :=
  if s0.pwr.pstate = .chalk && s0.rtc.crystal && s0.clk.xoRdy && !s0.clk.fallback then
    let s := elapseChalk s0 (s0.bg.times.drift + 10 * ticksPerSec)
    let n := Nat.min 60 (s.rtc.windows + 1)
    let r := { s.rtc with windows := n, coeff := if n = 60 then coeff else s.rtc.coeff }
    let s1 := { s with
      rtc := { r with drift := if n = 60 && s.rtc.drift != 0 then 2 else s.rtc.drift }
      bg := { s.bg with times := { s.bg.times with drift := chalkNow s } } }
    if n = 60 then markDirty s1 calRtc else s1
  else s0

/-- Ticks of t_FOLD, 30 minutes in Chalk (R448, R458). -/
def tFold : Nat := 1800 * ticksPerSec

/-- TELEMETRY_FOLD (R448). -/
def doTelemetryFold (s : State) : State :=
  if s.pwr.pstate = .chalk && !s.orr.ash then
    let s1 := elapseChalk s (s.bg.times.fold + tFold)
    passEnd (telemFold (countLate s1 (s.bg.times.fold + tFold) tFold))
  else s

/-! ### Steward resets (R451 to R454) -/

/-- STEWARD_WATCHDOG (R451): no scheduler pass has kicked the watchdog for t_SWD, 1 ms. DEDUCED, log 164. -/
def doStewardWatchdog (s : State) : State :=
  if s.pwr.pstate = .chalk then stewardRestart (elapseTo s (s.bg.kickAt + ticksPerMs)) else s

/-- STEWARD_CORE_FAULT (R451): a bus error, an illegal instruction, a privilege fault, or an uncorrectable group of working SRAM
outside the retained region. DEDUCED, log 164. -/
def doStewardCoreFault (s : State) : State := stewardRestart s

/-! ### The commands of this file -/

/-- GQ_JOB_DISPATCH (R267). -/
def execGqJobDispatch (s : State) : Host.Outcome State Fault Refusal :=
  done s (doGqJobDispatch s)

/-- GQ_JOB_COMPLETE (R267). -/
def execGqJobComplete (tag : Fin 48) (mismatch : Bool) (s : State) : Host.Outcome State Fault Refusal :=
  done s (doGqJobComplete tag mismatch s)

/-- AQMOS_ALIAS (R101). -/
def execAqmosAlias (w : JobWords) (s : State) : Host.Outcome State Fault Refusal :=
  done s (doAqmosAlias w s)

/-- AQMOS_VERIFY (R270). -/
def execAqmosVerify (w : JobWords) (s : State) : Host.Outcome State Fault Refusal :=
  done s (doAqmosVerify w s)

/-- VERDICT (R271). -/
def execVerdict (w : JobWords) (s : State) : Host.Outcome State Fault Refusal :=
  done s (doVerdict w s)

/-- SCRUB_UNIT (R444). -/
def execScrubUnit (m : Fin 5) (group : Fin 64) (find : ScrubFind) (s : State) : Host.Outcome State Fault Refusal :=
  done s (doScrubUnit m group find s)

/-- REGISTER_WRITE (R6). -/
def execRegisterWrite (block : RegBlock) (off : W16) (v : W32) (s : State) : Host.Outcome State Fault Refusal :=
  done s (doRegisterWrite block off v s)

/-- UWB_DELAY_TRACKING (R444). -/
def execUwbDelayTracking (a : Option Int) (b : Option Int) (temp : Int) (s : State) : Host.Outcome State Fault Refusal :=
  done s (doUwbDelayTracking a b temp s)

/-- UWB_PORT_CLASSIFY_RUN (R444). -/
def execUwbPortClassifyRun (a : PortCheck) (b : PortCheck) (s : State) : Host.Outcome State Fault Refusal :=
  done s (doUwbPortClassifyRun a b s)

/-- RTC_DRIFT_WINDOW (R444). -/
def execRtcDriftWindow (coeff : Int) (s : State) : Host.Outcome State Fault Refusal :=
  done s (doRtcDriftWindow coeff s)

/-- TELEMETRY_FOLD (R448). -/
def execTelemetryFold (s : State) : Host.Outcome State Fault Refusal :=
  done s (doTelemetryFold s)

/-- STEWARD_WATCHDOG (R451). -/
def execStewardWatchdog (s : State) : Host.Outcome State Fault Refusal :=
  done s (doStewardWatchdog s)

/-- STEWARD_CORE_FAULT (R451). -/
def execStewardCoreFault (s : State) : Host.Outcome State Fault Refusal :=
  done s (doStewardCoreFault s)

end Sys2Proof.Machine
end

