-- ==== Sys2Proof/Machine/Boot.lean ====
section
/-! DEFINITION. Rows of start-up: power-on, S9's and S13's time-outs, the boot watchdog, a skipped step's re-run
(R414, R430, R431, R439). -/

namespace Sys2Proof.Machine

open Sys2Proof

/-- POWER_ON_RESET (R414, R426, R430): supply comes up on an unpowered device, or a start-up that stands before S13 goes
on from the step in progress; `o` is what it meets. S9 waits for its steward by STEWARD_ALIVE_TIMEOUT, S3 for its
sources by SOURCE_GIVEUP. DEDUCED, log 120. -/
def doPowerOnReset (o : StartOutcome) (s : State) : State :=
  if s.pwr.pstate = .unpowered then startRun o (coldBegin s 0)
  else if s.boot.step ≤ 12 ∧ ¬(s.boot.step = 9 ∧ s.boot.running ≠ .none) then startRun o s
  else s

/-- STEWARD_ALIVE_TIMEOUT (R430, R437): t_STEWARD after S9 started an image that has not reported alive. -/
def doStewardAliveTimeout (o : StartOutcome) (s0 : State) : State :=
  if s0.pwr.pstate = .chalk ∧ s0.boot.step = 9 ∧ s0.boot.running ≠ .none ∧ s0.boot.locked = false then
    let s := elapseToClock s0 (s0.boot.s9At + 5 * ticksPerMs)
    let s1 := startImage o false (imageFailed s)
    if runOn 9 s1 then runSteps 14 o s1 else s1
  else s0

/-- HOST_WAIT_TIMEOUT (R430): 100 ms at S13 without the host die; start-up goes on. -/
def doHostWaitTimeout (s0 : State) : State :=
  if s0.pwr.pstate = .chalk ∧ s0.boot.step = 13 ∧ s0.boot.locked = false then
    let s := elapseToClock s0 (s0.boot.stepAt + 100 * ticksPerMs)
    let s1 := journalAdd s 13 6 0 0 []
    finishStart {} { s1 with boot := { s1.boot with hostAbsent := true, step := 14, stepAt := s1.clock } }
  else s0

/-- BOOT_WATCHDOG (R439): 1 s after the start of S9 without S15 the device resets through Jet; Sable latches the last step
that the steward reported. DEDUCED, log 133. -/
def doBootWatchdog (s0 : State) : State :=
  if s0.pwr.pstate = .chalk ∧ 9 ≤ s0.boot.step ∧ s0.boot.step ≤ 15 ∧ s0.boot.running ≠ .none ∧ s0.boot.locked = false then
    let s := elapseToClock s0 (s0.boot.s9At + ticksPerSec)
    coldBegin { s with boot := { s.boot with wdLatched := true } } 0
  else s0

/-- SKIPPED_STEP_RERUN (R431): background re-run of S11 or S12 after S15: a pass clears the skip, a failure is journalled
only. -/
def doSkippedStepRerun (o : StartOutcome) (s : State) : State :=
  if s.pwr.pstate ≠ .chalk ∨ s.boot.step ≠ 16 then s
  else if s.boot.skip11 && sweepMay s && !seqRuns s .vert then
    if o.vertFails ≠ 0 then passEnd (journalAdd s 11 kFail (stepStatus 11) 1 (failDetail 11))
    else
      let s1 := (List.finRange 12).foldl (lfCheckRun o) { s with boot := { s.boot with skip11 := false } }
      passEnd (journalAdd s1 11 kPass 0 1 (leBytes 2 (s1.vert.pop &&& ~~~s1.vert.svc).toNat))
  else if s.boot.skip12 && !s.clk.fallback && !seqRuns s .azure then
    if o.uwbFails ≠ 0 || (!chainIn o.chainA && !chainIn o.chainB) then
      passEnd (journalAdd s 12 kFail (stepStatus 12) 1 (failDetail 12))
    else
      let s1 := uwbCheck o (azureUp { s with boot := { s.boot with skip12 := false } })
      passEnd (journalAdd s1 12 kPass 0 1 (chainDetail o))
  else s

/-! ### The commands of this file -/

/-- POWER_ON_RESET (R414). -/
def execPowerOnReset (o : StartOutcome) (s : State) : Host.Outcome State Fault Refusal :=
  done s (doPowerOnReset o s)

/-- STEWARD_ALIVE_TIMEOUT (R430). -/
def execStewardAliveTimeout (o : StartOutcome) (s : State) : Host.Outcome State Fault Refusal :=
  done s (doStewardAliveTimeout o s)

/-- HOST_WAIT_TIMEOUT (R430). -/
def execHostWaitTimeout (s : State) : Host.Outcome State Fault Refusal :=
  done s (doHostWaitTimeout s)

/-- BOOT_WATCHDOG (R439). -/
def execBootWatchdog (s : State) : Host.Outcome State Fault Refusal :=
  done s (doBootWatchdog s)

/-- SKIPPED_STEP_RERUN (R431). -/
def execSkippedStepRerun (o : StartOutcome) (s : State) : Host.Outcome State Fault Refusal :=
  done s (doSkippedStepRerun o s)

end Sys2Proof.Machine
end

