-- ==== Sys2Proof/Machine/Host.lean ====
section
/-! DEFINITION. Argent towards its host: the SPI target, the register map, mailbox transport, bridge reads and writes,
the legacy window, vehicle state, doors and the permit readback (R358 to R375, R379). -/

namespace Sys2Proof.Machine

open Sys2Proof

/-! ### Summary byte and records (R361, R369) -/

/-- Visible records, oldest first. -/
def visibleRecords (h : HostDie) : List RxRecord := h.rxq.filter fun r => r.visible && !r.released

/-- H_IRQ asserted: an enabled bit of HST_IRQ is set (R370). -/
def irqAsserted (h : HostDie) : Bool := h.irq &&& h.irqEn != 0

/-- The summary byte (R361). -/
def summaryByte (s : State) : Byte :=
  byte (b2n (!(visibleRecords s.host).isEmpty) + 2 * b2n (irqAsserted s.host) + 4 * b2n (s.bar.link = .up) +
    8 * b2n s.bar.hostEnd.synced + 16 * b2n s.host.pmt.active + 32 * b2n (s.host.stageLeft != 0) +
    64 * b2n (s.bar.hostEnd.silent || s.bar.stewardStall))

/-- What MISO carried: the summary byte, `gap` bytes of 0xFF, then what the transaction returned (R361). -/
def miso (s : State) (gap : Nat) (out : Bytes) : Bytes := summaryByte s :: (List.replicate gap 0xFF ++ out)

/-! ### Reading Argent's registers (R360, R370) -/

def hstStatus (s : State) : Nat :=
  b2n (s.bar.link = .up) + 2 * b2n s.bar.hostEnd.synced + 4 * b2n s.bar.hostEnd.silent + 8 * b2n s.bar.stewardStall +
    16 * s.host.fpstate.toNat + 64 * b2n s.host.pmt.active + 128 * b2n (s.host.stageLeft != 0) +
    256 * b2n (!(visibleRecords s.host).isEmpty) + 512 * b2n s.host.vs.valid + 1024 * b2n s.host.bwrite.isSome

def rxqHead (h : HostDie) : Nat :=
  match visibleRecords h with
  | r :: _ => 64 * r.unit
  | [] => 64 * h.rxqTail

def rxqFill (h : HostDie) : Nat :=
  let v := visibleRecords h
  (v.map (·.units)).sum + 256 * v.length

def pmtStatus (p : Permit) : Nat :=
  b2n p.active + 2 * b2n p.readbackFault + 4 * p.ctx.toNat + 1024 * p.lastEnd.toNat + 16384 * b2n p.fb

def vsCfg (v : VehicleState) : Nat :=
  b2n v.srcCan + 256 * v.dataId.toNat + 65536 * v.timeout.toNat + 67108864 * b2n v.lock

def cxStatus (s : State) : Nat :=
  let c0 := s.tn.coex[0]
  let c1 := s.tn.coex[1]
  b2n c0.reqPin + 2 * b2n c1.reqPin + 4 * b2n c0.priPin + 8 * b2n c1.priPin + 16 * b2n c0.gntPin + 32 * b2n c1.gntPin

/-- The register at a word address; unmapped words and WO registers read 0. -/
def argentReg (s : State) (a : Nat) : Nat :=
  let h := s.host
  let c := h.can
  match a with
  | 0x0000 => 0x81600000 + 256 * h.revision.toNat
  | 0x0004 => hstStatus s
  | 0x0008 => h.irq.toNat
  | 0x000C => h.irqEn.toNat
  | 0x0010 => b2n h.irqPol
  | 0x0024 => h.mbBusy.toNat
  | 0x0030 => rxqHead h
  | 0x0034 => rxqFill h
  | 0x0040 => pmtStatus h.pmt
  | 0x0058 => vsCfg h.vs
  | 0x005C => h.vs.lastSent.toNat
  | 0x0060 => (doorsOpen h).toNat + 16 * (h.doors.raw &&& h.doors.en).toNat
  | 0x0064 => h.doors.pol.toNat + 16 * h.doors.en.toNat
  | 0x0070 => cxStatus s
  | 0x0200 => c.ctrl.toNat
  | 0x0204 => c.nbt.toNat
  | 0x0208 => c.dbt.toNat
  | 0x020C => c.tdc.toNat
  | 0x0210 => c.idEng.toNat
  | 0x0214 => c.idImmo.toNat
  | 0x0218 => c.sa.toNat
  | 0x021C => c.dataIdEng.toNat + 256 * c.dataIdImmo.toNat + 65536 * c.engTimeout.toNat
  | 0x0220 => c.tecCnt.toNat + 256 * c.recCnt.toNat + 65536 * c.errState.toNat
  | 0x0224 => c.errLat.toNat
  | _ => 0

/-- The byte at an address of the CS0 map. -/
def argentByte (s : State) (a : Nat) : Byte :=
  if 0x0100 ≤ a ∧ a < 0x0200 then memRead s.host.stage (a - 0x0100)
  else if 0x1000 ≤ a ∧ a < 0x2000 then memRead s.host.rxqMem (a - 0x1000)
  else byte (argentReg s (a / 4 * 4) / 256 ^ (a % 4))

/-- The next address: RXQ wraps at its end, the map at 16 bits (R360). -/
def nextAddr (a : Nat) : Nat := if a = 0x1FFF then 0x1000 else (a + 1) % 65536

/-- Addresses that a transaction of `n` bytes touches. -/
def addrRun : Nat → Nat → List Nat
  | _, 0 => []
  | a, n + 1 => a :: addrRun (nextAddr a) n

/-- CAN_ERRLAT's delivered bits cleared: those of the delivered bytes (R7, R364). -/
def errLatClear (s : State) (mask : Nat) : State :=
  { s with host := { s.host with can := { s.host.can with
    errLat := s.host.can.errLat &&& ~~~(BitVec.ofNat 9 (s.host.can.errLat.toNat &&& byteMask mask)) } } }

/-- The bytes of the register at 0x0224 that a list of addresses delivers. -/
def errLatMask (as : List Nat) : Nat :=
  (List.range 4).foldl (fun m i => m + 2 ^ i * b2n (as.contains (0x0224 + i))) 0

/-- SPI_READ (R360, R361, R364): `n` data bytes clocked out in full. DESIGN CHOICE, log 5. -/
def doSpiRead (addr : W16) (n : BitVec 13) (s : State) : State :=
  let as := addrRun addr.toNat n.toNat
  errLatClear { s with lastRead := miso s 3 (as.map (argentByte s)) } (errLatMask as)

/-- CAN_ERRLAT_READ (R364, R370): the first `n` bytes of the register delivered. -/
def doCanErrlatRead (n : BitVec 3) (s : State) : State := doSpiRead 0x0224 (BitVec.ofNat 13 (Nat.min 4 n.toNat)) s

/-! ### Mailbox (R368, R369) -/

/-- The command's bytes as WRITE frames of up to 64 bytes to its slot. -/
def stageSend (s : State) (a off : Nat) (bs : Bytes) : Nat → State
  | 0 => s
  | n + 1 => stageSend (sendBulk s false .write 0 (BitVec.ofNat 32 (a + off)) (bs.take 64)) a (off + 64) (bs.drop 64) n

/-- MB_DOORBELL (R368): the command forwarded, or refused with DB_ERR and no other change. -/
def doMbDoorbell (v : W32) (s : State) : State :=
  let slot := bitsOf v 3 0
  let len := bitsOf v 12 4
  if len = 0 ∨ 256 < len ∨ bitAt s.host.mbBusy.toNat slot = true ∨ s.host.stageLeft ≠ 0 ∨ s.bar.link ≠ .up then irqSet s 11
  else
    let n := ceilDiv len 64
    let s1 := stageSend s (256 * slot) 0 (memReadBytes s.host.stage 0 len) n
    let s2 := sendBulk s1 false .write 0 0x1000 (leBytes 4 (slot + 16 * len))
    { s2 with host := { s2.host with stageLeft := n + 1, mbBusy := s2.host.mbBusy ||| BitVec.ofNat 16 (2 ^ slot) } }

/-- The oldest visible record released. -/
def releaseOldest : List RxRecord → List RxRecord
  | [] => []
  | r :: rs => if r.visible && !r.released then { r with released := true } :: rs else r :: releaseOldest rs

/-- RXQ_POP (R368, R369): the oldest visible record released; a response frees its CMD slot. -/
def doRxqPop (s : State) : State :=
  match visibleRecords s.host with
  | [] => s
  | r :: _ =>
    let busy := if r.kind = 1 then s.host.mbBusy &&& ~~~(BitVec.ofNat 16 (2 ^ (r.slot.toNat % 16))) else s.host.mbBusy
    freeUnits s.host.rxq.length
      { s with host := { s.host with rxq := releaseOldest s.host.rxq, mbBusy := busy } }

/-- WAKE_REQ (R349, R379): a pulse of the host-side wake crossing; no effect while the link is UP.
DEDUCED, log 104. -/
def doWakeReq (s : State) : State :=
  if s.bar.link = .up then s else { s with host := { s.host with wakeReq := true } }

/-! ### Vehicle state (R372) -/

/-- Argent's reaction to a vehicle state that no longer allows the permit (R355). -/
def permitGate (s : State) : State :=
  if vehicleAllows s.host.vs then s
  else if s.host.vs.valid && s.host.vs.engineRun then permitEndedByHost s 1 1
  else permitEndedByHost s 3 3

/-- The alive counter is 1 or 2 above the last accepted one, modulo 16. -/
def cntOk (last : Option (BitVec 4)) (cnt : BitVec 4) : Bool :=
  match last with
  | none => true
  | some l => cnt - l == 1 || cnt - l == 2

/-- An accepted report: its fields, the run, VALID at the second of an unbroken run; then VSTATE and the permit. -/
def reportAccepted (s : State) (cnt : BitVec 4) (bits : Nat) : State :=
  let v := s.host.vs
  let run := Nat.min 2 (v.run + 1)
  let s1 := { s with host := { s.host with vs := { v with
    lastCnt := some cnt, run := run, valid := decide (run = 2), lastAccept := s.clock
    engineRun := bitAt bits 0, standstill := bitAt bits 1, ignition := bitAt bits 2 } } }
  permitGate (sendVStateIfChanged s1)

/-- A rejected report ends a run while VALID is 0 and changes nothing while it is 1 (R372). -/
def reportRejected (s : State) : State :=
  let v := s.host.vs
  irqSet (if v.valid then s else { s with host := { s.host with vs := { v with run := 0, lastCnt := none } } }) 9

/-- A report of the selected source. -/
def report (s : State) (crcOk : Bool) (cnt : BitVec 4) (bits : Nat) : State :=
  if crcOk && cntOk s.host.vs.lastCnt cnt then reportAccepted s cnt bits else reportRejected s

/-- VS_REPORT (R372): CRC-8 over DATA_ID and bits [7:0], [15:8]; ignored while SRC is 1. -/
def doVsReport (v : W32) (s : State) : State :=
  if s.host.vs.srcCan then s
  else
    let ok := crc8J1850 [s.host.vs.dataId, byte (bitsOf v 7 0), byte (bitsOf v 15 8)] == bitsOf v 23 16
    report s ok (BitVec.ofNat 4 (bitsOf v 11 8)) (bitsOf v 2 0)

/-- The odometer sent to the field die (R367). DEDUCED, log 111. -/
def forwardOdo (s : State) (odo : W32) : State :=
  let s1 := { s with host := { s.host with vs := { s.host.vs with odo := odo } } }
  if s.bar.link = .down then s1 else sendBulk s1 false .write 0 0x1010 (leBytes 4 odo.toNat)

/-- VS_ODO (R370, R372): forwarded at once. DEDUCED, log 111. -/
def doVsOdo (v : W32) (s : State) : State := forwardOdo s v

/-- VALID falls (R372). -/
def validFalls (s : State) : State :=
  let s1 := irqSet { s with host := { s.host with vs := { s.host.vs with valid := false, run := 0, lastCnt := none } } } 9
  permitGate (sendVStateIfChanged s1)

/-- VS_CFG written with a byte mask (R370, R372, R481): TIMEOUT outside 10 to 1,000 is ignored, LOCK sets and then bars
every further write, a changed SRC drops VALID and the counter history. -/
def vsCfgWrite (v : W32) (s : State) : State :=
  let k := s.host.vs
  if k.lock then s
  else
    let t := bitsOf v 25 16
    let src := bitAt v.toNat 0
    let k1 := { k with
      srcCan := src, dataId := BitVec.ofNat 8 (bitsOf v 15 8)
      timeout := if 10 ≤ t ∧ t ≤ 1000 then BitVec.ofNat 10 t else k.timeout
      lock := bitAt v.toNat 26 }
    if src = k.srcCan then { s with host := { s.host with vs := k1 } }
    else validFalls { s with host := { s.host with vs := { k1 with lastAccept := s.clock } } }

/-- VS_CFG_WRITE (R370, R372). -/
def doVsCfgWrite (v : W32) (s : State) : State := vsCfgWrite v s

/-- VS_CFG_LOCK (R370): LOCK set, other fields as they are. -/
def doVsCfgLock (s : State) : State := { s with host := { s.host with vs := { s.host.vs with lock := true } } }

/-- Ticks of the selected source's timeout. -/
def vsTicks (h : HostDie) : Nat :=
  ticksPerMs * (if h.vs.srcCan then 10 * h.can.engTimeout.toNat else h.vs.timeout.toNat)

/-- A bit of CAN_ERRLAT set (R370). -/
def errLatSet (s : State) (bit : Nat) : State :=
  irqSet { s with host := { s.host with can := { s.host.can with
    errLat := s.host.can.errLat ||| BitVec.ofNat 9 (2 ^ bit) } } } 10

/-- VS_TIMEOUT (R372): no accepted report for the source's timeout; VALID falls, or a single report is forgotten. -/
def doVsTimeout (s0 : State) : State :=
  if !s0.host.vs.valid && s0.host.vs.run == 0 then s0
  else
    let s := elapseToClock s0 (s0.host.vs.lastAccept + vsTicks s0.host)
    let s1 := if s.host.vs.srcCan then errLatSet s 7 else s
    if s.host.vs.valid then validFalls s1
    else { s1 with host := { s1.host with vs := { s1.host.vs with run := 0, lastCnt := none } } }

/-! ### Permit readback (R375) -/

/-- H_PERMIT_A and H_PERMIT_B at a tick: the permitted waveform while a start is active, of period 1 ms with 495 µs high and
5 µs of non-overlap (typical values of R380), both low otherwise (R374). DEDUCED, log 112. -/
def permitPins (p : Permit) (t : Nat) : Bool × Bool :=
  let x := (t - p.since) % 38400
  (p.active && decide (x < 19008), p.active && decide (19200 ≤ x ∧ x < 38208))

/-- H_IRQ's level: asserted as IRQ_POL says while any enabled bit is set (R370). -/
def irqPin (h : HostDie) : Bool := irqAsserted h == h.irqPol

/-- The fault latched: READBACK, and PERMIT_ENDED when the waveform ran. DEDUCED, log 112. -/
def latchReadback (s : State) : State :=
  let s1 := permitEndedByHost s 4 4
  irqSet { s1 with host := { s1.host with pmt := { s1.host.pmt with readbackFault := true, correct := 0, wrong := 0 } } } 7

/-- The readback sample that is due: samples are 500 µs apart (R375). -/
def sampleDue (s : State) : Nat :=
  let p := s.host.pmt
  if s.clock ≤ p.fbNext then p.fbNext else p.fbNext + 19200 * ceilDiv (s.clock - p.fbNext) 19200

/-- A sample of H_PERMIT_FB at the tick `t` at which it is due: the level of H_PERMIT_A there is expected.
DEDUCED, log 112. -/
def readbackAt (t : Nat) (level : Bool) (s : State) : State :=
  let p := s.host.pmt
  let ok := level == (permitPins p t).1
  let p1 := { p with fb := level, fbNext := t + 19200 }
  if p.readbackFault then
    { s with host := { s.host with pmt := { p1 with correct := if ok then p.correct + 1 else 0 } } }
  else
    let s1 := { s with host := { s.host with pmt := { p1 with wrong := if ok then 0 else p.wrong + 1 } } }
    if !ok && decide (1 ≤ p.wrong) then latchReadback s1 else s1

/-- The next readback sample. -/
def readbackSample (s : State) (level : Bool) : State := readbackAt (sampleDue s) level (elapseToClock s (sampleDue s))

/-- PERMIT_READBACK_SAMPLE (R375): 500 µs after the last sample, in the middle of phase 1 or 3 while the waveform runs.
DEDUCED, log 112. -/
def doPermitReadbackSample (level : Bool) (s : State) : State := readbackSample s level

/-- READBACK_FAULT (R375): two consecutive wrong samples. DEDUCED, log 112. -/
def doReadbackFault (s : State) : State :=
  let wrong (t : State) : State := readbackSample t (!(permitPins t.host.pmt (sampleDue t)).1)
  if s.host.pmt.readbackFault then s else wrong (wrong s)

/-- READBACK_FAULT_CLEAR (R370, R375): a write of 1 clears it at a count of 200 correct samples. -/
def doReadbackFaultClear (s : State) : State :=
  if s.host.pmt.readbackFault && decide (200 ≤ s.host.pmt.correct) then
    { s with host := { s.host with pmt := { s.host.pmt with readbackFault := false, correct := 0, wrong := 0 } } }
  else s

/-! ### Doors (R373) -/

/-- The tick of the 8th sample of a door input after now: samples are 1 ms apart (R373). DEDUCED, log 181. -/
def doorSample8 (s : State) : Nat := ticksPerMs * (s.clock / ticksPerMs + 8)

/-- DOOR_DEBOUNCED_CHANGE (R370, R373): the pin of an enabled input takes a new level, read with its polarity, and holds it
for eight samples. DEDUCED, log 181. -/
def doDoorDebouncedChange (d : Fin 4) (high : Bool) (s0 : State) : State :=
  let isOpen := high != bitAt s0.host.doors.pol.toNat d.val
  if !bitAt s0.host.doors.en.toNat d.val || bitAt s0.host.doors.debounced.toNat d.val == isOpen then s0
  else
    let s := elapseToClock s0 (doorSample8 s0)
    let k := s.host.doors
    let m : BitVec 4 := BitVec.ofNat 4 (2 ^ d.val)
    let put (x : BitVec 4) : BitVec 4 := if isOpen then x ||| m else x &&& ~~~m
    sendVState (irqSet { s with host := { s.host with doors := { k with debounced := put k.debounced, raw := put k.raw } } } 8)

/-! ### Writing Argent's registers (R360, R370, R481) -/

/-- A stored register's value with the written bytes replaced. -/
def mergeReg (cur v mask : Nat) : Nat := (cur &&& (0xFFFFFFFF - byteMask mask)) + (v &&& byteMask mask)

/-- A CAN configuration register 0x0204 to 0x021C, assembled. -/
def canCfg (c : CanCtl) (a : Nat) (v : W32) : CanCtl :=
  match a with
  | 0x0204 => { c with nbt := BitVec.ofNat 31 v.toNat }
  | 0x0208 => { c with dbt := BitVec.ofNat 18 v.toNat }
  | 0x020C => { c with tdc := BitVec.ofNat 8 v.toNat }
  | 0x0210 => { c with idEng := BitVec.ofNat 30 v.toNat }
  | 0x0214 => { c with idImmo := BitVec.ofNat 30 v.toNat }
  | 0x0218 => { c with sa := BitVec.ofNat 8 v.toNat }
  | 0x021C => { c with
      dataIdEng := fld v 7 0 8, dataIdImmo := fld v 15 8 8
      engTimeout := if bitsOf v 23 16 = 0 then c.engTimeout else fld v 23 16 8 }
  | _ => c

/-- One register written: `v` holds the written bytes, zeros elsewhere, `mask` names them. -/
def argentWrite (s : State) (a v mask : Nat) : State :=
  let w : W32 := BitVec.ofNat 32 v
  let full : W32 := BitVec.ofNat 32 (mergeReg (argentReg s a) v mask)
  let h := s.host
  match a with
  | 0x0008 => { s with host := { h with irq := h.irq &&& ~~~(BitVec.ofNat 16 v) } }
  | 0x000C => { s with host := { h with irqEn := BitVec.ofNat 16 full.toNat } }
  | 0x0010 =>
    let s1 := { s with host := { h with irqPol := bitAt full.toNat 0 } }
    if bitAt v 1 then doWakeReq s1 else s1
  | 0x0020 => doMbDoorbell w s
  | 0x0038 => doRxqPop s
  | 0x0040 => if bitAt v 1 then doReadbackFaultClear s else s
  | 0x0050 => doVsReport w s
  | 0x0054 => doVsOdo w s
  | 0x0058 => vsCfgWrite full s
  | 0x0064 =>
    if h.vs.lock then s
    else sendVStateIfChanged { s with host := { h with doors := { h.doors with pol := fld full 3 0 4, en := fld full 7 4 4 } } }
  | 0x0200 => if h.vs.lock then s else { s with host := { h with can := { h.can with ctrl := fld full 6 0 7 } } }
  | _ =>
    if 0x0204 ≤ a ∧ a ≤ 0x021C ∧ h.vs.lock = false ∧ bitAt h.can.ctrl.toNat 0 = false then
      { s with host := { h with can := canCfg h.can a full } }
    else s

/-- A byte of MB_STAGE; ignored with STAGE_WE while STAGE_BUSY is set (R368). -/
def stageWrite (s : State) (a : Nat) (b : Byte) : State :=
  if s.host.stageLeft = 0 then { s with host := { s.host with stage := memWrite s.host.stage (a - 0x0100) b } }
  else irqSet s 12

/-- The written bytes in order; a register acts when the write moves past it or CS rises (R481). -/
def spiApply : State → Option (Nat × Nat × Nat) → List (Nat × Byte) → State
  | s, acc, [] =>
    match acc with
    | some (r, v, m) => argentWrite s r v m
    | none => s
  | s, acc, (a, b) :: rest =>
    let flush (t : State) : State := match acc with
      | some (r, v, m) => argentWrite t r v m
      | none => t
    if 0x0100 ≤ a ∧ a < 0x0200 then spiApply (stageWrite (flush s) a b) none rest
    else
      let r := a / 4 * 4
      let v1 := b.toNat * 256 ^ (a % 4)
      match acc with
      | some (r0, v, m) =>
        if r0 = r then spiApply s (some (r, v + v1, m + 2 ^ (a % 4))) rest
        else spiApply (flush s) (some (r, v1, 2 ^ (a % 4))) rest
      | none => spiApply s (some (r, v1, 2 ^ (a % 4))) rest

/-- SPI_WRITE (R360, R481): the complete data bytes of one transaction. -/
def doSpiWrite (addr : W16) (data : Bytes) (s : State) : State :=
  spiApply { s with lastRead := miso s (2 + data.length) [] } none ((addrRun addr.toNat data.length).zip data)

/-! ### Bridge (R362 to R365) -/

/-- Length of a posted read after the cut of R363. DEDUCED, log 110. -/
def bridgeCut (a n : Nat) : Nat :=
  let toEdge := 64 - a % 64
  let n1 := Nat.min n toEdge
  if bridgeRcd a then Nat.min 4 n1
  else if a < 0x070000 ∧ 0x070000 < a + n1 then 0x070000 - a
  else n1

/-- Tags of outstanding reads are distinct: the lowest free one. -/
def freeTag (l : List BridgeRead) : Option (Fin 8) := (List.finRange 8).find? fun t => !l.any fun r => r.tag == t

/-- The range of a BREAD that Argent refuses at once (R362). DEDUCED, log 110. -/
def breadBad (s : State) (a n : Nat) : Bool :=
  (bridgeReg s a).isNone || a % 4 != 0 || n == 0 || decide (64 < n) || n % 4 != 0

/-- RCD_RESOLVE for a completion that leaves Argent (R348, R364). DEDUCED, log 110. -/
def sendResolve (s : State) (r : BridgeRead) (mask : Nat) : State :=
  if bridgeRcd r.addr then sendBulk s false .rcdResolve r.tag (BitVec.ofNat 32 mask) [] else s

/-- BREAD (R362 to R364, R371): `clocked` data bytes are clocked out in full after the status byte.
DEDUCED, log 110. -/
def doBread (addr : BitVec 24) (count clocked : Byte) (s : State) : State :=
  let a := addr.toNat
  let out (t : State) (st : Nat) (d : Bytes) : State :=
    { t with lastRead := miso s 4 (byte st :: (d ++ List.replicate (clocked.toNat - d.length) 0xFF)) }
  if breadBad s a count.toNat then out s 0xC1 []
  else if s.bar.link ≠ .up || s.bar.hostEnd.silent then out s 0xC2 []
  else match s.host.bridge.find? fun r => r.addr == a && r.count == count.toNat with
    | some r =>
      match r.done with
      | none => out s 0x40 []
      | some (st, d) =>
        let s1 := { s with host := { s.host with bridge := s.host.bridge.filter fun x => x.tag != r.tag } }
        if st = statusCode .ok then
          let got := Nat.min clocked.toNat d.length
          out (sendResolve s1 r (2 ^ Nat.min 4 got - 1)) (0x80 + (d.length - 1)) (d.take got)
        else if st = statusCode .retry then out s1 0x40 []
        else if st = statusCode .paramRange then out s1 0xC1 []
        else out s1 0xC3 []
    | none =>
      match freeTag s.host.bridge with
      | some t =>
        if s.bar.bulkToField.creditN = 0 then out s 0x40 []
        else
          let n := bridgeCut a count.toNat
          let s1 := sendBulk s false .read t (BitVec.ofNat 32 (0x01000000 + a)) (zeros n)
          let s2 := { s1 with
            bar := { s1.bar with bulkToField := { s1.bar.bulkToField with creditN := s1.bar.bulkToField.creditN - 1 } }
            host := { s1.host with bridge := s1.host.bridge ++
              [{ tag := t, addr := a, count := count.toNat, cut := n, since := s.clock }] } }
          out s2 0x40 []
      | none => out s 0x40 []

/-- BREAD_COMPLETION_DISCARD (R362, R364): t_RESOLVE after it came, with resolve mask 0. DEDUCED, log 110. -/
def doBreadCompletionDiscard (s0 : State) : State :=
  match s0.host.bridge.find? fun r => r.done.isSome with
  | none => s0
  | some r =>
    let s := elapseToClock s0 (r.since + ticksPerMs)
    sendResolve { s with host := { s.host with bridge := s.host.bridge.filter fun x => x.tag != r.tag } } r 0

/-- BWRITE (R365): posted, or waiting for a credit, or refused with BR_WERR; bytes after the fourth are ignored.
DEDUCED, log 109. -/
def doBwrite (addr : BitVec 24) (data : Bytes) (s0 : State) : State :=
  let s := { s0 with lastRead := miso s0 (3 + data.length) [] }
  let a := addr.toNat
  if (a ≠ 0x010020 ∧ a ≠ 0x06000C) ∨ data.length < 4 ∨ s.host.bwrite.isSome = true then irqSet s 13
  else
    let s1 := { s with host := { s.host with bwrite := some (a, BitVec.ofNat 32 (leAt data 0 4)) } }
    if s.bar.link = .up then bwriteGo s1 else s1

/-- BR_ANOM_READ (R348, R371): `n` bytes of BR_ANOM delivered through the bridge and resolved. -/
def doBrAnomRead (n : BitVec 3) (s : State) : State :=
  let k := Nat.min 4 n.toNat
  let v : W32 := BitVec.ofNat 32 s.bg.anom.toNat
  anomClear { s with lastRead := (leBytes 4 v.toNat).take k } v (2 ^ k - 1)

/-- CS_CONFLICT (R359): both transactions are ignored; a legacy write cycle already begun completes.
DEDUCED, log 114. -/
def doCsConflict (s : State) : State := irqSet s 14

/-! ### The legacy window on CS1 (R319 to R323, R366) -/

/-- The window serves the host: in Chalk from S13 on, and in service-lock, where it serves reads, as soon as S5 has loaded it
(R312, R323). DEDUCED, log 154. -/
def lwServes (s : State) : Bool :=
  s.pwr.pstate = .chalk && (decide (13 ≤ s.boot.step) || (s.keys.svcLock && decide (6 ≤ s.boot.step)))

/-- A selection of H_SPI_CS1 outside Chalk asks for a wake (R323, R349). -/
def lwSelect (s : State) : State :=
  if s.pwr.pstate = .chalk then s else { s with host := { s.host with wakeReq := true } }

/-- Whether an instruction other than a status read acts: the window serves and no cycle runs. DEDUCED, log 154. -/
def lwActs (s : State) : Bool := lwServes s && s.orr.cycle.isNone

/-- WREN (R320, R323). -/
def doWren (s : State) : State :=
  if lwActs s && !s.keys.svcLock then { s with orr := { s.orr with wel := true } } else lwSelect s

/-- WEL as the window sees it: 0 in service-lock (R323). -/
def welOn (s : State) : Bool := s.orr.wel && !s.keys.svcLock

/-- WRDI (R320). -/
def doWrdi (s : State) : State := if lwActs s then { s with orr := { s.orr with wel := false } } else lwSelect s

/-- RDSR (R320, R323). -/
def doRdsr (s : State) : State :=
  let sr := b2n s.orr.cycle.isSome + 2 * b2n (welOn s) + 4 * (lwBp s.orr).toNat
  if lwServes s then { s with lastRead := [byte sr] } else lwSelect { s with lastRead := [1] }

/-- WRSR (R320, R321): BP written through a write cycle. -/
def doWrsr (v : Byte) (s : State) : State :=
  if lwActs s then
    (if welOn s then { s with orr := { s.orr with cycle := some (.status (BitVec.ofNat 2 (bitsOf v 3 2))) } } else s)
  else lwSelect s

/-- LEGACY_READ (R319, R321). -/
def doLegacyRead (addr : W16) (n : BitVec 14) (s : State) : State :=
  if lwActs s then { s with lastRead := lwRead s.orr (addr.toNat % 8192) n.toNat }
  else lwSelect { s with lastRead := List.replicate n.toNat 0xFF }

/-- LEGACY_WRITE (R319, R321, R322): the complete data bytes when CS rises. DEDUCED, log 154. -/
def doLegacyWrite (addr : W16) (data : Bytes) (s : State) : State :=
  let a := addr.toNat % 8192
  if !lwActs s then lwSelect s
  else if !welOn s then s
  else if data.isEmpty || lwProtected (lwBp s.orr) a then { s with orr := { s.orr with wel := false } }
  else { s with orr := { s.orr with cycle := some (.page (a / 32) (lwPageImage s.orr a data)) } }

/-! ### The commands of this file -/

/-- SPI_READ (R360). -/
def execSpiRead (addr : W16) (n : BitVec 13) (s : State) : Host.Outcome State Fault Refusal :=
  done s (hostRuns (doSpiRead addr n) s)

/-- SPI_WRITE (R481). -/
def execSpiWrite (addr : W16) (data : Bytes) (s : State) : Host.Outcome State Fault Refusal :=
  done s (hostRuns (doSpiWrite addr data) s)

/-- BREAD (R362). -/
def execBread (addr : BitVec 24) (count : Byte) (clocked : Byte) (s : State) : Host.Outcome State Fault Refusal :=
  done s (hostRuns (doBread addr count clocked) s)

/-- BREAD_COMPLETION_DISCARD (R362). -/
def execBreadCompletionDiscard (s : State) : Host.Outcome State Fault Refusal :=
  done s (hostRuns (doBreadCompletionDiscard) s)

/-- BWRITE (R365). -/
def execBwrite (addr : BitVec 24) (data : Bytes) (s : State) : Host.Outcome State Fault Refusal :=
  done s (hostRuns (doBwrite addr data) s)

/-- CS_CONFLICT (R359). -/
def execCsConflict (s : State) : Host.Outcome State Fault Refusal :=
  done s (hostRuns (doCsConflict) s)

/-- WREN (R320). -/
def execWren (s : State) : Host.Outcome State Fault Refusal :=
  done s (hostRuns (doWren) s)

/-- WRDI (R320). -/
def execWrdi (s : State) : Host.Outcome State Fault Refusal :=
  done s (hostRuns (doWrdi) s)

/-- RDSR (R366). -/
def execRdsr (s : State) : Host.Outcome State Fault Refusal :=
  done s (hostRuns (doRdsr) s)

/-- WRSR (R321). -/
def execWrsr (v : Byte) (s : State) : Host.Outcome State Fault Refusal :=
  done s (hostRuns (doWrsr v) s)

/-- LEGACY_READ (R319). -/
def execLegacyRead (addr : W16) (n : BitVec 14) (s : State) : Host.Outcome State Fault Refusal :=
  done s (hostRuns (doLegacyRead addr n) s)

/-- LEGACY_WRITE (R319). -/
def execLegacyWrite (addr : W16) (data : Bytes) (s : State) : Host.Outcome State Fault Refusal :=
  done s (hostRuns (doLegacyWrite addr data) s)

/-- MB_DOORBELL (R368). -/
def execMbDoorbell (v : W32) (s : State) : Host.Outcome State Fault Refusal :=
  done s (hostRuns (doMbDoorbell v) s)

/-- RXQ_POP (R369). -/
def execRxqPop (s : State) : Host.Outcome State Fault Refusal :=
  done s (hostRuns (doRxqPop) s)

/-- WAKE_REQ (R370). -/
def execWakeReq (s : State) : Host.Outcome State Fault Refusal :=
  done s (hostRuns (doWakeReq) s)

/-- VS_REPORT (R372). -/
def execVsReport (v : W32) (s : State) : Host.Outcome State Fault Refusal :=
  done s (hostRuns (doVsReport v) s)

/-- VS_ODO (R372). -/
def execVsOdo (v : W32) (s : State) : Host.Outcome State Fault Refusal :=
  done s (hostRuns (doVsOdo v) s)

/-- VS_CFG_WRITE (R372). -/
def execVsCfgWrite (v : W32) (s : State) : Host.Outcome State Fault Refusal :=
  done s (hostRuns (doVsCfgWrite v) s)

/-- VS_CFG_LOCK (R370). -/
def execVsCfgLock (s : State) : Host.Outcome State Fault Refusal :=
  done s (hostRuns (doVsCfgLock) s)

/-- VS_TIMEOUT (R372). -/
def execVsTimeout (s : State) : Host.Outcome State Fault Refusal :=
  done s (hostRuns (doVsTimeout) s)

/-- READBACK_FAULT_CLEAR (R375). -/
def execReadbackFaultClear (s : State) : Host.Outcome State Fault Refusal :=
  done s (hostRuns (doReadbackFaultClear) s)

/-- READBACK_FAULT (R375). -/
def execReadbackFault (s : State) : Host.Outcome State Fault Refusal :=
  done s (hostRuns (doReadbackFault) s)

/-- DOOR_DEBOUNCED_CHANGE (R373). -/
def execDoorDebouncedChange (d : Fin 4) (high : Bool) (s : State) : Host.Outcome State Fault Refusal :=
  done s (hostRuns (doDoorDebouncedChange d high) s)

/-- CAN_ERRLAT_READ (R364). -/
def execCanErrlatRead (n : BitVec 3) (s : State) : Host.Outcome State Fault Refusal :=
  done s (hostRuns (doCanErrlatRead n) s)

/-- BR_ANOM_READ (R364). -/
def execBrAnomRead (n : BitVec 3) (s : State) : Host.Outcome State Fault Refusal :=
  done s (hostRuns (doBrAnomRead n) s)

/-- PERMIT_READBACK_SAMPLE (R375). -/
def execPermitReadbackSample (level : Bool) (s : State) : Host.Outcome State Fault Refusal :=
  done s (hostRuns (doPermitReadbackSample level) s)

end Sys2Proof.Machine
end

