-- ==== Sys2Proof/Machine/Can.lean ====
section
/-! DEFINITION. The CAN FD controller: engine dialogue and J1939 ledger export (R376 to R379). -/

namespace Sys2Proof.Machine

open Sys2Proof

/-- CAN_CTRL bits: EN, LISTEN_ONLY, ENG_EN, J1939_EN. -/
def canOn (c : CanCtl) : Bool := bitAt c.ctrl.toNat 0 && c.errState != 2

def canSends (c : CanCtl) : Bool := canOn c && !bitAt c.ctrl.toNat 3

def canEng (c : CanCtl) : Bool := bitAt c.ctrl.toNat 5

def canJ1939 (c : CanCtl) : Bool := bitAt c.ctrl.toNat 6

/-- An odometer from CAN goes to the field die at most once a second (R372). DEDUCED, log 111. -/
def canOdo (s : State) (odo : W32) : State :=
  match s.host.vs.odoAt with
  | some t => if s.clock < t + ticksPerSec then s else go s
  | none => go s
where
  go (s : State) : State := forwardOdo { s with host := { s.host with vs := { s.host.vs with odoAt := some s.clock } } } odo

/-- ENGINE_STATUS (R372, R377): its end-to-end check, the report when SRC is 1, and the odometer.
DEDUCED, log 111. -/
def doEngineStatus (data : Vector Byte 8) (s : State) : State :=
  let c := s.host.can
  if !canOn c || !canEng c then s
  else
    let d := data.toList
    let crcOk := crc8J1850 (c.dataIdEng :: d.drop 1) == byteAt d 0
    let cnt : BitVec 4 := BitVec.ofNat 4 (byteAt d 1)
    let ok := crcOk && (!s.host.vs.srcCan || cntOk s.host.vs.lastCnt cnt)
    let s1 := if ok then s else errLatSet s 6
    let s2 := if s.host.vs.srcCan then report s1 crcOk cnt (byteAt d 1 / 16) else if ok then s1 else irqSet s1 9
    if ok then canOdo s2 (BitVec.ofNat 32 (leAt d 2 4)) else s2

/-- Bytes 1 and 2 of IMMO_STATUS without CNT (R377). -/
def immoState (s : State) : Nat × Nat :=
  (16 * b2n s.host.pmt.active + 32 * b2n s.bar.hostEnd.synced + 64 * b2n (!s.bar.hostEnd.silent && !s.bar.stewardStall) +
    128 * b2n s.host.pmt.readbackFault, s.host.pmt.lastEnd.toNat)

/-- IMMO_STATUS sent with the next CNT. -/
def sendImmo (s : State) : State :=
  let c := s.host.can
  let cnt := c.immoCnt + 1
  let (b1, b2) := immoState s
  let body := [byte (cnt.toNat + b1), byte b2] ++ zeros 5
  { s with host := { s.host with can := { c with
    immoCnt := cnt, immoAt := s.clock, immoFd := bitAt c.ctrl.toNat 1
    immoBrs := bitAt c.ctrl.toNat 1 && bitAt c.ctrl.toNat 2, immoSent := byte (crc8J1850 (c.dataIdImmo :: body)) :: body } } }

/-- Whether byte 1 or 2 differs from the last IMMO_STATUS sent. -/
def immoChanged (s : State) : Bool :=
  byteAt s.host.can.immoSent 1 / 16 * 16 != (immoState s).1 || byteAt s.host.can.immoSent 2 != (immoState s).2

/-- IMMO_STATUS_PERIOD (R377): every 20 ms, or at once on a change. -/
def doImmoStatusPeriod (onChange : Bool) (s : State) : State :=
  if !canSends s.host.can || !canEng s.host.can then s
  else if onChange then (if immoChanged s then sendImmo s else s)
  else sendImmo (elapseToClock s (s.host.can.immoAt + 20 * ticksPerMs))

/-- An Acknowledgement on PGN 0x00E800 (R378). DEDUCED, log 108. -/
def canAck (s : State) (control : Byte) : State :=
  if canSends s.host.can then { s with host := { s.host with can := { s.host.can with ackSent := some control } } } else s

/-- J1939_REQUEST (R378, R379): a request frame of eight bytes to SA, forwarded or refused. DEDUCED, log 108. -/
def doJ1939Request (data : Vector Byte 8) (s : State) : State :=
  let d := data.toList
  let n := byteAt d 5
  if !canOn s.host.can || !canJ1939 s.host.can || byteAt d 0 != 0x4C || decide (1 < byteAt d 6) then s
  else if s.host.can.xfer.isSome then canAck s 3
  else if n = 0 ∨ 27 < n then canAck s 1
  else if s.bar.link ≠ .up then canAck s 3
  else
    sendBulk { s with host := { s.host with can := { s.host.can with
      xfer := some { first := BitVec.ofNat 32 (leAt d 1 4), count := n, cm := byteAt d 6 == 1, since := s.clock } } } }
      false .write 0 0x1020 d

/-- The export ends. -/
def xferEnd (s : State) : State := { s with host := { s.host with can := { s.host.can with xfer := none } } }

/-- J1939_CANX_TIMEOUT (R378): 250 ms without a CANX record. DEDUCED, log 108. -/
def doJ1939CanxTimeout (s0 : State) : State :=
  match s0.host.can.xfer with
  | some x => if x.record.isSome then s0 else canAck (xferEnd (elapseToClock s0 (x.since + 250 * ticksPerMs))) 3
  | none => s0

/-- Data packet `k` (from 1) of a record: its number, then seven bytes, 0xFF past the end (SAE J1939-21).
PRESUMED, log 17. -/
def tpDt (rec : Bytes) (k : Nat) : Bytes :=
  let d := slice rec (7 * (k - 1)) 7
  byte k :: (d ++ List.replicate (7 - d.length) 0xFF)

/-- Data packets up to number `k` sent; the export ends with the last one. -/
def sentUpTo (s : State) (x : J1939Export) (rec : Bytes) (k : Nat) : State :=
  let total := ceilDiv rec.length 7
  let k' := Nat.min k total
  let s1 := { s with host := { s.host with can := { s.host.can with
    packet := tpDt rec k', xfer := some { x with sent := k', cleared := k', lastAt := s.clock } } } }
  if total ≤ k' then xferEnd s1 else s1

/-- BAM_PACKET (R378): 50 ms after the last packet the next one. PRESUMED, log 17. -/
def doBamPacket (s0 : State) : State :=
  match s0.host.can.xfer with
  | some x =>
    match x.record with
    | some rec =>
      if x.cm || !canSends s0.host.can then s0
      else sentUpTo (elapseToClock s0 (x.lastAt + 50 * ticksPerMs)) x rec (x.sent + 1)
    | none => s0
  | none => s0

/-- J1939_CTS (R378): packets `next` to `next + n − 1` are sent; a CTS for no packets holds the connection.
PRESUMED, log 17. -/
def doJ1939Cts (n next : Byte) (s : State) : State :=
  match s.host.can.xfer with
  | some x =>
    match x.record with
    | some rec =>
      if !x.cm || !canSends s.host.can then s
      else if n = 0 then { s with host := { s.host with can := { s.host.can with xfer := some { x with lastAt := s.clock } } } }
      else if next = 0 ∨ ceilDiv rec.length 7 < next.toNat then s
      else sentUpTo s x rec (next.toNat + n.toNat - 1)
    | none => s
  | none => s

/-- J1939_TP_TIMEOUT (R378): a connection-mode timeout of J1939-21 ends the running export. -/
def doJ1939TpTimeout (s : State) : State :=
  match s.host.can.xfer with
  | some x => if x.cm && x.record.isSome then xferEnd s else s
  | none => s

/-- CAN_BUS_OFF (R370, R376, R379): bus-off entered, or left again under the standard, with the error counters. -/
def doCanBusOff (entered : Bool) (tec rcnt : Byte) (s : State) : State :=
  let put (st : BitVec 2) (t : State) : State :=
    { t with host := { t.host with can := { t.host.can with errState := st, tecCnt := tec, recCnt := rcnt } } }
  if !bitAt s.host.can.ctrl.toNat 0 then s
  else if entered then errLatSet (put 2 s) 5
  else if s.host.can.errState = 2 then put 0 s
  else s

/-! ### The commands of this file -/

/-- ENGINE_STATUS (R377). -/
def execEngineStatus (data : Vector Byte 8) (s : State) : Host.Outcome State Fault Refusal :=
  done s (hostRuns (doEngineStatus data) s)

/-- IMMO_STATUS_PERIOD (R377). -/
def execImmoStatusPeriod (onChange : Bool) (s : State) : Host.Outcome State Fault Refusal :=
  done s (hostRuns (doImmoStatusPeriod onChange) s)

/-- J1939_REQUEST (R378). -/
def execJ1939Request (data : Vector Byte 8) (s : State) : Host.Outcome State Fault Refusal :=
  done s (hostRuns (doJ1939Request data) s)

/-- J1939_CANX_TIMEOUT (R378). -/
def execJ1939CanxTimeout (s : State) : Host.Outcome State Fault Refusal :=
  done s (hostRuns (doJ1939CanxTimeout) s)

/-- BAM_PACKET (R378). -/
def execBamPacket (s : State) : Host.Outcome State Fault Refusal :=
  done s (hostRuns (doBamPacket) s)

/-- J1939_CTS (R378). -/
def execJ1939Cts (n : Byte) (next : Byte) (s : State) : Host.Outcome State Fault Refusal :=
  done s (hostRuns (doJ1939Cts n next) s)

/-- CAN_BUS_OFF (R376). -/
def execCanBusOff (entered : Bool) (tec : Byte) (rcnt : Byte) (s : State) : Host.Outcome State Fault Refusal :=
  done s (hostRuns (doCanBusOff entered tec rcnt) s)

/-- J1939_TP_TIMEOUT (R378). -/
def execJ1939TpTimeout (s : State) : Host.Outcome State Fault Refusal :=
  done s (hostRuns (doJ1939TpTimeout) s)

end Sys2Proof.Machine
end

