-- ==== Sys2Proof/Machine/Clocks.lean ====
section
/-! DEFINITION. Rows of the clock controller: judging, PLLs, islands, the start-up series, the monitors, switching, the
gate tree, dividers and the bus crossings (R400 to R410). -/

namespace Sys2Proof.Machine

open Sys2Proof

/-! ### Judging a source (R400, R402 to R404) -/

/-- Whether a window's count passes (R400); RC32 passes after 256 cycles with amplitude. -/
def windowPasses (src : ClockSource) (count : Nat) : Bool :=
  match src with
  | .rc32 => 256 ≤ count
  | .xo => decide (2408 ≤ count) && decide (count ≤ 2507)
  | .rc16 => decide (957 ≤ count) && decide (count ≤ 996)
  | .rtcCrystal => decide (251 ≤ count) && decide (count ≤ 261)
  | .hostCrystal => decide (1255 ≤ count) && decide (count ≤ 1305)

/-- Neither source is left (R402, R404): every island stops, the device drops to Jet and retries under R402.
DEDUCED, log 122, 132. -/
def rc16Failure (s : State) : State :=
  enterJet { s with clk := { s.clk with
    rc16Rdy := false, winRc16 := 0
    attempts := vmodN s.clk.attempts 0 fun _ => { rtc := BitVec.ofNat 24 (rtcNow s) }, attempt := 1, recs := 1 } }

/-- XO failure in Chalk (R50, R404): CANCEL_ALL, XO_FAIL, REF to RC16, the fallback, EVT_BOOT with OUTCOME 2 and STEP 3; an RC16
that is not ready takes over nothing; during an Ash store Or goes on once PLL_C has relocked on RC16 (R410).
DEDUCED, log 132. -/
def xoFailure (s : State) : State :=
  if s.pwr.pstate = .chalk && s.clk.xoRdy && !s.clk.refRc16 && !s.clk.rc16Rdy then
    rc16Failure { s with clk := { s.clk with xoFail := true, xoRdy := false } }
  else if s.pwr.pstate = .chalk && s.clk.xoRdy && !s.clk.refRc16 then
    let s1 := tbHold (cancelAll s .launchLate true)
    let s2 := refRelock (enterFallback { s1 with clk := { s1.clk with xoFail := true } })
    passEnd (evtBoot (tbRestart s2 .rc16) (stepStatus 3) 3 2)
  else if s.pwr.pstate = .ash && s.clk.xoRdy && !s.clk.refRc16 then
    refRelock { s with clk := { s.clk with refRc16 := true, xoRdy := false, winXo := 0 } }
  else s

/-- The host crystal fails (R404): the host die holds itself in reset. DEDUCED, log 130. -/
def hostCrystalFails (s : State) : State :=
  let s1 := doHostDieReset s
  { s1 with clk := { s1.clk with hostReady := false, winHost := 0, hostHeld := true } }

/-- CLOCK_JUDGE_WINDOW (R400): a frequency-counter window of a source ends with its count; a source is judged only
against a reference that has itself passed. -/
def doClockJudgeWindow (src : ClockSource) (count : W16) (s : State) : State :=
  let ok := windowPasses src count.toNat
  let up (w : Nat) : Nat := Nat.min 3 (w + 1)
  let c := s.clk
  match src with
  | .rc32 => { s with clk := { c with rc32Ok := c.rc32Ok || ok } }
  | .xo =>
    if !c.rc16Rdy then s
    else if ok then
      let w := up c.winXo
      xoBack { s with clk := { c with winXo := w, xoRdy := c.xoRdy || decide (w = 3) } }
    else if c.xoRdy && !c.refRc16 && (s.pwr.pstate = .chalk || s.pwr.pstate = .ash) then xoFailure s
    else { s with clk := { c with winXo := 0, xoRdy := false } }
  | .rc16 =>
    if !c.rc32Ok then s
    else if ok then
      let w := up c.winRc16
      { s with clk := { c with winRc16 := w, rc16Rdy := c.rc16Rdy || decide (w = 3) } }
    else if c.fallback && s.pwr.pstate = .chalk then rc16Failure s
    else { s with clk := { c with winRc16 := 0, rc16Rdy := false } }
  | .rtcCrystal =>
    if !c.rc32Ok then s
    else if ok then
      let w := up c.winRtc
      { s with clk := { c with winRtc := w }, rtc := { s.rtc with crystal := s.rtc.crystal || decide (w = 3) } }
    else { s with clk := { c with winRtc := 0 }, rtc := { s.rtc with crystal := false } }
  | .hostCrystal =>
    if ok then
      let w := up c.winHost
      { s with clk := { c with winHost := w, hostReady := c.hostReady || decide (w = 3), hostHeld := c.hostHeld && decide (w < 3) } }
    else if c.hostReady then hostCrystalFails s
    else { s with clk := { c with winHost := 0 } }

/-- XO_MISSED_EDGE (R404). -/
def doXoMissedEdge (s : State) : State := xoFailure s

/-- RTC_CRYSTAL_STOP (R326, R404): the RTC goes on from RC32, TQ drift state 0. DEDUCED, log 132. -/
def doRtcCrystalStop (s : State) : State :=
  { s with rtc := { s.rtc with crystal := false, drift := 0 }, clk := { s.clk with winRtc := 0 } }

/-- HOST_CRYSTAL_FAIL (R404). DEDUCED, log 130. -/
def doHostCrystalFail (s : State) : State := hostCrystalFails s

/-- XO_RETRY_TIMER (R403): every 10 s in the fallback the XO is restarted and judged anew. -/
def doXoRetryTimer (s0 : State) : State :=
  if s0.clk.fallback && s0.pwr.pstate = .chalk then
    let s := elapseToClock s0 (s0.clk.retryAt + 10 * ticksPerSec)
    if s.clk.backWaits then xoBack { s with clk := { s.clk with retryAt := s.clock } }
    else { s with clk := { s.clk with retryAt := s.clock, winXo := 0, xoRdy := false } }
  else s0

/-! ### The start-up series (R402) -/

/-- SOURCE_GIVEUP (R402): 20 ms after the sources' start; start-up goes on where it can. -/
def doSourceGiveup (o : StartOutcome) (s0 : State) : State :=
  if s0.pwr.pstate = .chalk ∧ s0.boot.step = 3 ∧ s0.boot.locked = false ∧ (o.xoReady && o.rc16Ready) = false then
    let s := sourceGiveup o (elapseToClock s0 (s0.boot.stepAt + 20 * ticksPerMs))
    if runOn 3 s then runSteps 14 o s else s
  else s0

/-- JET_RETRY_TIMER (R402): 100 ms after a clock failure the device starts again, up to four attempts in a series. -/
def doJetRetryTimer (o : StartOutcome) (s0 : State) : State :=
  if s0.pwr.pstate = .jet ∧ s0.pwr.belowRun = false ∧ 1 ≤ s0.clk.attempt ∧ s0.clk.attempt ≤ 3 then
    startRun o (coldBegin (elapse s0 (100 * ticksPerMs)) 256)
  else s0

/-! ### PLLs and islands (R401, R404, R405) -/

/-- PLL_LOCK_ACQUIRED (R401, R405): after a REF change Purpure and Gules take PLL_C at divider 32. -/
def doPllLockAcquired (pll : Pll) (s : State) : State :=
  let g (n : Nat) : Bool := bitAt s.clk.gate.toNat n
  match pll with
  | .c =>
    if !g 2 then s
    else { s with clk := { s.clk with
      pllcLock := true, onRc16 := false
      curPurpure := if s.clk.onRc16 then 32 else s.clk.curPurpure
      curGules := if s.clk.onRc16 then 32 else s.clk.curGules } }
  | .l => if g 6 then { s with clk := { s.clk with plllLock := true } } else s
  | .u => if g 8 && !s.clk.fallback then { s with clk := { s.clk with plluLock := true } } else s

/-- PLL_LOCK_LOSS (R148, R404): the islands that PLL_C or PLL_L feeds stop, and the steward restarts; PLL_U's loss leaves
Azure's synthesiser not ready. DEDUCED, log 132. -/
def doPllLockLoss (pll : Pll) (s : State) : State :=
  match pll with
  | .c => if s.clk.pllcLock then stewardRestart { s with clk := { s.clk with pllcLock := false, ready := s.clk.ready &&& ~~~(0x46 : BitVec 7) } } else s
  | .l => if s.clk.plllLock then stewardRestart { s with clk := { s.clk with plllLock := false, ready := s.clk.ready &&& ~~~(0x28 : BitVec 7) } } else s
  | .u =>
    if s.clk.plluLock then
      doAzLockLost { s with clk := { s.clk with plluLock := false, ready := s.clk.ready &&& ~~~(0x10 : BitVec 7) } }
    else s

/-- Gate node, ready bit, ticks of 4,096 source cycles and whether the source runs, of an island (R401): 800 MHz of PLL_C, 76.8
MHz of PLL_L, 38.4 MHz for Tenné, 124.8 MHz for Azure (R16), the XO or RC16 for Celeste. DESIGN CHOICE, log 127. -/
def islandClock (s : State) : ClockIsland → Nat × Nat × Nat × Bool
  | .celeste => (10, 0, if s.clk.refRc16 then 9831 else 4096, if s.clk.refRc16 then s.clk.rc16Rdy else s.clk.xoRdy)
  | .purpure => (3, 1, 197, s.clk.pllcLock)
  | .gules => (4, 2, 197, s.clk.pllcLock)
  | .vert => (7, 3, 2048, s.clk.plllLock)
  | .azure => (9, 4, 1261, s.clk.plluLock)
  | .tenne => (11, 5, 4096, s.clk.plllLock)
  | .orr => (5, 6, 197, s.clk.pllcLock)

/-- ISLAND_READY (R401): after 4,096 cycles of its source the island is granted ready. DESIGN CHOICE, log 127. -/
def doIslandReady (i : ClockIsland) (s0 : State) : State :=
  let c := islandClock s0 i
  if c.2.2.2 && bitAt s0.clk.gate.toNat c.1 && !bitAt s0.clk.ready.toNat c.2.1 then
    let s := elapse s0 c.2.2.1
    { s with clk := { s.clk with ready := s.clk.ready ||| BitVec.ofNat 7 (2 ^ c.2.1) } }
  else s0

/-! ### Switching, gates, dividers, crossings (R405 to R407) -/

/-- CLK_SEL_WRITE (R405): refused while an entry is active or the source named is not ready. DEDUCED, log 131. -/
def doClkSelWrite (v : W32) (s : State) : State :=
  let rc16 := bitAt v.toNat 0
  if rc16 = s.clk.refRc16 then s
  else if launchActive s || !(if rc16 then s.clk.rc16Rdy else s.clk.xoRdy) then { s with clk := { s.clk with selRefused := true } }
  else if s.clk.fallback then leaveFallback s
  else
    let s1 := refRelock { s with clk := { s.clk with refRc16 := rc16 } }
    tbRestart s1 (if rc16 then .rc16 else .xo)

/-- The children of a gate node (R406). DEDUCED, log 131. -/
def gateChildren (s : State) (n : Nat) : List Nat :=
  let ref := if s.clk.refRc16 then 1 else 0
  (if n = ref then [2, 6, 10] else []) ++
    match n with
    | 0 => [8] | 2 => [3, 4, 5] | 6 => [7, 11] | 8 => [9]
    | _ => []

/-- Ready bits of the islands whose gates are open. DEDUCED, log 131. -/
def gatedReady (s : State) (g : Nat) : BitVec 7 :=
  [(10, 0), (3, 1), (4, 2), (7, 3), (9, 4), (11, 5), (5, 6)].foldl
    (fun m p => if bitAt g p.1 then m else m &&& ~~~(BitVec.ofNat 7 (2 ^ p.2))) s.clk.ready

/-- Celeste's clock follows its gate (R30, R31): the count is held while it stands and advanced when it runs again. -/
def celesteClock (s : State) : State :=
  if bitAt s.clk.gate.toNat 10 then (if s.cel.tbRun then s else tbRestart s (if s.clk.refRc16 then .rc16 else .xo)) else tbHold s

/-- CLK_GATE_WRITE (R30, R406): a node that is enabled enables its parents first; PURPURE stays enabled; a write that would
disable a node with an enabled child is refused whole. DEDUCED, log 131. -/
def doClkGateWrite (v : W32) (s : State) : State :=
  let old := s.clk.gate.toNat
  let want := bitsOf v 11 0 ||| (old &&& 8)
  let fresh := (List.range 12).filter fun n => bitAt want n && !bitAt old n
  let new := (fresh.flatMap (gatePath s)).foldl (fun m b => m ||| 2 ^ b) want
  let bad := (List.range 12).any fun n => bitAt old n && !bitAt new n && (gateChildren s n).any fun c => bitAt new c
  if bad then { s with clk := { s.clk with gateRefused := true } }
  else
    celesteClock { s with clk := { s.clk with
      gate := BitVec.ofNat 12 new, ready := gatedReady s new
      pllcLock := s.clk.pllcLock && bitAt new 2, plllLock := s.clk.plllLock && bitAt new 6
      plluLock := s.clk.plluLock && bitAt new 8 } }

/-- CLK_DIV_WRITE (R409): targets from 8 to 63; other values are ignored. -/
def doClkDivWrite (v : W32) (s : State) : State :=
  let p := bitsOf v 5 0
  let g := bitsOf v 13 8
  { s with clk := { s.clk with
      divPurpure := if 8 ≤ p then BitVec.ofNat 6 p else s.clk.divPurpure
      divGules := if 8 ≤ g then BitVec.ofNat 6 g else s.clk.divGules } }

/-- One step of a divider toward its target. -/
def divStep (cur target : BitVec 6) : BitVec 6 :=
  if cur.toNat < target.toNat then cur + 1 else if target.toNat < cur.toNat then cur - 1 else cur

/-- Ticks of `n` cycles of 800 MHz ÷ `d`. -/
def divTicks (n : Nat) (d : BitVec 6) : Nat := ceilDiv (n * d.toNat * 384) 8000

/-- DIVIDER_RAMP_STEP (R405): 64 island cycles, then one step; not while PLL_C is unlocked. -/
def doDividerRampStep (gules : Bool) (s0 : State) : State :=
  if !s0.clk.pllcLock then s0
  else if gules then
    if s0.clk.curGules = s0.clk.divGules then s0
    else
      let s := elapse s0 (divTicks 64 s0.clk.curGules)
      { s with clk := { s.clk with curGules := divStep s.clk.curGules s.clk.divGules } }
  else if s0.clk.curPurpure = s0.clk.divPurpure then s0
  else
    let s := elapse s0 (divTicks 64 s0.clk.curPurpure)
    { s with clk := { s.clk with curPurpure := divStep s.clk.curPurpure s.clk.divPurpure } }

/-- BUS_CROSSING_TIMEOUT (R407): the steward's bus waits 256 Purpure cycles; a read returns 0xFFFF_FFFF, a write is
dropped; BUS_TO. -/
def doBusCrossingTimeout (write : Bool) (s0 : State) : State :=
  let s := elapse s0 (divTicks 256 s0.clk.curPurpure)
  { s with
    clk := { s.clk with busTo := true }
    lastRead := if write then s.lastRead else List.replicate 4 0xFF }

/-! ### The commands of this file -/

/-- CLOCK_JUDGE_WINDOW (R400). -/
def execClockJudgeWindow (src : ClockSource) (count : W16) (s : State) : Host.Outcome State Fault Refusal :=
  done s (doClockJudgeWindow src count s)

/-- PLL_LOCK_ACQUIRED (R401). -/
def execPllLockAcquired (pll : Pll) (s : State) : Host.Outcome State Fault Refusal :=
  done s (doPllLockAcquired pll s)

/-- ISLAND_READY (R401). -/
def execIslandReady (k : ClockIsland) (s : State) : Host.Outcome State Fault Refusal :=
  done s (doIslandReady k s)

/-- SOURCE_GIVEUP (R402). -/
def execSourceGiveup (o : StartOutcome) (s : State) : Host.Outcome State Fault Refusal :=
  done s (doSourceGiveup o s)

/-- JET_RETRY_TIMER (R402). -/
def execJetRetryTimer (o : StartOutcome) (s : State) : Host.Outcome State Fault Refusal :=
  done s (doJetRetryTimer o s)

/-- XO_RETRY_TIMER (R403). -/
def execXoRetryTimer (s : State) : Host.Outcome State Fault Refusal :=
  done s (doXoRetryTimer s)

/-- XO_MISSED_EDGE (R404). -/
def execXoMissedEdge (s : State) : Host.Outcome State Fault Refusal :=
  done s (doXoMissedEdge s)

/-- PLL_LOCK_LOSS (R404). -/
def execPllLockLoss (pll : Pll) (s : State) : Host.Outcome State Fault Refusal :=
  done s (doPllLockLoss pll s)

/-- RTC_CRYSTAL_STOP (R404). -/
def execRtcCrystalStop (s : State) : Host.Outcome State Fault Refusal :=
  done s (doRtcCrystalStop s)

/-- HOST_CRYSTAL_FAIL (R404). -/
def execHostCrystalFail (s : State) : Host.Outcome State Fault Refusal :=
  done s (doHostCrystalFail s)

/-- CLK_SEL_WRITE (R405). -/
def execClkSelWrite (v : W32) (s : State) : Host.Outcome State Fault Refusal :=
  done s (doClkSelWrite v s)

/-- CLK_GATE_WRITE (R406). -/
def execClkGateWrite (v : W32) (s : State) : Host.Outcome State Fault Refusal :=
  done s (doClkGateWrite v s)

/-- CLK_DIV_WRITE (R405). -/
def execClkDivWrite (v : W32) (s : State) : Host.Outcome State Fault Refusal :=
  done s (doClkDivWrite v s)

/-- DIVIDER_RAMP_STEP (R405). -/
def execDividerRampStep (gules : Bool) (s : State) : Host.Outcome State Fault Refusal :=
  done s (doDividerRampStep gules s)

/-- BUS_CROSSING_TIMEOUT (R407). -/
def execBusCrossingTimeout (write : Bool) (s : State) : Host.Outcome State Fault Refusal :=
  done s (doBusCrossingTimeout write s)

end Sys2Proof.Machine
end

