-- ==== Sys2Proof/Machine/StoreCmds.lean ====
section
/-! DEFINITION. The store, ledger, radio and coexistence commands of the host (R206, R226, R316 to R319, R323, R329,
R331, and the tables of groups 0x05 and 0x06). -/

namespace Sys2Proof.Machine

open Sys2Proof

/-! ### Native partitions (R316) -/

/-- A partition number; none from 8 on. DEDUCED, log 152. -/
def partN (n : Nat) : Option (Fin 8) := if h : n < 8 then some ⟨n, h⟩ else none

/-- The entry of a partition in SYS. -/
def partAt (s : State) (p : Fin 8) : Option NativePart := s.orr.sys.parts[p]

def setPart (s : State) (p : Fin 8) (x : Option NativePart) : State :=
  { s with orr := { s.orr with sys := { s.orr.sys with parts := vset s.orr.sys.parts p x } } }

def rightAt (s : State) (p : Fin 8) : PartRight := s.orr.rights[p]

def setRight (s : State) (p : Fin 8) (x : PartRight) : State :=
  { s with orr := { s.orr with rights := vset s.orr.rights p x } }

/-- Whether a page of NATIVE is free: in no partition, and erased. -/
def pageFree (s : State) (a : Nat) : Bool :=
  !pageOwned s a && pageErased s a

/-- The first page of the lowest contiguous free run of `n` pages in 150 to 229. DEDUCED, log 152. -/
def freeRun (s : State) (n : Nat) : Option Nat :=
  (List.range 80).findSome? fun i =>
    if i + n ≤ 80 && ((List.range n).all fun k => pageFree s (150 + i + k)) then some (150 + i) else none

/-- A 16-byte password field: its length, and nothing beyond it. -/
def pwFieldBad (n : Nat) (f : Bytes) : Bool := decide (16 < n) || !allZero (f.drop n)

/-- The digest that SYS keeps of a password (R317). -/
def pwDigest (s : State) (p : Fin 8) (write : Bool) (pw : Bytes) : Bytes :=
  (Config.sha256 (ascii "TV8160-PW" ++ serialBytes s ++ [byte p.val, byte (b2n write)] ++ pw)).take 16

/-- The stored form of a password of length `n`; none for length 0. -/
def pwStored (s : State) (p : Fin 8) (write : Bool) (n : Nat) (f : Bytes) : Option Bytes :=
  if n = 0 then none else some (pwDigest s p write (f.take n))

/-- Whether the passwords of a partition are refused (R317). DEDUCED, log 152. -/
def pwBlocked (s : State) (p : Fin 8) : Bool :=
  match (rightAt s p).blocked with
  | some t => decide (now s < t)
  | none => false

/-- A wrong password: the fifth within 60 s blocks the partition's passwords for 60 s. DEDUCED, log 152. -/
def pwWrong (s : State) (p : Fin 8) : State :=
  let r := rightAt s p
  let f := (r.fails.filter fun t => decide (now s < t + 60 * ticksPerSec)) ++ [now s]
  if 5 ≤ f.length then setRight s p { r with fails := [], blocked := some (now s + 60 * ticksPerSec) }
  else setRight s p { r with fails := f }

/-- A password tried: whether it is the partition's, and the failures counted. DEDUCED, log 152. -/
def pwTry (s : State) (p : Fin 8) (q : NativePart) (write : Bool) (n : Nat) (f : Bytes) : Bool × State :=
  if pwBlocked s p then (false, s)
  else if pwStored s p write n f = (if write then q.writePw else q.readPw) then (true, s)
  else (false, pwWrong s p)

/-- ST_CREATE: first fit; the entry is stored in one transaction. DEDUCED, log 152. -/
def doStCreate (s : State) : State :=
  serve
    { opcode := 0x0501, len := lenIs 40
      bad := fun _ b =>
        decide (7 < byteAt b 4) || byteAt b 5 == 0 || decide (80 < byteAt b 5) ||
          pwFieldBad (byteAt b 6) (slice b 8 16) || pwFieldBad (byteAt b 7) (slice b 24 16)
      run := fun c t =>
        let b := c.bytes
        match partN (byteAt b 4) with
        | none => .now .paramRange [] t
        | some p =>
          if (partAt t p).isSome then .now .busy [] t
          else match freeRun t (byteAt b 5) with
            | none => .now .storeFull [] t
            | some a =>
              let q : NativePart :=
                { first := a, pages := byteAt b 5, readPw := pwStored t p false (byteAt b 6) (slice b 8 16)
                  writePw := pwStored t p true (byteAt b 7) (slice b 24 16) }
              let r := transaction (setRight (setPart t p (some q)) p {}) sysPages none
              if r.2 then .now .ok [] r.1 else .now .retry [] (setPart r.1 p none) } s

/-- The pages of a partition. -/
def partPages (q : NativePart) : List Nat := (List.range q.pages).map (q.first + ·)

/-- ST_DELETE: the entry leaves SYS in one transaction; the pages are erased in the background. DEDUCED, log 152. -/
def doStDelete (s : State) : State :=
  serve
    { opcode := 0x0502, len := lenIs 24
      bad := fun _ b => decide (7 < byteAt b 4) || leAt b 6 2 != 0 || pwFieldBad (byteAt b 5) (slice b 8 16)
      run := fun c t =>
        let b := c.bytes
        match partN (byteAt b 4) with
        | none => .now .paramRange [] t
        | some p =>
          match partAt t p with
          | none => .now .paramRange [] t
          | some q =>
            let r := pwTry t p q true (byteAt b 5) (slice b 8 16)
            if !r.1 then .now .storeProtected [] r.2
            else
              let x := transaction (setPart r.2 p none) sysPages none
              if !x.2 then .now .retry [] (setPart x.1 p (some q))
              else
                let t1 := setRight x.1 p {}
                .now .ok [] { t1 with orr := { t1.orr with wbuf := t1.orr.wbuf.filter fun y => !(partPages q).contains y.1 } } } s

/-- Whether the read or the write right of a partition is in force: granted, and used within the last 10 minutes (R317). -/
def rightLive (s : State) (p : Fin 8) (write : Bool) : Bool :=
  let r := rightAt s p
  (if write then r.write else r.read) && decide (now s < r.access + 600 * ticksPerSec)

/-- ST_OPEN (R317). DEDUCED, log 152. -/
def doStOpen (s : State) : State :=
  serve
    { opcode := 0x0503, len := lenIs 24
      bad := fun _ b => decide (7 < byteAt b 4) || decide (1 < byteAt b 5) || byteAt b 7 != 0 || pwFieldBad (byteAt b 6) (slice b 8 16)
      run := fun c t =>
        let b := c.bytes
        match partN (byteAt b 4) with
        | none => .now .paramRange [] t
        | some p =>
          match partAt t p with
          | none => .now .paramRange [] t
          | some q =>
            let w := byteAt b 5 == 1
            let r := pwTry t p q w (byteAt b 6) (slice b 8 16)
            if !r.1 then .now .storeProtected [] r.2
            else
              let x := rightAt r.2 p
              .now .ok [] (setRight r.2 p
                { x with read := rightLive r.2 p false || !w, write := rightLive r.2 p true || w, access := now t }) } s

/-- ST_CLOSE: both rights end. -/
def doStClose (s : State) : State :=
  serve
    { opcode := 0x0504, len := lenIs 8
      bad := fun _ b => decide (7 < byteAt b 4) || !allZero (slice b 5 3)
      run := fun c t => match partN (byteAt c.bytes 4) with
        | none => .now .paramRange [] t
        | some p => .now .ok [] (setRight t p { (rightAt t p) with read := false, write := false }) } s

/-- A right is used: its 10 minutes begin again (R317). -/
def touchRight (s : State) (p : Fin 8) : State := setRight s p { (rightAt s p) with access := now s }

/-- Committed content of a partition. DEDUCED, log 153. -/
def partBytes (s : State) (q : NativePart) (off n : Nat) : Bytes :=
  (List.range n).map fun i =>
    memRead (vgetN s.orr.pages (q.first + (off + i) / 256) {}).shadow ((off + i) % 256)

/-- ST_READ (R318): committed content, never buffered content. -/
def doStRead (s : State) : State :=
  serve
    { opcode := 0x0505, len := lenIs 12
      bad := fun _ b => decide (7 < byteAt b 4) || byteAt b 5 != 0 || decide (240 < leAt b 6 2)
      run := fun c t =>
        let b := c.bytes
        let n := leAt b 6 2
        let off := leAt b 8 4
        if n = 0 then .now .ok [] t
        else match (partN (byteAt b 4)).bind fun p => (partAt t p).map fun q => (p, q) with
          | none => .now .paramRange [] t
          | some (p, q) =>
            if q.readPw.isSome && !rightLive t p false then .now .storeProtected [] t
            else if 256 * q.pages < off + n then .now .paramRange [] t
            else .now .ok (partBytes t q off n) (touchRight t p) } s

/-- The pages that bytes `[off, off + n)` of a partition lie on, rising. -/
def touchedPages (q : NativePart) (off n : Nat) : List Nat :=
  (List.range ((off + n - 1) / 256 - off / 256 + 1)).map (q.first + off / 256 + ·)

/-- The write buffer with one byte put into the image of its page; the image starts from the committed content.
DEDUCED, log 153. -/
def wbufPut (s : State) (buf : List (Nat × Mem)) (page a : Nat) (v : Byte) : List (Nat × Mem) :=
  if buf.any fun x => x.1 == page then buf.map fun x => if x.1 == page then (page, memWrite x.2 a v) else x
  else buf ++ [(page, memWrite (vgetN s.orr.pages page {}).shadow a v)]

/-- ST_WRITE (R318). DEDUCED, log 153. -/
def doStWrite (s : State) : State :=
  serve
    { opcode := 0x0506, len := fun b => decide (12 ≤ b.length) && decide (b.length ≤ 252)
      bad := fun _ b => decide (7 < byteAt b 4) || !allZero (slice b 5 3)
      run := fun c t =>
        let b := c.bytes
        let d := b.drop 12
        let off := leAt b 8 4
        if d.isEmpty then .now .ok [] t
        else match (partN (byteAt b 4)).bind fun p => (partAt t p).map fun q => (p, q) with
          | none => .now .paramRange [] t
          | some (p, q) =>
            let new := (touchedPages q off d.length).filter fun a => !(t.orr.wbuf.any fun x => x.1 == a)
            if q.writePw.isSome && !rightLive t p true then .now .storeProtected [] t
            else if 8 < t.orr.wbuf.length + new.length then .now .storeFull [] t
            else if 256 * q.pages < off + d.length then .now .paramRange [] t
            else
              let buf := d.zipIdx.foldl (fun w x => wbufPut t w (q.first + (off + x.2) / 256) ((off + x.2) % 256) x.1) t.orr.wbuf
              .now .ok [] (touchRight { t with orr := { t.orr with wbuf := buf } } p) } s

/-- Page images put into the shadow. DEDUCED, log 153. -/
def putShadows (s : State) (l : List (Nat × Mem)) : State :=
  { s with orr := { s.orr with pages := l.foldl (fun v x => vmodN v x.1 fun g => { g with shadow := x.2 }) s.orr.pages } }

/-- ST_COMMIT (R318, R311); `bad`: a page commit ends with RETRY; reads then keep the committed content, and the buffer
stands. DEDUCED, log 153. -/
def doStCommit (bad : Bool) (s : State) : State :=
  serve
    { opcode := 0x0507, len := lenIs 4
      run := fun _ t =>
        if t.orr.wbuf.isEmpty then .now .ok [] t
        else
          let old := t.orr.wbuf.map fun x => (x.1, (vgetN t.orr.pages x.1 {}).shadow)
          let r := transaction (putShadows t t.orr.wbuf) (t.orr.wbuf.filterMap fun x => pageN x.1) (some bad)
          if r.2 then .now .ok [] { r.1 with orr := { r.1.orr with wbuf := [] } }
          else .now .retry [] (putShadows r.1 old) } s

/-- ST_DISCARD. -/
def doStDiscard (s : State) : State :=
  serve { opcode := 0x0508, len := lenIs 4, run := fun _ t => .now .ok [] { t with orr := { t.orr with wbuf := [] } } } s

/-- ST_PASSWORD: the current write password permits a change of either password (R317). DEDUCED, log 152. -/
def doStPassword (s : State) : State :=
  serve
    { opcode := 0x0509, len := lenIs 40
      bad := fun _ b =>
        decide (7 < byteAt b 4) || decide (1 < byteAt b 5) || pwFieldBad (byteAt b 6) (slice b 8 16) ||
          pwFieldBad (byteAt b 7) (slice b 24 16)
      run := fun c t =>
        let b := c.bytes
        match (partN (byteAt b 4)).bind fun p => (partAt t p).map fun q => (p, q) with
        | none => .now .paramRange [] t
        | some (p, q) =>
          let r := pwTry t p q true (byteAt b 6) (slice b 8 16)
          if !r.1 then .now .storeProtected [] r.2
          else
            let w := byteAt b 5 == 1
            let x := pwStored t p w (byteAt b 7) (slice b 24 16)
            let q1 := if w then { q with writePw := x } else { q with readPw := x }
            let y := transaction (setPart r.2 p (some q1)) sysPages none
            if y.2 then .now .ok [] y.1 else .now .retry [] (setPart y.1 p (some q)) } s

/-! ### The legacy window (R319, R323) -/

/-- LW_READ: a write cycle in progress ends first. DEDUCED, log 154. -/
def doLwRead (s : State) : State :=
  serve
    { opcode := 0x050A, len := lenIs 8
      bad := fun _ b => leAt b 6 2 == 0 || decide (240 < leAt b 6 2)
      run := fun c t =>
        let t1 := doLwWriteCycleEnd t
        .now .ok (lwRead t1.orr (leAt c.bytes 4 2) (leAt c.bytes 6 2)) t1 } s

/-- LW_WRITE: one page, as a write cycle (R319, R322, R323). DEDUCED, log 154. -/
def doLwWrite (s : State) : State :=
  serve
    { opcode := 0x050B, len := fun b => decide (9 ≤ b.length) && decide (b.length ≤ 40)
      bad := fun _ b => leAt b 6 2 != 0
      run := fun c t =>
        let a := leAt c.bytes 4 2 % 8192
        let t1 := doLwWriteCycleEnd t
        if lwProtected (lwBp t1.orr) a then .now .storeProtected [] t1
        else .now .ok [] { t1 with orr := { t1.orr with cycle := some (.page (a / 32) (lwPageImage t1.orr a (c.bytes.drop 8))) } } } s

/-! ### The ledger (R329, R331) -/

/-- LEDGER_READ: the present entries from FIRST to FIRST + COUNT − 1 as one BULK frame (R386, R396).
DEDUCED, log 155. -/
def doLedgerRead (s : State) : State :=
  serve
    { opcode := 0x050C, len := lenIs 12, res := .bulkOut
      bad := fun _ b => byteAt b 8 == 0 || decide (64 < byteAt b 8) || !allZero (slice b 9 3)
      run := fun c t =>
        let first := leAt c.bytes 4 4
        let l := (ledgerFrom t first (byteAt c.bytes 8)).filter fun e => decide (e.index.toNat < first + byteAt c.bytes 8)
        if l.isEmpty then .long { result := bulkResult 0xFF 1 0 0 } t
        else .long (bulkAns 1 l.length (l.flatMap fun e => e.data)) t } s

/-- LEDGER_ACK. -/
def doLedgerAck (s : State) : State :=
  serve
    { opcode := 0x050D, len := lenIs 8
      run := fun c t =>
        let v : W32 := BitVec.ofNat 32 (leAt c.bytes 4 4)
        .now (if t.ledger.ack.toNat < v.toNat && !(ackCommit v t).2 then .retry else .ok) [] (doOrLedgerAckWrite v t) } s

/-- LEDGER_STATUS. -/
def doLedgerStatus (s : State) : State :=
  serve
    { opcode := 0x050E, len := lenIs 4
      run := fun _ t =>
        .now .ok (leBytes 4 t.ledger.nextIndex.toNat ++ leBytes 4 (ledgerOldest t) ++ leBytes 4 t.ledger.ack.toNat ++
          leBytes 4 ((lastPair (ledgerThere t.ledger)).getD 0xFFFFFFFF) ++ leBytes 4 (b2n t.ledger.ledgerHigh)) t } s

/-! ### Radio and coexistence group, 0x06 -/

/-- RADIO_HF_LINGER (R206). -/
def doRadioHfLinger (s : State) : State :=
  serve
    { opcode := 0x0601, len := lenIs 8
      bad := fun _ b => decide (byteAt b 4 < 10) || decide (120 < byteAt b 4) || !allZero (slice b 5 3)
      run := fun c t => .now .ok [] (startLinger t (byteAt c.bytes 4)) } s

/-- RADIO_TAG_READ (R226): the access waits for a reader's hold to end. -/
def doRadioTagRead (s : State) : State :=
  serve
    { opcode := 0x0602, len := lenIs 8
      bad := fun _ b => leAt b 6 2 == 0 || decide (120 < leAt b 6 2) || decide (1024 < leAt b 4 2 + leAt b 6 2)
      run := fun c t =>
        .later (tagAccess t { read := some (leAt c.bytes 4 2, leAt c.bytes 6 2), since := now t
                              cmd := some (c.slot, BitVec.ofNat 16 (ctagOf c.bytes)) }) } s

/-- The page writes of `d` from word `w`. DEDUCED, log 155. -/
def tagSplit (w : Nat) (d : Bytes) : List (Fin 32 × Nat × Bytes) :=
  (List.range ((w + d.length / 2 - 1) / 32 - w / 32 + 1)).map fun k =>
    let first := if k = 0 then w else (w / 32 + k) * 32
    let last := Nat.min (w + d.length / 2) ((w / 32 + k + 1) * 32)
    (wordPage first, 2 * (first % 32), slice d (2 * (first - w)) (2 * (last - first)))

/-- RADIO_TAG_WRITE (R224, R226): `bad`, the shadow mismatches twice: RETRY, the old content stands; `read`, a reader's
Read falls in during the write, whose step 3 waits for that Read's reply. DEDUCED, log 155. -/
def doRadioTagWrite (read bad : Bool) (s : State) : State :=
  serve
    { opcode := 0x0603
      len := fun b => decide (10 ≤ b.length) && decide (b.length ≤ 248) &&
        (leAt b 6 2 == 0 || decide (120 < leAt b 6 2) || b.length == 8 + 2 * leAt b 6 2)
      bad := fun _ b => leAt b 6 2 == 0 || decide (120 < leAt b 6 2) || decide (1024 < leAt b 4 2 + leAt b 6 2)
      run := fun c t =>
        let w := leAt c.bytes 4 2
        let n := leAt c.bytes 6 2
        let d := c.bytes.drop 8
        let a : TagAccess :=
          { writes := tagSplit w d, since := now t, bad := bad, cmd := some (c.slot, BitVec.ofNat 16 (ctagOf c.bytes)) }
        if !((List.range n).all fun i => regionOf (w + i) == 0 || regionOf (w + i) == 4) then .now .storeProtected [] t
        else if read && !bad && !t.tag.readerHold then
          let t1 := tagBegin (tagServe t) a []
          .later { t1 with tag := { t1.tag with readerHold := true } }
        else .later (tagAccess t a) } s

/-- One pair of RADIO_COEX. DEDUCED, log 155. -/
def coexBytes (s : State) (p : Fin 2) : Bytes :=
  let x := s.tn.coex[p]
  [byte (b2n x.enabled), byte (b2n x.failOpen), byte (b2n x.gnt), 0] ++
    leBytes 4 (if p = 0 then s.tn.nCoex0 else s.cel.nCoex - s.tn.nCoex0)

/-- RADIO_COEX. DEDUCED, log 155. -/
def doRadioCoex (s : State) : State :=
  serve { opcode := 0x0604, len := lenIs 4, run := fun _ t => .now .ok (coexBytes t 0 ++ coexBytes t 1) t } s

/-! ### The commands of this file -/

/-- ST_CREATE (R316). -/
def execStCreate (s : State) : Host.Outcome State Fault Refusal :=
  done s (doStCreate s)

/-- ST_DELETE (R316). -/
def execStDelete (s : State) : Host.Outcome State Fault Refusal :=
  done s (doStDelete s)

/-- ST_OPEN (R317). -/
def execStOpen (s : State) : Host.Outcome State Fault Refusal :=
  done s (doStOpen s)

/-- ST_CLOSE (R317). -/
def execStClose (s : State) : Host.Outcome State Fault Refusal :=
  done s (doStClose s)

/-- ST_READ (R318). -/
def execStRead (s : State) : Host.Outcome State Fault Refusal :=
  done s (doStRead s)

/-- ST_WRITE (R318). -/
def execStWrite (s : State) : Host.Outcome State Fault Refusal :=
  done s (doStWrite s)

/-- ST_COMMIT (R318). -/
def execStCommit (bad : Bool) (s : State) : Host.Outcome State Fault Refusal :=
  done s (doStCommit bad s)

/-- ST_DISCARD (R318). -/
def execStDiscard (s : State) : Host.Outcome State Fault Refusal :=
  done s (doStDiscard s)

/-- ST_PASSWORD (R317). -/
def execStPassword (s : State) : Host.Outcome State Fault Refusal :=
  done s (doStPassword s)

/-- LW_READ (R323). -/
def execLwRead (s : State) : Host.Outcome State Fault Refusal :=
  done s (doLwRead s)

/-- LW_WRITE (R323). -/
def execLwWrite (s : State) : Host.Outcome State Fault Refusal :=
  done s (doLwWrite s)

/-- LEDGER_READ (R331). -/
def execLedgerRead (s : State) : Host.Outcome State Fault Refusal :=
  done s (doLedgerRead s)

/-- LEDGER_ACK (R329). -/
def execLedgerAck (s : State) : Host.Outcome State Fault Refusal :=
  done s (doLedgerAck s)

/-- LEDGER_STATUS (R383). -/
def execLedgerStatus (s : State) : Host.Outcome State Fault Refusal :=
  done s (doLedgerStatus s)

/-- RADIO_HF_LINGER (R206). -/
def execRadioHfLinger (s : State) : Host.Outcome State Fault Refusal :=
  done s (doRadioHfLinger s)

/-- RADIO_TAG_READ (R226). -/
def execRadioTagRead (s : State) : Host.Outcome State Fault Refusal :=
  done s (doRadioTagRead s)

/-- RADIO_TAG_WRITE (R226). -/
def execRadioTagWrite (read : Bool) (bad : Bool) (s : State) : Host.Outcome State Fault Refusal :=
  done s (doRadioTagWrite read bad s)

/-- RADIO_COEX (R383). -/
def execRadioCoex (s : State) : Host.Outcome State Fault Refusal :=
  done s (doRadioCoex s)

end Sys2Proof.Machine
end

