-- ==== Sys2Proof/Machine/Update.lean ====
section
/-! DEFINITION. The update and configuration commands of the host (R390 to R394, R437 to R442, and the table of group 0x07). -/

namespace Sys2Proof.Machine

open Sys2Proof

/-! ### Staging (R390, R391) -/

/-- AREA out of range, or a reserved byte set. -/
def areaBad (b : Bytes) : Bool := decide (2 < byteAt b 4) || !allZero (slice b 5 3)

/-- STAGE_OPEN: the area is zeroed; area 0 only while no image is on trial or waits to be (R442). -/
def doStageOpen (s : State) : State :=
  serve
    { opcode := 0x0701, len := lenIs 12, res := .staging
      bad := fun _ b => areaBad b || decide (leAt b 8 4 < 174) || decide (areaMax (byteAt b 4) + 173 < leAt b 8 4)
      run := fun c t =>
        let a := byteAt c.bytes 4
        if a = 0 && t.boot.record.trialSlot.isSome then .now .wrongState [] t
        else .long {} (setArea t a { opened := true, total := leAt c.bytes 8 4 }) } s

/-- The first 16 bytes received. -/
def areaHeader (x : StageArea) : Bytes := memReadBytes x.data 0 16

/-- STAGE_WRITE: bytes in order; a header fault shows once 16 bytes have arrived and aborts the staging.
UNVERIFIED, log 157. -/
def doStageWrite (s : State) : State :=
  serve
    { opcode := 0x0702, len := fun b => decide (12 ≤ b.length) && decide (b.length ≤ 252), res := .staging
      bad := fun _ b => areaBad b
      run := fun c t =>
        let a := byteAt c.bytes 4
        let d := c.bytes.drop 12
        let x := areaOf t a
        if !x.opened then .now .wrongState [] t
        else if leAt c.bytes 8 4 ≠ x.received ∨ x.total < x.received + d.length then .now .paramRange [] t
        else
          let y := { x with
            received := x.received + d.length, data := memWriteBytes x.data x.received d, unverified := x.unverified || !d.isEmpty }
          if decide (16 ≤ y.received) && !headerOk t a y.total (areaHeader y) then .now .imageInvalid [] (zeroArea t a)
          else .long {} (if d.isEmpty then t else setArea t a y) } s

/-- RESULT of STAGE_VERIFY with IMAGE_INVALID. UNVERIFIED, log 157. -/
def faultResult (off reason : Nat) : Bytes := leBytes 4 off ++ [byte reason, 0, 0, 0]

/-- R391: header, signature, tag, content; every failure zeroes the area. The programming of a verified image begins.
DESIGN CHOICE, log 14. UNVERIFIED, log 157. -/
def verifyArea (s : State) (a : Nat) : Status × Bytes × State :=
  let x := areaOf s a
  let b := memReadBytes x.data 0 x.total
  if !headerOk s a x.total (b.take 16) then (.imageInvalid, faultResult 0 1, zeroArea s a)
  else if !transferSigned s a b then (.authFail, [], zeroArea s a)
  else match transferOpen s b with
    | none => (.authFail, [], zeroArea s a)
    | some pt =>
      match contentOf s a pt with
      | .invalid off reason => (.imageInvalid, faultResult off reason, zeroArea s a)
      | .denied => (.policyDenied, [], zeroArea s a)
      | .good =>
        let s1 := setArea s a { x with verified := true, unverified := false, body := pt }
        (.ok, [], if a = 0 then programBegin s1 pt else s1)

/-- STAGE_VERIFY. -/
def doStageVerify (s : State) : State :=
  serve
    { opcode := 0x0703, len := lenIs 8, res := .staging, bad := fun _ b => areaBad b
      run := fun c t =>
        let a := byteAt c.bytes 4
        let x := areaOf t a
        if !x.opened || decide (x.received < x.total) then .now .wrongState [] t
        else if x.verified then .long {} t
        else
          let r := verifyArea t a
          .long { status := r.1, result := r.2.1, work := if a = 0 && r.1 = .ok then .program else .done } r.2.2 } s

/-- STAGE_ABORT. -/
def doStageAbort (s : State) : State :=
  serve
    { opcode := 0x0704, len := lenIs 8, bad := fun _ b => areaBad b
      run := fun c t => .now .ok [] (zeroArea t (byteAt c.bytes 4)) } s

/-! ### CFG_LOAD (R393) -/

/-- The CFG partition's SRAM as a bundle leaves it. -/
def cfgWrite (s : State) (b : Bytes) : State :=
  { s with orr := { s.orr with pages := cfgPages.zipIdx.foldl (fun v x =>
      vmod v x.1 fun g => { g with shadow := memWriteBytes [] 0 (slice b (256 * x.2) 256) }) s.orr.pages } }

/-- Steps 1 and 2: six transactions of eight pages, then SYS with BUNDLE_SEQ and the digest. DEDUCED, log 160. -/
def cfgStore (s : State) (b : Bytes) : State :=
  let s1 := (List.range 6).foldl (fun t k => (transaction t (slice8 k) none).1) (cfgWrite s b)
  commitSync { s1 with orr := { s1.orr with sys := { s1.orr.sys with
    bundleSeq := BitVec.ofNat 32 (leAt b 8 4), digest := Config.sha256 b } } } pageSys
where
  slice8 (k : Nat) : List (Fin 256) := (cfgPages.drop (8 * k)).take 8

/-- A sweep requested for every populated channel whose population changed. DEDUCED, log 160. -/
def sweepChanged (s : State) (old : BitVec 12) : State :=
  let f (c : Fin 12) : LfChannel :=
    if bitAt s.vert.pop.toNat c.val && !bitAt old.toNat c.val then { s.vert.ch[c] with sweepReq := true } else s.vert.ch[c]
  let chs := Vector.ofFn f
  { s with vert := { s.vert with ch := chs } }

/-- Steps 3 and 4: programs and registers, PRES_PROFILE back to the bundle's values, sweeps. DEDUCED, log 160. -/
def cfgApply (s : State) (b : Bundle) (temp : Int) : State :=
  let s1 := sweepChanged (loadBundle s b true temp) s.vert.pop
  [calUwb, calBand, calProfile].foldl markDirty (nextProfiles { s1 with
    orr := { s1.orr with profile := none }
    boot := { s1.boot with noBundle := false } })

/-- CFG_LOAD; `temp`: die temperature at which the UHF band cache is filled (R189). The bundle that is loaded already changes
nothing. DEDUCED, log 160. -/
def doCfgLoad (temp : Int) (s : State) : State :=
  serve
    { opcode := 0x0705, len := lenIs 4, res := .staging, barred := fun t => !t.cmds.area2.verified
      run := fun _ t =>
        if approachRuns t || sessionOpen t then .now .busy [] t
        else
          let b := t.cmds.area2.body
          let t1 := zeroArea t 2
          let same := Config.sha256 b == t.orr.sys.digest && leAt b 8 4 == t.orr.sys.bundleSeq.toNat && t.cmds.bundle.isSome
          let t2 := if same then t1 else match parseBundle b with
            | some x => cfgApply (cfgStore t1 b) x temp
            | none => t1
          .long { committed := true, result := leBytes 4 (leAt b 8 4) } t2 } s

/-! ### Activation and confirmation (R440) -/

/-- DETAIL of an ACTIVATED or CONFIRMED record: slot, ARB, digest prefix. -/
def activeDetail (s : State) (n : Fin 2) : Bytes :=
  let x := imageAt s (imageIx n)
  [byte n.val] ++ leBytes 4 x.arb ++ x.digest.take 8

/-- The slot last programmed from area 0: it stands valid, neither active nor failed. -/
def stagedSlot (s : State) : Fin 2 := match s.boot.record.trialSlot with
  | some n => n
  | none => targetSlot s

/-- The boot record of an activation, and its journal record; a commit that fails leaves the record as it was (R300). A deferred
activation leaves area 0 verified, so that another can replace it (R442); the start that it brings about zeroes the area.
DESIGN CHOICE, log 129. DEDUCED, log 161. -/
def activate (s : State) (pend : Bool) : State × Bool :=
  let n := stagedSlot s
  let r := bootTry s { (setSlotState s.boot.record n .trial) with
    trialSlot := some n, trialFails := 0, trialPend := false, actPend := pend }
  if r.2 then (journalAdd r.1 16 11 (statusCode .ok) 0 (activeDetail r.1 n), true)
  else ({ r.1 with boot := { r.1.boot with record := s.boot.record } }, false)

/-- WHEN and the reserved bytes of UPD_ACTIVATE. DEDUCED, log 143. -/
def whenBad (b : Bytes) : Bool := decide (1 < byteAt b 4) || !allZero (slice b 5 3)

/-- UPD_ACTIVATE with WHEN 0, and the refusal of an undefined WHEN. DEDUCED, log 161. -/
def doUpdActivateNow (s : State) : State :=
  serveIf
    { opcode := 0x0706, len := lenIs 8, res := .staging, barred := fun t => !t.cmds.area0.verified, bad := fun _ b => whenBad b
      run := fun _ t =>
        if approachRuns t || sessionOpen t then .now .busy [] t
        else
          let x := activate t false
          if !x.2 then .now .retry [] x.1
          else
            let t1 := zeroArea x.1 0
            .now .ok [] { t1 with cmds := { t1.cmds with after := .deviceRestart } } } (fun b => byteAt b 4 != 1) s

/-- UPD_ACTIVATE with WHEN 1: the next entry into Umber, Amber or Jet becomes a cold start. DEDUCED, log 161. -/
def doUpdActivateDeferred (s : State) : State :=
  serveIf
    { opcode := 0x0706, len := lenIs 8, res := .staging, barred := fun t => !t.cmds.area0.verified, bad := fun _ b => whenBad b
      run := fun _ t =>
        let x := activate t true
        .now (if x.2 then .ok else .retry) [] x.1 } (fun b => byteAt b 4 == 1) s

/-- UPD_CONFIRM: the trial image that reached S15 becomes the active one; the former active slot stays valid. A commit
that fails is answered RETRY (R300). -/
def doUpdConfirm (s : State) : State :=
  serve
    { opcode := 0x0707, len := lenIs 4, barred := fun t => !(onTrial t.boot && t.boot.step == 16)
      run := fun _ t => match t.boot.record.trialSlot with
        | none => .now .wrongState [] t
        | some n =>
          let r := setSlotState (setSlotState t.boot.record t.boot.record.active .valid) n .active
          let x := bootTry t { r with active := n, trialSlot := none, trialFails := 0, trialPend := false }
          if x.2 then .now .ok [] (journalAdd x.1 16 12 (statusCode .ok) 0 (activeDetail x.1 n))
          else .now .retry [] { x.1 with boot := { x.1.boot with record := t.boot.record } } } s

/-- One slot of UPD_STATUS. DEDUCED, log 161. -/
def slotStatus (x : ImageSlot) (st : ImageState) : Bytes :=
  [byte (imageStateCode st), 0] ++ x.ver ++ [0, 0, 0] ++ leBytes 4 x.arb ++ x.digest.take 8

/-- UPD_STATUS. DEDUCED, log 161. -/
def doUpdStatus (s : State) : State :=
  serve
    { opcode := 0x0708, len := lenIs 4
      run := fun _ t =>
        let r := t.boot.record
        .now .ok (slotStatus (imageAt t 0) r.stateA ++ slotStatus (imageAt t 1) r.stateB ++
          slotStatus (imageAt t 2) (if (imageAt t 2).present then .valid else .empty) ++ leBytes 4 t.boot.arbDevice) t } s

/-! ### The commands of this file -/

/-- STAGE_OPEN (R390). -/
def execStageOpen (s : State) : Host.Outcome State Fault Refusal :=
  done s (doStageOpen s)

/-- STAGE_WRITE (R391). -/
def execStageWrite (s : State) : Host.Outcome State Fault Refusal :=
  done s (doStageWrite s)

/-- STAGE_VERIFY (R391). -/
def execStageVerify (s : State) : Host.Outcome State Fault Refusal :=
  done s (doStageVerify s)

/-- STAGE_ABORT (R391). -/
def execStageAbort (s : State) : Host.Outcome State Fault Refusal :=
  done s (doStageAbort s)

/-- CFG_LOAD (R393). -/
def execCfgLoad (temp : Int) (s : State) : Host.Outcome State Fault Refusal :=
  done s (doCfgLoad temp s)

/-- UPD_ACTIVATE_NOW (R440). -/
def execUpdActivateNow (s : State) : Host.Outcome State Fault Refusal :=
  done s (doUpdActivateNow s)

/-- UPD_ACTIVATE_DEFERRED (R440). -/
def execUpdActivateDeferred (s : State) : Host.Outcome State Fault Refusal :=
  done s (doUpdActivateDeferred s)

/-- UPD_CONFIRM (R440). -/
def execUpdConfirm (s : State) : Host.Outcome State Fault Refusal :=
  done s (doUpdConfirm s)

/-- UPD_STATUS (R383). -/
def execUpdStatus (s : State) : Host.Outcome State Fault Refusal :=
  done s (doUpdStatus s)

end Sys2Proof.Machine
end

