-- ==== Sys2Proof/Machine/Dispatch.lean ====
section
/-! DEFINITION. Every command with its meaning. -/

namespace Sys2Proof.Machine

open Sys2Proof

def exec (i : Instr) (s : State) : Host.Outcome State Fault Refusal :=
  match i with
  | .arm n => Sys2Proof.Machine.execArm n s
  | .cancel n => Sys2Proof.Machine.execCancel n s
  | .cancelStop n => Sys2Proof.Machine.execCancelStop n s
  | .cancelAll => Sys2Proof.Machine.execCancelAll s
  | .launchPost n => Sys2Proof.Machine.execLaunchPost n s
  | .launchFire island => Sys2Proof.Machine.execLaunchFire island s
  | .schedulerEvent work => Sys2Proof.Machine.execSchedulerEvent work s
  | .launchComplete => Sys2Proof.Machine.execLaunchComplete s
  | .celLogNext => Sys2Proof.Machine.execCelLogNext s
  | .celTbLoRead => Sys2Proof.Machine.execCelTbLoRead s
  | .logLostRead => Sys2Proof.Machine.execLogLostRead s
  | .snapTrigger bankS groups => Sys2Proof.Machine.execSnapTrigger bankS groups s
  | .snapshotCapture bankS group => Sys2Proof.Machine.execSnapshotCapture bankS group s
  | .halt e => Sys2Proof.Machine.execHalt e s
  | .nop e => Sys2Proof.Machine.execNop e s
  | .waitTb e off => Sys2Proof.Machine.execWaitTb e off s
  | .waitTbRelease e => Sys2Proof.Machine.execWaitTbRelease e s
  | .loopStart e n stride x64 => Sys2Proof.Machine.execLoopStart e n stride x64 s
  | .loopEnd e => Sys2Proof.Machine.execLoopEnd e s
  | .vertSel slot ch => Sys2Proof.Machine.execVertSel slot ch s
  | .setAmp slot amp => Sys2Proof.Machine.execSetAmp slot amp s
  | .setPh slot ph => Sys2Proof.Machine.execSetPh slot ph s
  | .setPhBuf slot add b => Sys2Proof.Machine.execSetPhBuf slot add b s
  | .setFreq trim freq => Sys2Proof.Machine.execSetFreq trim freq s
  | .driveOn mask => Sys2Proof.Machine.execDriveOn mask s
  | .driveOff mask => Sys2Proof.Machine.execDriveOff mask s
  | .send mask n first => Sys2Proof.Machine.execSend mask n first s
  | .sendComplete => Sys2Proof.Machine.execSendComplete s
  | .measure mask rcd periods => Sys2Proof.Machine.execMeasure mask rcd periods s
  | .measureWindowEnd rcd i0 p0 i1 p1 i2 p2 => Sys2Proof.Machine.execMeasureWindowEnd rcd i0 p0 i1 p1 i2 p2 s
  | .lfBurstMeasured c phErr iMeas residual => Sys2Proof.Machine.execLfBurstMeasured c phErr iMeas residual s
  | .lfOvercurrentTrip c => Sys2Proof.Machine.execLfOvercurrentTrip c s
  | .dutyCapacityReached c => Sys2Proof.Machine.execDutyCapacityReached c s
  | .dutyHoldClear => Sys2Proof.Machine.execDutyHoldClear s
  | .lfOvertemp => Sys2Proof.Machine.execLfOvertemp s
  | .lfOvertempClear => Sys2Proof.Machine.execLfOvertempClear s
  | .lfTrackingStep c => Sys2Proof.Machine.execLfTrackingStep c s
  | .lfSweep c f k cur ph => Sys2Proof.Machine.execLfSweep c f k cur ph s
  | .lfSweepSpacingTimer c => Sys2Proof.Machine.execLfSweepSpacingTimer c s
  | .lfPopWrite v => Sys2Proof.Machine.execLfPopWrite v s
  | .tnSynth n => Sys2Proof.Machine.execTnSynth n s
  | .tnWaitLock t => Sys2Proof.Machine.execTnWaitLock t s
  | .tnWaitLockTimeout => Sys2Proof.Machine.execTnWaitLockTimeout s
  | .tnSynthLock => Sys2Proof.Machine.execTnSynthLock s
  | .tnLockLost => Sys2Proof.Machine.execTnLockLost s
  | .tnRxOn p => Sys2Proof.Machine.execTnRxOn p s
  | .tnRxOff => Sys2Proof.Machine.execTnRxOff s
  | .dcoc n => Sys2Proof.Machine.execDcoc n s
  | .tnRxFrame format idx r search => Sys2Proof.Machine.execTnRxFrame format idx r search s
  | .tnRxFrameEnd sync toneLevel toneTicks at_ medians rssi weak payload => Sys2Proof.Machine.execTnRxFrameEnd sync toneLevel toneTicks at_ medians rssi weak payload s
  | .rssi n idx r value => Sys2Proof.Machine.execRssi n idx r value s
  | .tnTxOn p step => Sys2Proof.Machine.execTnTxOn p step s
  | .tnTxFrame => Sys2Proof.Machine.execTnTxFrame s
  | .tnTxOff => Sys2Proof.Machine.execTnTxOff s
  | .pressTelegram off => Sys2Proof.Machine.execPressTelegram off s
  | .resyncCandidateExpiry ctx => Sys2Proof.Machine.execResyncCandidateExpiry ctx s
  | .macFailBlockExpiry ctx => Sys2Proof.Machine.execMacFailBlockExpiry ctx s
  | .utxGo v => Sys2Proof.Machine.execUtxGo v s
  | .utxStart => Sys2Proof.Machine.execUtxStart s
  | .utxDeadline => Sys2Proof.Machine.execUtxDeadline s
  | .utxFrameEnd => Sys2Proof.Machine.execUtxFrameEnd s
  | .amberSniff level ticks tones => Sys2Proof.Machine.execAmberSniff level ticks tones s
  | .sniffSearchEnd => Sys2Proof.Machine.execSniffSearchEnd s
  | .vcoTempCheck temp => Sys2Proof.Machine.execVcoTempCheck temp s
  | .coexGntChange pair level => Sys2Proof.Machine.execCoexGntChange pair level s
  | .azPhy n => Sys2Proof.Machine.execAzPhy n s
  | .azWaitLock t expired => Sys2Proof.Machine.execAzWaitLock t expired s
  | .azLockLost => Sys2Proof.Machine.execAzLockLost s
  | .azRxOn a b => Sys2Proof.Machine.execAzRxOn a b s
  | .azRxOff => Sys2Proof.Machine.execAzRxOff s
  | .azTxOn p back => Sys2Proof.Machine.execAzTxOn p back s
  | .azTxOff => Sys2Proof.Machine.execAzTxOff s
  | .azTxFrame final r lead => Sys2Proof.Machine.execAzTxFrame final r lead s
  | .azRxFrame report r search => Sys2Proof.Machine.execAzRxFrame report r search s
  | .azRxFrameEnd received firstPath phrOk nlos delay frac stsq rssi pdoa cfo payload => Sys2Proof.Machine.execAzRxFrameEnd received firstPath phrOk nlos delay frac stsq rssi pdoa cfo payload s
  | .azLoopback p q r => Sys2Proof.Machine.execAzLoopback p q r s
  | .azLoopbackEnd decoded nlos delay frac stsq rssi cfo amp dly => Sys2Proof.Machine.execAzLoopbackEnd decoded nlos delay frac stsq rssi cfo amp dly s
  | .azVswrTrip p => Sys2Proof.Machine.execAzVswrTrip p s
  | .stsKeyExpire => Sys2Proof.Machine.execStsKeyExpire s
  | .azKeyClr => Sys2Proof.Machine.execAzKeyClr s
  | .stsOrphanSignal => Sys2Proof.Machine.execStsOrphanSignal s
  | .trackingTimer => Sys2Proof.Machine.execTrackingTimer s
  | .startPathRetry => Sys2Proof.Machine.execStartPathRetry s
  | .startRequestExpiry => Sys2Proof.Machine.execStartRequestExpiry s
  | .entrySessionTimeout => Sys2Proof.Machine.execEntrySessionTimeout s
  | .startSessionTimeout => Sys2Proof.Machine.execStartSessionTimeout s
  | .failureAgeOut path => Sys2Proof.Machine.execFailureAgeOut path s
  | .lockoutExpiry path => Sys2Proof.Machine.execLockoutExpiry path s
  | .relayIgnoreExpiry ctx => Sys2Proof.Machine.execRelayIgnoreExpiry ctx s
  | .gqJobDispatch => Sys2Proof.Machine.execGqJobDispatch s
  | .gqJobComplete tag mismatch => Sys2Proof.Machine.execGqJobComplete tag mismatch s
  | .aeadSeal w => Sys2Proof.Machine.execAeadSeal w s
  | .aeadOpen w => Sys2Proof.Machine.execAeadOpen w s
  | .cmac w => Sys2Proof.Machine.execCmac w s
  | .cmacVerify w => Sys2Proof.Machine.execCmacVerify w s
  | .kdf w => Sys2Proof.Machine.execKdf w s
  | .nonce w => Sys2Proof.Machine.execNonce w s
  | .aqmosAlias w => Sys2Proof.Machine.execAqmosAlias w s
  | .aqmosVerify w => Sys2Proof.Machine.execAqmosVerify w s
  | .stsDerive w => Sys2Proof.Machine.execStsDerive w s
  | .hash w => Sys2Proof.Machine.execHash w s
  | .ecdsaSign w => Sys2Proof.Machine.execEcdsaSign w s
  | .ecdsaVerify w => Sys2Proof.Machine.execEcdsaVerify w s
  | .ecdh w => Sys2Proof.Machine.execEcdh w s
  | .random w => Sys2Proof.Machine.execRandom w s
  | .keyWrite privileged w => Sys2Proof.Machine.execKeyWrite privileged w s
  | .importBlob w => Sys2Proof.Machine.execImport w s
  | .invalidate w => Sys2Proof.Machine.execInvalidate w s
  | .orphanZeroise => Sys2Proof.Machine.execOrphanZeroise s
  | .tagLoad privileged w => Sys2Proof.Machine.execTagLoad privileged w s
  | .verdict w => Sys2Proof.Machine.execVerdict w s
  | .proofRecordExpire ctx => Sys2Proof.Machine.execProofRecordExpire ctx s
  | .gqFree tag => Sys2Proof.Machine.execGqFree tag s
  | .gqCancel tag => Sys2Proof.Machine.execGqCancel tag s
  | .gqDoneRead => Sys2Proof.Machine.execGqDoneRead s
  | .mismatchKat failA failB => Sys2Proof.Machine.execMismatchKat failA failB s
  | .knownAnswerTest failA failB => Sys2Proof.Machine.execKnownAnswerTest failA failB s
  | .remaskPass => Sys2Proof.Machine.execRemaskPass s
  | .trngHealthFail => Sys2Proof.Machine.execTrngHealthFail s
  | .trngRestartDone ok => Sys2Proof.Machine.execTrngRestartDone ok s
  | .drbgReseed => Sys2Proof.Machine.execDrbgReseed s
  | .tamperAlarm src o => Sys2Proof.Machine.execTamperAlarm src o s
  | .tamperClassERecovery => Sys2Proof.Machine.execTamperClassERecovery s
  | .provision => Sys2Proof.Machine.execProvision s
  | .field => Sys2Proof.Machine.execField s
  | .enterServicing => Sys2Proof.Machine.execEnterServicing s
  | .tamperAck live o => Sys2Proof.Machine.execTamperAck live o s
  | .lockoutEnd => Sys2Proof.Machine.execLockoutEnd s
  | .retire => Sys2Proof.Machine.execRetire s
  | .debugOpen => Sys2Proof.Machine.execDebugOpen s
  | .keyLoad => Sys2Proof.Machine.execKeyLoad s
  | .servicingEndTime => Sys2Proof.Machine.execServicingEndTime s
  | .challengeExpiry => Sys2Proof.Machine.execChallengeExpiry s
  | .credentialLockoutExpiry => Sys2Proof.Machine.execCredentialLockoutExpiry s
  | .lazyCommit p bad => Sys2Proof.Machine.execLazyCommit p bad s
  | .oldCopyErase p => Sys2Proof.Machine.execOldCopyErase p s
  | .ringReclaim ring => Sys2Proof.Machine.execRingReclaim ring s
  | .ledgerAppend signOk => Sys2Proof.Machine.execLedgerAppend signOk s
  | .checkpointSignTimeout => Sys2Proof.Machine.execCheckpointSignTimeout s
  | .ledgerSectorErase => Sys2Proof.Machine.execLedgerSectorErase s
  | .orLedgerAckWrite v => Sys2Proof.Machine.execOrLedgerAckWrite v s
  | .scrubUnit m group find => Sys2Proof.Machine.execScrubUnit m group find s
  | .lwWriteCycleEnd => Sys2Proof.Machine.execLwWriteCycleEnd s
  | .passwordIdleExpiry part => Sys2Proof.Machine.execPasswordIdleExpiry part s
  | .passwordBlockExpiry part => Sys2Proof.Machine.execPasswordBlockExpiry part s
  | .nativePartitionErase => Sys2Proof.Machine.execNativePartitionErase s
  | .tagSessionStart => Sys2Proof.Machine.execTagSessionStart s
  | .tagSelect target action bank pointer mask truncate => Sys2Proof.Machine.execTagSelect target action bank pointer mask truncate s
  | .tagQuery dr miller trext sel session target q => Sys2Proof.Machine.execTagQuery dr miller trext sel session target q s
  | .tagQueryAdjust session upDn => Sys2Proof.Machine.execTagQueryAdjust session upDn s
  | .tagQueryRep session => Sys2Proof.Machine.execTagQueryRep session s
  | .tagAck rn => Sys2Proof.Machine.execTagAck rn s
  | .tagNak => Sys2Proof.Machine.execTagNak s
  | .tagReqRn rn => Sys2Proof.Machine.execTagReqRn rn s
  | .tagRead handle bank word count sent => Sys2Proof.Machine.execTagRead handle bank word count sent s
  | .tagWrite handle bank word data energy bad sent => Sys2Proof.Machine.execTagWrite handle bank word data energy bad sent s
  | .tagLock handle mask action => Sys2Proof.Machine.execTagLock handle mask action s
  | .tagAuthenticate handle method keyId ok => Sys2Proof.Machine.execTagAuthenticate handle method keyId ok s
  | .tagUntraceable handle tid user => Sys2Proof.Machine.execTagUntraceable handle tid user s
  | .tagKill handle => Sys2Proof.Machine.execTagKill handle s
  | .tagUnsupportedCommand => Sys2Proof.Machine.execTagUnsupportedCommand s
  | .tagWaitTimeout => Sys2Proof.Machine.execTagWaitTimeout s
  | .hfFieldOn => Sys2Proof.Machine.execHfFieldOn s
  | .hfFieldOff => Sys2Proof.Machine.execHfFieldOff s
  | .hfGo rate => Sys2Proof.Machine.execHfGo rate s
  | .hfGoDone result data valid fdt => Sys2Proof.Machine.execHfGoDone result data valid fdt s
  | .hfLpcdStart => Sys2Proof.Machine.execHfLpcdStart s
  | .hfLpcdStop => Sys2Proof.Machine.execHfLpcdStop s
  | .hfPing amp ph => Sys2Proof.Machine.execHfPing amp ph s
  | .hfGuardExpiry => Sys2Proof.Machine.execHfGuardExpiry s
  | .hfFieldTimeout => Sys2Proof.Machine.execHfFieldTimeout s
  | .hfLingerExpiry => Sys2Proof.Machine.execHfLingerExpiry s
  | .verdictEntry => Sys2Proof.Machine.execVerdictEntry s
  | .verdictStart => Sys2Proof.Machine.execVerdictStart s
  | .vstate => Sys2Proof.Machine.execVstate s
  | .result => Sys2Proof.Machine.execResult s
  | .heartbeat toHost => Sys2Proof.Machine.execHeartbeat toHost s
  | .epoch toHost => Sys2Proof.Machine.execEpoch toHost s
  | .credit toHost => Sys2Proof.Machine.execCredit toHost s
  | .coexReqFrame => Sys2Proof.Machine.execCoexReqFrame s
  | .coexGntFrame => Sys2Proof.Machine.execCoexGntFrame s
  | .permitStop => Sys2Proof.Machine.execPermitStop s
  | .permitEnded => Sys2Proof.Machine.execPermitEnded s
  | .sleep byHost => Sys2Proof.Machine.execSleep byHost s
  | .retrain => Sys2Proof.Machine.execRetrain s
  | .ack toHost payload => Sys2Proof.Machine.execAck toHost payload s
  | .nak toHost payload => Sys2Proof.Machine.execNak toHost payload s
  | .bulkWrite toHost => Sys2Proof.Machine.execBulkWrite toHost s
  | .bulkRead => Sys2Proof.Machine.execBulkRead s
  | .bulkCompletion => Sys2Proof.Machine.execBulkCompletion s
  | .rcdResolve => Sys2Proof.Machine.execRcdResolve s
  | .ackTimeout toHost bulk => Sys2Proof.Machine.execAckTimeout toHost bulk s
  | .heartbeatPeriod host => Sys2Proof.Machine.execHeartbeatPeriod host s
  | .heartbeatLoss host => Sys2Proof.Machine.execHeartbeatLoss host s
  | .aliveStall => Sys2Proof.Machine.execAliveStall s
  | .epochPairTimer host => Sys2Proof.Machine.execEpochPairTimer host s
  | .lanesAligned => Sys2Proof.Machine.execLanesAligned s
  | .laneAlignmentLoss => Sys2Proof.Machine.execLaneAlignmentLoss s
  | .linkTrainTimeout => Sys2Proof.Machine.execLinkTrainTimeout s
  | .linkTrainStart => Sys2Proof.Machine.execLinkTrainStart s
  | .hWakePulse => Sys2Proof.Machine.execHWakePulse s
  | .permitBackstopTimeout => Sys2Proof.Machine.execPermitBackstopTimeout s
  | .rcdResolveDeadline => Sys2Proof.Machine.execRcdResolveDeadline s
  | .entryVerdictDiscard => Sys2Proof.Machine.execEntryVerdictDiscard s
  | .spiRead addr n => Sys2Proof.Machine.execSpiRead addr n s
  | .spiWrite addr data => Sys2Proof.Machine.execSpiWrite addr data s
  | .registerWrite block off v => Sys2Proof.Machine.execRegisterWrite block off v s
  | .bread addr count clocked => Sys2Proof.Machine.execBread addr count clocked s
  | .breadCompletionDiscard => Sys2Proof.Machine.execBreadCompletionDiscard s
  | .bwrite addr data => Sys2Proof.Machine.execBwrite addr data s
  | .csConflict => Sys2Proof.Machine.execCsConflict s
  | .wren => Sys2Proof.Machine.execWren s
  | .wrdi => Sys2Proof.Machine.execWrdi s
  | .rdsr => Sys2Proof.Machine.execRdsr s
  | .wrsr v => Sys2Proof.Machine.execWrsr v s
  | .legacyRead addr n => Sys2Proof.Machine.execLegacyRead addr n s
  | .legacyWrite addr data => Sys2Proof.Machine.execLegacyWrite addr data s
  | .mbDoorbell v => Sys2Proof.Machine.execMbDoorbell v s
  | .rxqPop => Sys2Proof.Machine.execRxqPop s
  | .wakeReq => Sys2Proof.Machine.execWakeReq s
  | .hostWakeCrossing o => Sys2Proof.Machine.execHostWakeCrossing o s
  | .vsReport v => Sys2Proof.Machine.execVsReport v s
  | .vsOdo v => Sys2Proof.Machine.execVsOdo v s
  | .vsCfgWrite v => Sys2Proof.Machine.execVsCfgWrite v s
  | .vsCfgLock => Sys2Proof.Machine.execVsCfgLock s
  | .vsTimeout => Sys2Proof.Machine.execVsTimeout s
  | .readbackFaultClear => Sys2Proof.Machine.execReadbackFaultClear s
  | .readbackFault => Sys2Proof.Machine.execReadbackFault s
  | .doorDebouncedChange d high => Sys2Proof.Machine.execDoorDebouncedChange d high s
  | .canErrlatRead n => Sys2Proof.Machine.execCanErrlatRead n s
  | .brAnomRead n => Sys2Proof.Machine.execBrAnomRead n s
  | .engineStatus data => Sys2Proof.Machine.execEngineStatus data s
  | .immoStatusPeriod onChange => Sys2Proof.Machine.execImmoStatusPeriod onChange s
  | .j1939Request data => Sys2Proof.Machine.execJ1939Request data s
  | .j1939CanxTimeout => Sys2Proof.Machine.execJ1939CanxTimeout s
  | .bamPacket => Sys2Proof.Machine.execBamPacket s
  | .j1939Cts n next => Sys2Proof.Machine.execJ1939Cts n next s
  | .canBusOff entered tec rcnt => Sys2Proof.Machine.execCanBusOff entered tec rcnt s
  | .sysInfo => Sys2Proof.Machine.execSysInfo s
  | .sysEcho => Sys2Proof.Machine.execSysEcho s
  | .sysTimeGet => Sys2Proof.Machine.execSysTimeGet s
  | .sysTimeSet => Sys2Proof.Machine.execSysTimeSet s
  | .sysRestartSteward => Sys2Proof.Machine.execSysRestartSteward s
  | .sysRestartDevice => Sys2Proof.Machine.execSysRestartDevice s
  | .sysPower => Sys2Proof.Machine.execSysPower s
  | .sysEvtMask => Sys2Proof.Machine.execSysEvtMask s
  | .presProfile => Sys2Proof.Machine.execPresProfile s
  | .presWake => Sys2Proof.Machine.execPresWake s
  | .presStart => Sys2Proof.Machine.execPresStart s
  | .presDoor => Sys2Proof.Machine.execPresDoor s
  | .presTracked => Sys2Proof.Machine.execPresTracked s
  | .rosterMode => Sys2Proof.Machine.execRosterMode s
  | .rosterAdd => Sys2Proof.Machine.execRosterAdd s
  | .rosterAddHf => Sys2Proof.Machine.execRosterAddHf s
  | .rosterRevoke => Sys2Proof.Machine.execRosterRevoke s
  | .rosterLoad => Sys2Proof.Machine.execRosterLoad s
  | .rosterList => Sys2Proof.Machine.execRosterList s
  | .keyImport => Sys2Proof.Machine.execKeyImport s
  | .keyTagLoad => Sys2Proof.Machine.execKeyTagLoad s
  | .keyImportPub => Sys2Proof.Machine.execKeyImportPub s
  | .keyAttr => Sys2Proof.Machine.execKeyAttr s
  | .keyAttest => Sys2Proof.Machine.execKeyAttest s
  | .keyEndorse => Sys2Proof.Machine.execKeyEndorse s
  | .stCreate => Sys2Proof.Machine.execStCreate s
  | .stDelete => Sys2Proof.Machine.execStDelete s
  | .stOpen => Sys2Proof.Machine.execStOpen s
  | .stClose => Sys2Proof.Machine.execStClose s
  | .stRead => Sys2Proof.Machine.execStRead s
  | .stWrite => Sys2Proof.Machine.execStWrite s
  | .stCommit bad => Sys2Proof.Machine.execStCommit bad s
  | .stDiscard => Sys2Proof.Machine.execStDiscard s
  | .stPassword => Sys2Proof.Machine.execStPassword s
  | .lwRead => Sys2Proof.Machine.execLwRead s
  | .lwWrite => Sys2Proof.Machine.execLwWrite s
  | .ledgerRead => Sys2Proof.Machine.execLedgerRead s
  | .ledgerAck => Sys2Proof.Machine.execLedgerAck s
  | .ledgerStatus => Sys2Proof.Machine.execLedgerStatus s
  | .radioHfLinger => Sys2Proof.Machine.execRadioHfLinger s
  | .radioTagRead => Sys2Proof.Machine.execRadioTagRead s
  | .radioTagWrite read bad => Sys2Proof.Machine.execRadioTagWrite read bad s
  | .radioCoex => Sys2Proof.Machine.execRadioCoex s
  | .stageOpen => Sys2Proof.Machine.execStageOpen s
  | .stageWrite => Sys2Proof.Machine.execStageWrite s
  | .stageVerify => Sys2Proof.Machine.execStageVerify s
  | .stageAbort => Sys2Proof.Machine.execStageAbort s
  | .cfgLoad temp => Sys2Proof.Machine.execCfgLoad temp s
  | .updActivateNow => Sys2Proof.Machine.execUpdActivateNow s
  | .updActivateDeferred => Sys2Proof.Machine.execUpdActivateDeferred s
  | .updConfirm => Sys2Proof.Machine.execUpdConfirm s
  | .updStatus => Sys2Proof.Machine.execUpdStatus s
  | .lcChallenge => Sys2Proof.Machine.execLcChallenge s
  | .lcServiceExit => Sys2Proof.Machine.execLcServiceExit s
  | .lcStatus => Sys2Proof.Machine.execLcStatus s
  | .diagLfSweep => Sys2Proof.Machine.execDiagLfSweep s
  | .diagUwbTest => Sys2Proof.Machine.execDiagUwbTest s
  | .diagJournal => Sys2Proof.Machine.execDiagJournal s
  | .diagTelemetry => Sys2Proof.Machine.execDiagTelemetry s
  | .diagFieldCal => Sys2Proof.Machine.execDiagFieldCal s
  | .diagProbe ok sig cur a b => Sys2Proof.Machine.execDiagProbe ok sig cur a b s
  | .diagUhfCarrier => Sys2Proof.Machine.execDiagUhfCarrier s
  | .diagUhfReceive bits errors => Sys2Proof.Machine.execDiagUhfReceive bits errors s
  | .undefinedOpcode => Sys2Proof.Machine.execUndefinedOpcode s
  | .longCommandComplete slot ports => Sys2Proof.Machine.execLongCommandComplete slot ports s
  | .evtPost => Sys2Proof.Machine.execEvtPost s
  | .touchWindow cw => Sys2Proof.Machine.execTouchWindow cw s
  | .touchStuck c cw => Sys2Proof.Machine.execTouchStuck c cw s
  | .vbatRunReached o => Sys2Proof.Machine.execVbatRunReached o s
  | .vbatLow vbat => Sys2Proof.Machine.execVbatLow vbat s
  | .vbatOvp vbat => Sys2Proof.Machine.execVbatOvp vbat s
  | .vbatTxRestored vbat o => Sys2Proof.Machine.execVbatTxRestored vbat o s
  | .vbatBelowAsh vhold => Sys2Proof.Machine.execVbatBelowAsh vhold s
  | .ashComplete commits => Sys2Proof.Machine.execAshComplete commits s
  | .sableSupplyLoss => Sys2Proof.Machine.execSableSupplyLoss s
  | .vlfUndervolt below => Sys2Proof.Machine.execVlfUndervolt below s
  | .pwrCtrlGo v => Sys2Proof.Machine.execPwrCtrlGo v s
  | .idleRule => Sys2Proof.Machine.execIdleRule s
  | .clockJudgeWindow src count => Sys2Proof.Machine.execClockJudgeWindow src count s
  | .pllLockAcquired pll => Sys2Proof.Machine.execPllLockAcquired pll s
  | .islandReady k => Sys2Proof.Machine.execIslandReady k s
  | .sourceGiveup o => Sys2Proof.Machine.execSourceGiveup o s
  | .jetRetryTimer o => Sys2Proof.Machine.execJetRetryTimer o s
  | .xoRetryTimer => Sys2Proof.Machine.execXoRetryTimer s
  | .xoMissedEdge => Sys2Proof.Machine.execXoMissedEdge s
  | .pllLockLoss pll => Sys2Proof.Machine.execPllLockLoss pll s
  | .rtcCrystalStop => Sys2Proof.Machine.execRtcCrystalStop s
  | .hostCrystalFail => Sys2Proof.Machine.execHostCrystalFail s
  | .clkSelWrite v => Sys2Proof.Machine.execClkSelWrite v s
  | .clkGateWrite v => Sys2Proof.Machine.execClkGateWrite v s
  | .clkDivWrite v => Sys2Proof.Machine.execClkDivWrite v s
  | .dividerRampStep gules => Sys2Proof.Machine.execDividerRampStep gules s
  | .busCrossingTimeout write => Sys2Proof.Machine.execBusCrossingTimeout write s
  | .powerOnReset o => Sys2Proof.Machine.execPowerOnReset o s
  | .stewardAliveTimeout o => Sys2Proof.Machine.execStewardAliveTimeout o s
  | .hostWaitTimeout => Sys2Proof.Machine.execHostWaitTimeout s
  | .bootWatchdog => Sys2Proof.Machine.execBootWatchdog s
  | .skippedStepRerun o => Sys2Proof.Machine.execSkippedStepRerun o s
  | .uwbDelayTracking a b temp => Sys2Proof.Machine.execUwbDelayTracking a b temp s
  | .uwbPortClassifyRun a b => Sys2Proof.Machine.execUwbPortClassifyRun a b s
  | .rtcDriftWindow coeff => Sys2Proof.Machine.execRtcDriftWindow coeff s
  | .telemetryFold => Sys2Proof.Machine.execTelemetryFold s
  | .stewardWatchdog => Sys2Proof.Machine.execStewardWatchdog s
  | .stewardCoreFault => Sys2Proof.Machine.execStewardCoreFault s
  | .hostDieReset => Sys2Proof.Machine.execHostDieReset s
  | .permitReadbackSample level => Sys2Proof.Machine.execPermitReadbackSample level s
  | .frameCheckFail toHost bulk noise => Sys2Proof.Machine.execFrameCheckFail toHost bulk noise s
  | .linkRetryTimer => Sys2Proof.Machine.execLinkRetryTimer s
  | .j1939TpTimeout => Sys2Proof.Machine.execJ1939TpTimeout s
  | .tagFieldCollapse w point => Sys2Proof.Machine.execTagFieldCollapse w point s
  | .azSynthLock => Sys2Proof.Machine.execAzSynthLock s

end Sys2Proof.Machine
end

