-- ==== Sys2Proof/Machine/Step.lean ====
section
/-! DEFINITION. One step: the command at the front of the queue, or one tick of the block's own clock. -/

namespace Sys2Proof.Machine

open Sys2Proof

/-- The command at the front runs with the queue's rest; on an empty queue one tick of 38.4 MHz passes (R30).
DESIGN CHOICE, log 1, 2. -/
def step (s : State) : Host.Outcome State Fault Refusal :=
  match s.pending with
  | [] => done s (elapse s 1)
  | c :: rest => exec c { s with pending := rest }

/-- The command that a word spells put at the front of the queue; no row of the table gives bits, so the state stays.
DESIGN CHOICE, log 1. -/
def State.withFetchWord (s : State) (nbits w : Nat) : State :=
  match decodeTableWord nbits w with
  | some c => { s with pending := c :: s.pending }
  | none => s

end Sys2Proof.Machine
end

