-- ==== Sys2Proof/Safety.lean ====
section
/-! DEFINITION. The terms in which claims about the block are made: a command completes, the rest of the block stands still,
OTP only ever goes forward, an addressed memory is in its canonical form, and a safe run. -/

namespace Sys2Proof.Machine

open Sys2Proof

/-- A command completes in `s` and leaves a state of which `P` holds. -/
def Completes (c : Instr) (s : State) (P : State → Prop) : Prop := ∃ t, exec c s = .next t ∧ P t

/-- What an operation of CEL_CMD written in `s` leaves: it is in progress, DONE = 0, for a free number of ticks of that write,
at most `top` (R62). -/
def inProgress (top : Nat) (s t : State) : State :=
  { t with freeCtr := t.freeCtr + 1, cel := { t.cel with cmdDoneAt := now s + Config.freeNat t.freeCtr % (top + 1) } }

/-- A job accepted in Gules's queue (R244, R265, R267): its tag is taken, the generations of its slots, the privileged-mode bit and
Deep are noted, and a use of the slot it names is counted; the job that takes the last use carries that mark (R249). -/
def accepted (s : State) (op : JobOp) (w : JobWords) (privileged : Bool) : State :=
  countUse (setJob { s with gq := { s.gq with privileged := privileged, order := s.gq.order + 1 } } w.tag
    (some { op := op, w := w, order := s.gq.order, privileged := privileged, deep := s.pres.deep
            gen := (vgetN s.keys.slots w.slot.toNat {}).gen, gen2 := (vgetN s.keys.slots w.slot2.toNat {}).gen
            phase := if w.hold then .held else .ready
            lastUse := takesLast s op w })) op w

/-- A job may be submitted: its tag is free and the checks at submission pass. -/
abbrev mayAccept (s : State) (op : JobOp) (w : JobWords) (privileged : Bool) : Prop :=
  jobAt s w.tag = none ∧ submitRefusal { s with gq := { s.gq with privileged := privileged } } op w privileged = none

/-- The command record `c` is the next that the steward serves, its opcode is `op`, and neither its length nor a state rule
stops it (R383, R389). -/
abbrev nextServed (s : State) (op : Nat) (c : CmdRec) (rest : List CmdRec) : Prop :=
  servesNow s = true ∧ s.cmds.queue = c :: rest ∧ opcodeOf c.bytes = op ∧ 4 ≤ c.bytes.length ∧ stateBars s op c.bytes = false

/-- The state once the command at the head of the queue has been taken. -/
def taken (s : State) (rest : List CmdRec) : State := { s with cmds := { s.cmds with queue := rest } }

/-- No long command that runs holds the resource (R384). -/
def unheld (s : State) (x : Resource) : Bool := !(s.cmds.longs.any fun l => l.res == x)

/-- `c` answered at once with a status and a RESULT, and what follows a posted answer (R382, R385). -/
def replied (s : State) (c : CmdRec) (st : Status) (result : Bytes) : State := afterAnswer (passEnd (answerCmd s c st result))

/-- `c` accepted as a long command, which is answered when it ends (R384). -/
def underway (s : State) (c : CmdRec) (x : Resource) (a : LongAns) : State :=
  afterAnswer (passEnd { s with cmds := { s.cmds with longs := s.cmds.longs ++
    [{ slot := c.slot, opcode := BitVec.ofNat 16 (opcodeOf c.bytes), ctag := BitVec.ofNat 16 (ctagOf c.bytes), res := x
       work := a.work, status := a.status, result := a.result, bulk := a.bulk, committed := a.committed }] } })

/-- The engine whose program instruction, or whose end of an instruction, a command is (R51, R83, R122, R146); none for every
other command. -/
def instrEngine : Instr → Option SeqId
  | .halt e => some e
  | .nop e => some e
  | .waitTb e _ => some e
  | .waitTbRelease e => some e
  | .loopStart e _ _ _ => some e
  | .loopEnd e => some e
  | .vertSel _ _ => some .vert
  | .setAmp _ _ => some .vert
  | .setPh _ _ => some .vert
  | .setPhBuf _ _ _ => some .vert
  | .setFreq _ _ => some .vert
  | .driveOn _ => some .vert
  | .driveOff _ => some .vert
  | .send _ _ _ => some .vert
  | .sendComplete => some .vert
  | .measure _ _ _ => some .vert
  | .measureWindowEnd _ _ _ _ _ _ _ => some .vert
  | .tnSynth _ => some .tenne
  | .tnWaitLock _ => some .tenne
  | .tnWaitLockTimeout => some .tenne
  | .tnSynthLock => some .tenne
  | .tnRxOn _ => some .tenne
  | .tnRxOff => some .tenne
  | .dcoc _ => some .tenne
  | .tnRxFrame _ _ _ _ => some .tenne
  | .tnRxFrameEnd _ _ _ _ _ _ _ _ => some .tenne
  | .rssi _ _ _ _ => some .tenne
  | .tnTxOn _ _ => some .tenne
  | .tnTxFrame => some .tenne
  | .tnTxOff => some .tenne
  | .azPhy _ => some .azure
  | .azWaitLock _ _ => some .azure
  | .azSynthLock => some .azure
  | .azRxOn _ _ => some .azure
  | .azRxOff => some .azure
  | .azTxOn _ _ => some .azure
  | .azTxOff => some .azure
  | .azTxFrame _ _ _ => some .azure
  | .azRxFrame _ _ _ => some .azure
  | .azRxFrameEnd _ _ _ _ _ _ _ _ _ _ _ => some .azure
  | .azLoopback _ _ _ => some .azure
  | _ => none

/-- The engine whose program memory holds an instruction, the instruction its words encode and their count: the rows of
`instrEngine` but for those that are the end of an operation that an instruction began (R51, R83, R121, R146). -/
def programOp : Instr → Option (SeqId × ProgOp × Nat)
  | .halt e => some (e, .halt, 1)
  | .nop e => some (e, .nop, 1)
  | .waitTb e off => some (e, .waitTb off.toNat, 2)
  | .loopStart e n stride x64 => some (e, .loopStart n.toNat (strideTicks stride x64), 2)
  | .loopEnd e => some (e, .loopEnd, 1)
  | .vertSel slot ch => some (.vert, .sel slot.val (selCode ch), 1)
  | .setAmp slot amp => some (.vert, .setAmp slot.val amp.toNat, 1)
  | .setPh slot ph => some (.vert, .setPh slot.val ph.toNat, 1)
  | .setPhBuf slot add b => some (.vert, .setPhBuf slot.val add b.val, 1)
  | .setFreq trim freq => some (.vert, .setFreq trim freq.toNat, 2)
  | .driveOn mask => some (.vert, .driveOn mask.toNat, 1)
  | .driveOff mask => some (.vert, .driveOff mask.toNat, 1)
  | .send mask n first => some (.vert, .send mask.toNat n.toNat first.toNat, 2)
  | .measure mask rcd periods => some (.vert, .measure mask.toNat rcd.val periods.toNat, 1)
  | .tnSynth n => some (.tenne, .tnSynth n.val, 1)
  | .tnWaitLock t => some (.tenne, .tnWaitLock t.toNat, 1)
  | .tnRxOn p => some (.tenne, .tnRxOn p.val, 1)
  | .tnRxOff => some (.tenne, .tnRxOff, 1)
  | .dcoc n => some (.tenne, .dcoc n.toNat, 1)
  | .tnRxFrame format idx r search => some (.tenne, .tnRxFrame format.val idx r.val search.toNat, 2)
  | .rssi n idx r _ => some (.tenne, .rssi n.toNat idx r.val, 1)
  | .tnTxOn p st => some (.tenne, .tnTxOn p.val st.toNat, 1)
  | .tnTxFrame => some (.tenne, .tnTxFrame, 1)
  | .tnTxOff => some (.tenne, .tnTxOff, 1)
  | .azPhy n => some (.azure, .azPhy n.val, 1)
  | .azWaitLock t expired => if expired then none else some (.azure, .azWaitLock t.toNat, 1)
  | .azRxOn a b => some (.azure, .azRxOn a.val (portCode b), 1)
  | .azRxOff => some (.azure, .azRxOff, 1)
  | .azTxOn p back => some (.azure, .azTxOn p.val back.toNat, 1)
  | .azTxOff => some (.azure, .azTxOff, 1)
  | .azTxFrame final r lead => some (.azure, .azTxFrame final r.val lead.toNat, 2)
  | .azRxFrame report r search => some (.azure, .azRxFrame report r.val search.toNat, 2)
  | .azLoopback p q r => some (.azure, .loopback p.val q.val r.val, 1)
  | _ => none

/-- The drivers, or the radios and the synthesiser, of an engine are off (R52, R123, R148). -/
def engineOff (s : State) : SeqId → Prop
  | .vert => s.vert.send = none ∧ ∀ i : Fin 3, (s.vert.slot[i]).driven = false
  | .azure => s.az.rxA = none ∧ s.az.rxB = none ∧ s.az.txPort = none ∧ s.az.synthOn = false
  | .tenne => s.tn.rxOn = false ∧ s.tn.txOn = false ∧ s.tn.synth.on = false

/-- The opcode of each command of the Keafeuf command set that one row of the table serves alone (R386 to R398); none for every
other row. -/
def commandOpcode : Instr → Option Nat
  | .sysInfo => some 0x0101
  | .sysEcho => some 0x0102
  | .sysTimeGet => some 0x0103
  | .sysTimeSet => some 0x0104
  | .sysPower => some 0x0106
  | .sysEvtMask => some 0x0107
  | .presProfile => some 0x0201
  | .presWake => some 0x0202
  | .presStart => some 0x0203
  | .presDoor => some 0x0204
  | .presTracked => some 0x0205
  | .rosterMode => some 0x0301
  | .rosterAdd => some 0x0302
  | .rosterAddHf => some 0x0303
  | .rosterRevoke => some 0x0304
  | .rosterLoad => some 0x0305
  | .rosterList => some 0x0306
  | .keyImport => some 0x0401
  | .keyTagLoad => some 0x0402
  | .keyImportPub => some 0x0403
  | .keyAttr => some 0x0404
  | .keyAttest => some 0x0405
  | .keyEndorse => some 0x0406
  | .stCreate => some 0x0501
  | .stDelete => some 0x0502
  | .stOpen => some 0x0503
  | .stClose => some 0x0504
  | .stRead => some 0x0505
  | .stWrite => some 0x0506
  | .stCommit _ => some 0x0507
  | .stDiscard => some 0x0508
  | .stPassword => some 0x0509
  | .lwRead => some 0x050A
  | .lwWrite => some 0x050B
  | .ledgerRead => some 0x050C
  | .ledgerAck => some 0x050D
  | .ledgerStatus => some 0x050E
  | .radioHfLinger => some 0x0601
  | .radioTagRead => some 0x0602
  | .radioTagWrite _ _ => some 0x0603
  | .radioCoex => some 0x0604
  | .stageOpen => some 0x0701
  | .stageWrite => some 0x0702
  | .stageVerify => some 0x0703
  | .stageAbort => some 0x0704
  | .cfgLoad _ => some 0x0705
  | .updConfirm => some 0x0707
  | .updStatus => some 0x0708
  | .lcChallenge => some 0x0801
  | .lcServiceExit => some 0x0803
  | .lcStatus => some 0x0804
  | .diagLfSweep => some 0x0901
  | .diagUwbTest => some 0x0902
  | .diagJournal => some 0x0903
  | .diagTelemetry => some 0x0904
  | .diagFieldCal => some 0x0905
  | .diagProbe _ _ _ _ _ => some 0x0906
  | _ => none

/-- The rows of the host die: what its pins, its CS0 and CS1 windows, its registers and its CAN port bring about. -/
def isHostRow : Instr → Bool
  | .spiRead _ _ => true
  | .spiWrite _ _ => true
  | .bread _ _ _ => true
  | .breadCompletionDiscard => true
  | .bwrite _ _ => true
  | .csConflict => true
  | .wren => true
  | .wrdi => true
  | .rdsr => true
  | .wrsr _ => true
  | .legacyRead _ _ => true
  | .legacyWrite _ _ => true
  | .mbDoorbell _ => true
  | .rxqPop => true
  | .wakeReq => true
  | .vsReport _ => true
  | .vsOdo _ => true
  | .vsCfgWrite _ => true
  | .vsCfgLock => true
  | .vsTimeout => true
  | .readbackFaultClear => true
  | .readbackFault => true
  | .doorDebouncedChange _ _ => true
  | .canErrlatRead _ => true
  | .brAnomRead _ => true
  | .permitReadbackSample _ => true
  | .engineStatus _ => true
  | .immoStatusPeriod _ => true
  | .j1939Request _ => true
  | .j1939CanxTimeout => true
  | .bamPacket => true
  | .j1939Cts _ _ => true
  | .j1939TpTimeout => true
  | .canBusOff _ _ _ => true
  | _ => false

/-- The state after up to `n` steps. -/
def runFor : Nat → State → State
  | 0, s => s
  | n + 1, s =>
    match step s with
    | .next t => runFor n t
    | _ => s

/-- OTP goes forward from `s` to `t` (R236, R437): SERIAL stands, no life-cycle fuse and no anti-rollback fuse is unblown. -/
def OtpForward (s t : State) : Prop :=
  t.keys.serial = s.keys.serial ∧ (s.keys.lcProv = true → t.keys.lcProv = true) ∧ (s.keys.lcField = true → t.keys.lcField = true) ∧
    (s.keys.lcRetire = true → t.keys.lcRetire = true) ∧ s.boot.arbDevice ≤ t.boot.arbDevice

/-- A run of the block is safe while no step of it takes OTP back. -/
def SafeRun (s : State) : List State → Prop
  | [] => True
  | t :: ts => OtpForward s t ∧ SafeRun t ts

end Sys2Proof.Machine
end

