-- ==== Sys2Proof/Certificates/Slice0/Obligations.lean ====
section
/-! DEFINITION. The statements about the block: what every command does when it has its effect, the rules of the specification that
bind the whole block, and the invariants of every step. -/

open Sys2Proof Sys2Proof.Machine

/-- With no operation in progress: an inactive entry with COUNT other than 0 that passes the range checks, that the steward may arm, and that is not late or has LATE_OK is armed, with DONE_CNT 0 and its first firing due at its TICK, to act at once where it is late; one with COUNT 0 becomes DISABLED. CANCEL cancels an armed entry, and a posted one that does not fire in this cycle, with the children that wait for it, and marks a running one to end after its firing. CANCEL_STOP does what CANCEL does and stops the entry's running program with LAUNCH_LATE. CANCEL_ALL does so with every entry. Each clause's CEL_CMD_RESULT holds OK and the entry, and the operation is in progress for at most 8 ticks, 64 for CANCEL_ALL (the free length is log entry 171); while one is in progress an ARM is ignored. -/
def Obligations.LaunchTableCommands : Prop :=
    (∀ (n : Fin 128) (s : State),
      cmdDone s = true →
      entryActive (entryOf s n) = false →
      (entryOf s n).count ≠ 0 →
      entryRangeBad s n (entryOf s n) = false →
      s.boot.noBundle = false →
      (s.clk.fallback && (entryOf s n).island.toNat == 1) = false →
      startRefused s (entryOf s n) = false →
      (!(entryOf s n).trig && decide (tickOf (entryOf s n) < now s + 128) && !(entryOf s n).lateOk) = false →
      exec (.arm n) s = .next (keepOtp s (inProgress 8 s (cmdResult (modEntry s n fun x =>
          { x with state := .armed, doneCnt := 0, due := tickOf x, waiting := x.trig, late := false, cancelAfter := false
                   atOnce := !x.trig && decide (tickOf x < now s + 128) }) n .ok)))) ∧
    (∀ (n : Fin 128) (s : State),
      cmdDone s = true →
      entryActive (entryOf s n) = false →
      (entryOf s n).count = 0 →
      exec (.arm n) s = .next (keepOtp s (inProgress 8 s (cmdResult (modEntry s n fun x => { x with state := .disabled }) n .ok)))) ∧
    (∀ (n : Fin 128) (s : State),
      cmdDone s = false →
      exec (.arm n) s = .next (keepOtp s (s))) ∧
    (∀ (n : Fin 128) (s : State),
      cmdDone s = true →
      (entryOf s n).state = .armed ∨ ((entryOf s n).state = .posted ∧ firesNow s n = false) →
      exec (.cancel n) s = .next (keepOtp s (inProgress 8 s (cmdResult (cancelOrphans (retract s n) n) n .ok)))) ∧
    (∀ (n : Fin 128) (s : State),
      cmdDone s = true →
      (entryOf s n).state = .running →
      exec (.cancel n) s = .next (keepOtp s (inProgress 8 s (cmdResult (modEntry s n fun x => { x with cancelAfter := true }) n .ok)))) ∧
    (∀ (n : Fin 128) (q : SeqId) (s : State),
      cmdDone s = true →
      (entryOf s n).state = .running →
      runsOn s n = some q →
      exec (.cancelStop n) s = .next (keepOtp s (inProgress 8 s (cmdResult (stopProgram (modEntry s n fun x => { x with cancelAfter := true }) q .launchLate) n .ok)))) ∧
    (∀ (n : Fin 128) (s : State),
      cmdDone s = true →
      (entryOf s n).state = .armed →
      runsOn (cancelOrphans (retract s n) n) n = none →
      exec (.cancelStop n) s = .next (keepOtp s (inProgress 8 s (cmdResult (cancelOrphans (retract s n) n) n .ok)))) ∧
    (∀ (s : State),
      cmdDone s = true →
      exec (.cancelAll) s = .next (keepOtp s (inProgress 64 s (cmdResult (cancelAll s .launchLate false) 0 .ok))))

/-- The armed entry of an island that waits for no parent and is due first is posted to its port 4,096 ticks before it is due while the port holds fewer than four, its island's clock path is gated on, background work gives way and the coexistence lines follow. The next firing of a port that meets no cause of lateness, no cause of BUSY, a ready synthesiser and its grant acts at its due tick. The oldest completion updates the entry, the island's counters, the log (with the firing's actual tick), the triggered children and the run that waits for the frame. CEL_LOG_NEXT drops the oldest record and ends the log's interrupt (log entry 171), a read of CEL_TB_LO latches the high half, a read of CEL_STATUS clears LOG_LOST, a snapshot trigger on an idle bank names its groups 16 ticks ahead, and each group captures its counters then, group 0 with the timebase; the last capture shows T_S and adds 1 to SEQ. -/
def Obligations.LaunchPortCommands : Prop :=
    (∀ (n : Fin 128) (t : State) (s : State),
      postable (entryOf s n) = true →
      t = elapseTo s ((entryOf s n).due - 4096) →
      (entryOf t n).island.toNat < 5 →
      (vgetN t.cel.ports (entryOf t n).island.toNat []).length < 4 →
      earlierDue t n (entryOf t n) = false →
      (entryOf t n).due ≤ now t + 4096 →
      exec (.launchPost n) s = .next (keepOtp s (coexUpdate (yieldFor (gateOn
          (let m := modEntry t n fun x => 
             { x with state := .posted, late := x.atOnce || decide (comparePoint x < now t), atOnce := false }
           { m with cel := { m.cel with ports := vmodN m.cel.ports (entryOf t n).island.toNat (· ++ [n]) } })
          (islandNode (entryOf t n).island.toNat)) (entryOf t n).island.toNat)))) ∧
    (∀ (island : Island) (n : Fin 128) (t : State) (s : State),
      nextFiring s (islandIx island) = some n →
      t = elapseTo s (fireAt (entryOf s n)) →
      fireAt (entryOf s n) ≤ now t →
      ((entryOf t n).late || !islandReady t (entryOf t n).island.toNat ||
          ((entryOf t n).action.toNat == 1 && islandBusy t (entryOf t n).island.toNat) ||
          ((entryOf t n).island.toNat == 2 && decide (t.tn.utx.phase = .sending))) = false →
      firingBusy t (entryOf t n) = false →
      ((entryOf t n).tx && !synthReady t (entryOf t n).island.toNat) = false →
      firingGranted t (entryOf t n) = true →
      exec (.launchFire island) s = .next (keepOtp s (actFiring (elapseTo t (entryOf t n).due) n false))) ∧
    (∀ (c : Completion) (cs : List Completion) (s : State),
      s.cel.completions = c :: cs →
      exec (.launchComplete) s = .next (keepOtp s (frameLost (coexUpdate (triggerChildren
          (logAdd (countFiring (finishFiring { s with cel := { s.cel with completions := cs } } c) c.entry c.status)
            c.entry c.act c.status)
          c (entryOf s c.entry).cancelAfter)) c))) ∧
    (∀ (s : State),
      exec (.celLogNext) s = .next ({ s with cel := { s.cel with log := s.cel.log.drop 1, logIrq := false } })) ∧
    (∀ (s : State),
      exec (.celTbLoRead) s = .next ({ s with
          lastRead := leBytes 4 (now s % 4294967296)
          cel := { s.cel with tbHiLatch := BitVec.ofNat 32 (now s / 4294967296) } })) ∧
    (∀ (s : State),
      exec (.logLostRead) s = .next ({ s with lastRead := leBytes 4 (celStatus s), cel := { s.cel with logLost := 0 } })) ∧
    (∀ (bankS : Bool) (groups : BitVec 7) (s : State),
      (snapOf s bankS).busy = false →
      groups ≠ 0 →
      exec (.snapTrigger bankS groups) s = .next (setSnap s bankS { snapOf s bankS with busy := true, pendTs := now s + 16, pend := groups })) ∧
    (∀ (bankS : Bool) (group : Fin 7) (t : State) (s : State),
      (snapOf s bankS).busy = true →
      bitAt (snapOf s bankS).pend.toNat group.val = true →
      t = elapseTo s (snapOf s bankS).pendTs →
      exec (.snapshotCapture bankS group) s = .next (keepOtp s (setSnap t bankS { snapOf t bankS with
          cap := vset (snapOf t bankS).cap group (groupCounters t group.val)
          tb := if group.val = 0 then (snapOf t bankS).pendTs else (snapOf t bankS).tb
          ts := if (snapOf t bankS).pend &&& ~~~(BitVec.ofNat 7 (2 ^ group.val)) = 0 then (snapOf t bankS).pendTs
            else (snapOf t bankS).ts
          pend := (snapOf t bankS).pend &&& ~~~(BitVec.ofNat 7 (2 ^ group.val))
          busy := decide ((snapOf t bankS).pend &&& ~~~(BitVec.ofNat 7 (2 ^ group.val)) ≠ 0)
          seq := if (snapOf t bankS).pend &&& ~~~(BitVec.ofNat 7 (2 ^ group.val)) = 0 then (snapOf t bankS).seq + 1
            else (snapOf t bankS).seq })))

/-- Where the time of the instruction before has passed, a program runs on an engine, and the word or words at its pc are the named instruction: HALT ends the program with OK after 1 tick; NOP moves one word on after 1 tick; WAIT_TB to a tick that has not passed waits for it, and to a passed one ends the program with LAUNCH_LATE; the wait ends at its tick, which Vert and Azure note; LOOP_START opens a loop of n repetitions whose stride is 64 times the operand with X64, its body after the instruction's two words; LOOP_END goes back to the body while a repetition is left and otherwise closes the loop and goes on. Each leaves the named state and nothing else changes. -/
def Obligations.SequencerInstructions : Prop :=
    (∀ (e : SeqId) (u : State) (s : State),
      u = settleSeq s e →
      seqAt u e .halt 1 = true →
      exec (.halt e) s = .next (keepOtp s (endProgram (seqPast (elapse u 1) e 1 .ready) e .ok))) ∧
    (∀ (e : SeqId) (u : State) (s : State),
      u = settleSeq s e →
      seqAt u e .nop 1 = true →
      exec (.nop e) s = .next (keepOtp s (seqPast (elapse u 1) e 1 .ready))) ∧
    (∀ (e : SeqId) (off : BitVec 28) (u : State) (s : State),
      u = settleSeq s e →
      seqAt u e (.waitTb off.toNat) 2 = true →
      now u ≤ waitTick (seqOf u e) off.toNat →
      exec (.waitTb e off) s = .next (keepOtp s (seqPast u e 2 (.tb (waitTick (seqOf u e) off.toNat))))) ∧
    (∀ (e : SeqId) (off : BitVec 28) (u : State) (s : State),
      u = settleSeq s e →
      seqAt u e (.waitTb off.toNat) 2 = true →
      waitTick (seqOf u e) off.toNat < now u →
      exec (.waitTb e off) s = .next (keepOtp s (endProgram u e .launchLate))) ∧
    (∀ (e : SeqId) (n : Fin 128) (t : Nat) (u : State) (s : State),
      (seqOf s e).entry = some n →
      (seqOf s e).wait = .tb t →
      u = elapseTo s t →
      t ≤ now u →
      exec (.waitTbRelease e) s = .next (keepOtp s (setLastTb (seqResume u e) e t))) ∧
    (∀ (e : SeqId) (n : Byte) (stride : W16) (x64 : Bool) (u : State) (s : State),
      u = settleSeq s e →
      seqAt u e (.loopStart n.toNat (if x64 then 64 * stride.toNat else stride.toNat)) 2 = true →
      exec (.loopStart e n stride x64) s = .next (keepOtp s (setSeq (elapse u 1) e { seqOf u e with
          pc := (seqOf u e).pc + 2, wait := .ready
          loops := { reps := n.toNat, i := 0, stride := if x64 then 64 * stride.toNat else stride.toNat, body := (seqOf u e).pc + 2 } ::
            (seqOf u e).loops }))) ∧
    (∀ (e : SeqId) (f : LoopFrame) (fs : List LoopFrame) (u : State) (s : State),
      u = settleSeq s e →
      seqAt u e .loopEnd 1 = true →
      (seqOf u e).loops = f :: fs →
      f.i + 1 < f.reps →
      exec (.loopEnd e) s = .next (keepOtp s (setSeq (elapse u 1) e { seqOf u e with wait := .ready, pc := f.body, loops := { f with i := f.i + 1 } :: fs }))) ∧
    (∀ (e : SeqId) (f : LoopFrame) (fs : List LoopFrame) (u : State) (s : State),
      u = settleSeq s e →
      seqAt u e .loopEnd 1 = true →
      (seqOf u e).loops = f :: fs →
      f.reps ≤ f.i + 1 →
      exec (.loopEnd e) s = .next (keepOtp s (setSeq (elapse u 1) e { seqOf u e with wait := .ready, pc := (seqOf u e).pc + 1, loops := fs })))

/-- Where the time of the instruction before has passed, a program runs on Vert, and the word or words at its pc are the named instruction: SEL gives a slot its channel and takes it from any other slot, whose bridge drives it to its stop, or releases the slot; SET_AMP, SET_PH and SET_PH_BUF (byte b of the LF data buffer, added where ADD) change one field of one slot after 1 tick, and a driven slot takes it at its next carrier boundary; SET_FREQ sets the NCO and its trim bit after 2 ticks; DRIVE_ON drives each drivable slot of its mask from the slot's next boundary; DRIVE_OFF cuts the windows on its slots and stops their drive; SEND takes its slots over and holds the engine, and ends N times 4,800 ticks after its WAIT_TB; MEASURE opens a window over the periods that follow the slots' boundaries, and the window's record is written when it has run to its end. -/
def Obligations.VertInstructions : Prop :=
    (∀ (slot : Fin 3) (ch : Option (Fin 12)) (u t : State) (s : State),
      u = settleSeq s .vert →
      seqAt u .vert (.sel slot.val (ch.map (·.val))) 1 = true →
      t = seqPast (elapse u 1) .vert 1 .ready →
      exec (.vertSel slot ch) s = .next (keepOtp s (modSlot { t with vert := { t.vert with
          slot := vmap t.vert.slot fun x =>
            if ch.isSome && decide (x.ch = ch) then { x with ch := none, driven := false } else x } }
          slot fun x => { x with ch := ch }))) ∧
    (∀ (slot : Fin 3) (amp : BitVec 6) (u : State) (s : State),
      u = settleSeq s .vert →
      seqAt u .vert (.setAmp slot.val amp.toNat) 1 = true →
      exec (.setAmp slot amp) s = .next (keepOtp s (setSlot (seqPast (elapse u 1) .vert 1 .ready) slot fun x => { x with amp := amp }))) ∧
    (∀ (slot : Fin 3) (ph : Byte) (u : State) (s : State),
      u = settleSeq s .vert →
      seqAt u .vert (.setPh slot.val ph.toNat) 1 = true →
      exec (.setPh slot ph) s = .next (keepOtp s (setSlot (seqPast (elapse u 1) .vert 1 .ready) slot fun x => { x with ph := ph }))) ∧
    (∀ (slot : Fin 3) (add : Bool) (b : Fin 32) (u : State) (s : State),
      u = settleSeq s .vert →
      seqAt u .vert (.setPhBuf slot.val add b.val) 1 = true →
      exec (.setPhBuf slot add b) s = .next (keepOtp s (setSlot (seqPast (elapse u 1) .vert 1 .ready) slot fun x =>
          { x with ph := if add then x.ph + memRead (elapse u 1).vert.buf b.val else memRead (elapse u 1).vert.buf b.val }))) ∧
    (∀ (trim : Bool) (freq : W16) (u t : State) (s : State),
      u = settleSeq s .vert →
      seqAt u .vert (.setFreq trim freq.toNat) 2 = true →
      t = seqPast (elapse u 2) .vert 2 .ready →
      exec (.setFreq trim freq) s = .next (keepOtp s ({ t with vert := { t.vert with freq := freq, freqTrim := trim } }))) ∧
    (∀ (mask : BitVec 3) (u t : State) (s : State),
      u = settleSeq s .vert →
      seqAt u .vert (.driveOn mask.toNat) 1 = true →
      t = seqPast (elapse u 1) .vert 1 .ready →
      exec (.driveOn mask) s = .next (keepOtp s ({ t with vert := { t.vert with slot := Vector.ofFn (driveSlot t.vert mask.toNat (now t)) } }))) ∧
    (∀ (mask : BitVec 3) (u t : State) (s : State),
      u = settleSeq s .vert →
      seqAt u .vert (.driveOff mask.toNat) 1 = true →
      t = cutMask (seqPast (elapse u 1) .vert 1 .ready) mask.toNat →
      exec (.driveOff mask) s = .next (keepOtp s ({ t with vert := slotsOff t.vert (now t) mask.toNat }))) ∧
    (∀ (mask : BitVec 3) (n b : Byte) (u : State) (sd : LfSend) (s : State),
      u = settleSeq s .vert →
      seqAt u .vert (.send mask.toNat n.toNat b.toNat) 2 = true →
      sd = { mask := mask, n := n.toNat, first := b.toNat, wt := u.vert.lastTb } →
      exec (.send mask n b) s = .next (keepOtp s ({ seqPast u .vert 2 .op with vert := { u.vert with
          send := some sd, slot := Vector.ofFn (sendTakes u.vert sd (now u)) } }))) ∧
    (∀ (sd : LfSend) (t : State) (s : State),
      s.vert.send = some sd →
      t = elapseTo s (sd.wt + 4800 * sd.n) →
      sd.wt + 4800 * sd.n ≤ now t →
      exec (.sendComplete) s = .next (keepOtp s (seqResume { t with vert := { t.vert with
          send := none, slot := Vector.ofFn (sendLeaves t.vert sd (now t)) } } .vert))) ∧
    (∀ (mask : BitVec 3) (rcd : Fin 16) (periods : BitVec 4) (u t : State) (last : Nat) (x : LfWindow) (s : State),
      u = settleSeq s .vert →
      seqAt u .vert (.measure mask.toNat rcd.val periods.toNat) 1 = true →
      t = seqPast (elapse u 1) .vert 1 .ready →
      last = (windowEdges t.vert mask.toNat (now t) periods.toNat).foldl Nat.max (now t) →
      x = { mask := mask, rcd := rcd, slots := t.vert.slot, uncomp := decide (t.vert.freq ≠ t.vert.nomFreq), periods := periods.toNat, start := (windowEdges t.vert mask.toNat (now t) 0).foldl Nat.min last, stop := last } →
      exec (.measure mask rcd periods) s = .next (keepOtp s ({ t with vert := { t.vert with windows := t.vert.windows ++ [x] } }))) ∧
    (∀ (rcd : Fin 16) (i0 i1 i2 : BitVec 12) (p0 p1 p2 : Byte) (x : LfWindow) (t : State) (v : Vert) (s : State),
      s.vert.windows.find? (fun x => x.rcd = rcd) = some x →
      t = elapseTo s x.stop →
      x.stop ≤ now t →
      v = writeRes t.vert x (fun i => if i.val = 0 then (i0, p0) else if i.val = 1 then (i1, p1) else (i2, p2)) false →
      exec (.measureWindowEnd rcd i0 p0 i1 p1 i2 p2) s = .next (keepOtp s ({ t with vert := coverWindow { v with windows := t.vert.windows.filter (· ≠ x) } x })))

/-- A measured burst of a normal channel, in supply, that completes no condition's count only notes the burst. An over-current trip of a channel in service stops its bridges and makes it SHORT. A duty account that reaches its capacity stops the channel's bridges, sets DUTY_HOLD and ends the program with BUSY; DUTY_HOLD clears once every account is below the low level. OVERTEMP ends the program with ANTENNA_FAULT and stops every bridge; its clearing lets the failed attempts of start-up step 11 stand. A tracking step that changes a trim, of a channel in service while no program runs, is made, counted and marked for saving. A requested sweep that may run, with no Vert entry near, runs with its drives and measurements; one that a posting meets drives the channel until its tick and yields. The spacing timer requests a sweep of a channel out of service 600 s after its last. A write of LF_POP populates channels. -/
def Obligations.VertMonitorEvents : Prop :=
    (∀ (c : Fin 12) (phErr : Byte) (iMeas : BitVec 12) (residual : Byte) (b : LfBurst) (t : State) (s : State),
      (s.vert.ch[c]).ended = some b →
      (s.vert.ch[c]).cls = .normal →
      b.measurable = true →
      (s.pwr.vbatLow || s.pwr.vbatOvp || s.vert.vlfUv) = false →
      t = modCh s c (fun x => noteBurst x b phErr iMeas residual) →
      (t.vert.ch[c]).nOpen < 2 →
      (t.vert.ch[c]).nDetuned < 3 →
      (t.vert.ch[c]).nLow < 3 →
      exec (.lfBurstMeasured c phErr iMeas residual) s = .next (keepOtp s (t))) ∧
    (∀ (c : Fin 12) (s : State),
      (s.vert.ch[c]).cls = .normal ∨ (s.vert.ch[c]).cls = .lowCurrent →
      exec (.lfOvercurrentTrip c) s = .next (keepOtp s (lfFault { s with vert := slotsCut s.vert (slotHolds c) } c .short))) ∧
    (∀ (c : Fin 12) (n : Nat) (t : State) (s : State),
      ticksToCap 2000 s.vert (now s) c = some n →
      s.cel.tbRun = true →
      t = elapse s n →
      exec (.dutyCapacityReached c) s = .next (keepOtp s (endProgram { t with vert := { slotsCut t.vert (slotHolds c) with dutyHold := true } } .vert .busy))) ∧
    (∀ (t : State) (s : State),
      s.vert.dutyHold = true →
      t = (if s.vert.send.isSome || s.vert.slot.toList.any (fun x => x.driven || decide (now s < x.offAt)) then s else elapse s (ticksToLow s.vert)) →
      t.vert.ch.toList.all (fun x => decide (x.duty < dutyLow)) = true →
      exec (.dutyHoldClear) s = .next (keepOtp s ({ t with vert := { t.vert with dutyHold := false } }))) ∧
    (∀ (t : State) (s : State),
      t = endProgram { s with vert := { s.vert with
        overtemp := true, hotAt := if s.vert.overtemp then s.vert.hotAt else s.clock } } .vert .antennaFault →
      exec (.lfOvertemp) s = .next (keepOtp s ({ t with vert := slotsCut t.vert fun _ => true }))) ∧
    (∀ (s : State),
      exec (.lfOvertempClear) s = .next (keepOtp s ({ s with
          vert := { s.vert with overtemp := false }
          boot := { s.boot with hotFails := hotTries s } }))) ∧
    (∀ (c : Fin 12) (t : State) (s : State),
      seqRuns s .vert = false →
      bitAt s.vert.svc.toNat c.val = true →
      bitAt s.vert.trackDue.toNat c.val = true →
      t = { s with vert := { s.vert with trackDue := s.vert.trackDue &&& ~~~(BitVec.ofNat 12 (2 ^ c.val)) } } →
      (trackStep s.vert.ch[c] c).2 ≠ 0 →
      exec (.lfTrackingStep c) s = .next (keepOtp s ((let t1 := modCh t c fun _ => (trackStep s.vert.ch[c] c).1
           markDirty { t1 with vert := { t1.vert with nRetune := Nat.min 0xFFFFFFFF (t1.vert.nRetune + (trackStep s.vert.ch[c] c).2) } } calLf)))) ∧
    (∀ (c : Fin 12) (f : Vector Byte 8) (g : Vector Byte 3) (cur : BitVec 12) (ph : Byte) (t : State) (s : State),
      bitAt s.vert.pop.toNat c.val = true →
      ((s.vert.ch[c]).sweepReq || diagSweeps s c) = true →
      sweepMay s = true →
      seqRuns s .vert = false →
      ((s.cel.entries.toList.any fun e => e.island.toNat == 0 &&
          (e.state = .posted || e.state = .running || ((s.vert.ch[c]).sweepExtra && e.state = .armed))) = false) →
      (∀ p, nextPosting s 0 = some p → now s + 2400 * sweepDrives c ≤ p) →
      t = diagSwept (sweepRun s c f g cur ph) c →
      exec (.lfSweep c f g cur ph) s = .next (keepOtp s (markDirty { t with vert := { t.vert with sweeping := none } } calLf))) ∧
    (∀ (c : Fin 12) (f : Vector Byte 8) (g : Vector Byte 3) (cur : BitVec 12) (ph : Byte) (p : Nat) (t : State) (s : State),
      bitAt s.vert.pop.toNat c.val = true →
      ((s.vert.ch[c]).sweepReq || diagSweeps s c) = true →
      sweepMay s = true →
      seqRuns s .vert = false →
      ((s.cel.entries.toList.any fun e => e.island.toNat == 0 &&
          (e.state = .posted || e.state = .running || ((s.vert.ch[c]).sweepExtra && e.state = .armed))) = false) →
      nextPosting s 0 = some p →
      p < now s + 2400 * sweepDrives c →
      t = driveUntil c 8 2400 p s →
      exec (.lfSweep c f g cur ph) s = .next (keepOtp s ({ t with vert := { t.vert with sweeping := some c } }))) ∧
    (∀ (c : Fin 12) (s : State),
      lfOut (s.vert.ch[c]).cls = true →
      exec (.lfSweepSpacingTimer c) s = .next (keepOtp s (modCh (match (s.vert.ch[c]).sweepAt with
          | some a => elapseToRtc s (a + 600)
          | none => s) c fun y => { y with sweepReq := true }))) ∧
    (∀ (v : W32) (s : State),
      exec (.lfPopWrite v) s = .next (keepOtp s (lfPopWrite (BitVec.ofNat 12 v.toNat) s)))

/-- Where the time of the instruction before has passed, a program runs on Tenné, and the word or words at its pc are the named instruction: SYNTH starts the synthesiser of an entry after 1 tick; WAIT_LOCK goes on at once where it is locked and otherwise waits up to 64 ticks a unit; RX_ON, RX_OFF and TX_OFF switch the receiver and the transmitter after 1 tick; DCOC lasts 16 N + 1 ticks, RSSI 64 N + 1, and RX_FRAME holds the engine with its format, record, start and search noted; TX_ON, with the synthesiser locked, waits until 768 ticks after lock and takes 385; TX_FRAME lasts 120 bit periods + 1 with the transmitter on. A lock is noted, enters the band cache, whose page is then dirty, lets an untimed transmit send and releases a WAIT_LOCK; a wait that runs out ends the program with SYNTH_NOT_READY; a lock lost with the transmitter of a program on does so too, and with neither a program transmitting nor an untimed frame it is only noted. The end of RX_FRAME writes its record, counts its class and lets the program go on. -/
def Obligations.TenneInstructions : Prop :=
    (∀ (n : Fin 8) (u t : State) (s : State),
      u = settleSeq s .tenne →
      seqAt u .tenne (.tnSynth n.val) 1 = true →
      t = seqPast (elapse u 1) .tenne 1 .ready →
      exec (.tnSynth n) s = .next (keepOtp s ({ t with tn := { t.tn with synth := { entry := n, on := true } } }))) ∧
    (∀ (d : Byte) (u : State) (s : State),
      u = settleSeq s .tenne →
      seqAt u .tenne (.tnWaitLock d.toNat) 1 = true →
      exec (.tnWaitLock d) s = .next (keepOtp s (seqPast u .tenne 1 (if u.tn.synth.locked then .ready else .lock (now u + 64 * d.toNat))))) ∧
    (∀ (a : Nat) (t : State) (s : State),
      (seqOf s .tenne).wait = .lock a →
      t = elapseTo s a →
      a ≤ now t →
      seqRuns t .tenne = true →
      exec (.tnWaitLockTimeout) s = .next (keepOtp s (endProgram t .tenne .synthNotReady))) ∧
    (∀ (u v : State) (s : State),
      s.tn.synth.on = true →
      s.tn.synth.locked = false →
      v = (if s.tn.cache ||| BitVec.ofNat 8 (2 ^ s.tn.synth.entry.val) = s.tn.cache then s else markDirty s calBand) →
      u = { v with tn := { s.tn with synth := { s.tn.synth with locked := true, lockedAt := now s }, cache := s.tn.cache ||| BitVec.ofNat 8 (2 ^ s.tn.synth.entry.val), utx := if s.tn.utx.phase = .synth then { s.tn.utx with phase := .sending } else s.tn.utx } } →
      exec (.tnSynthLock) s = .next (keepOtp s (match (seqOf u .tenne).wait with
          | .lock _ => seqResume u .tenne
          | _ => u))) ∧
    (∀ (s : State),
      s.tn.synth.locked = true →
      s.tn.utx.phase ≠ .sending →
      s.tn.txOn = true →
      seqRuns s .tenne = true →
      exec (.tnLockLost) s = .next (keepOtp s (endProgram s .tenne .synthNotReady))) ∧
    (∀ (s : State),
      s.tn.synth.locked = true →
      s.tn.utx.phase ≠ .sending →
      (s.tn.txOn && seqRuns s .tenne) = false →
      exec (.tnLockLost) s = .next (keepOtp s ({ s with tn := { s.tn with synth := { s.tn.synth with locked := false } } }))) ∧
    (∀ (b : Fin 3) (u t : State) (s : State),
      u = settleSeq s .tenne →
      seqAt u .tenne (.tnRxOn b.val) 1 = true →
      t = seqPast (elapse u 1) .tenne 1 .ready →
      exec (.tnRxOn b) s = .next (keepOtp s ({ t with tn := { t.tn with rxOn := true, rxProfile := b } }))) ∧
    (∀ (u t : State) (s : State),
      u = settleSeq s .tenne →
      seqAt u .tenne .tnRxOff 1 = true →
      t = seqPast (elapse u 1) .tenne 1 .ready →
      exec (.tnRxOff) s = .next (keepOtp s ({ t with tn := { t.tn with rxOn := false } }))) ∧
    (∀ (n : BitVec 6) (u : State) (s : State),
      u = settleSeq s .tenne →
      seqAt u .tenne (.dcoc n.toNat) 1 = true →
      exec (.dcoc n) s = .next (keepOtp s (seqPast u .tenne 1 (.til (now u + 16 * n.toNat + 1) (.dcoc (16 * n.toNat)))))) ∧
    (∀ (format : Fin 3) (idx : Bool) (r : Fin 8) (search : W16) (u : State) (s : State),
      u = settleSeq s .tenne →
      seqAt u .tenne (.tnRxFrame format.val idx r.val search.toNat) 2 = true →
      exec (.tnRxFrame format idx r search) s = .next (keepOtp s ({ seqPast u .tenne 2 .op with tn := { u.tn with
            rxFrame := some { format := format, rcd := r.val + (if idx then loopIdx u .tenne else 0), start := now u + 1, search := search.toNat } } }))) ∧
    (∀ (sync : Bool) (toneLevel : Byte) (toneTicks d : W16) (medians : Bytes) (rssi weak : Byte) (payload : Bytes) (x : TnRxFrame) (at_ len cls : Nat) (t : State) (s : State),
      s.tn.rxFrame = some x →
      at_ = Nat.min d.toNat x.search →
      len = formatBits x.format.val * bitPeriod s.tn.rxProfile.val →
      cls = rxClass x.format sync (twoToneOf s toneLevel toneTicks.toNat) (searchEnergy s x.search medians) payload →
      t = elapseTo s (x.start + (if sync then at_ + len else if cls = 0 then x.search else x.search + len)) →
      exec (.tnRxFrameEnd sync toneLevel toneTicks d medians rssi weak payload) s = .next (keepOtp s (seqResume { t with tn := { t.tn with
            rxFrame := none
            dcocFrozen := if sync then t.tn.dcocAt else t.tn.dcocFrozen
            dcocOk := if sync then dcocValid t.tn.dcocAt (x.start + at_) else t.tn.dcocOk
            rxbuf := putRx t.tn.rxbuf x.rcd x.format.val (byte (cls + 4 * b2n (sync && frameCheck x.format payload))) rssi weak
              (x.start + at_) payload
            nDecoded := if cls = 1 then satInc t.tn.nDecoded else t.tn.nDecoded
            nCollided := if cls = 2 then satInc t.tn.nCollided else t.tn.nCollided
            nEmpty := if cls = 0 then satInc t.tn.nEmpty else t.tn.nEmpty } } .tenne))) ∧
    (∀ (n : BitVec 4) (idx : Bool) (r : Fin 8) (value : Byte) (u : State) (s : State),
      u = settleSeq s .tenne →
      seqAt u .tenne (.rssi n.toNat idx r.val) 1 = true →
      exec (.rssi n idx r value) s = .next (keepOtp s (seqPast u .tenne 1 (.til (now u + 64 * n.toNat + 1) (.rssi (r.val + (if idx then loopIdx u .tenne else 0)) value))))) ∧
    (∀ (b : Fin 3) (step : BitVec 6) (u v t : State) (s : State),
      u = settleSeq s .tenne →
      u.tn.synth.locked = true →
      seqAt u .tenne (.tnTxOn b.val step.toNat) 1 = true →
      v = settleSeq (elapseTo u (u.tn.synth.lockedAt + 768)) .tenne →
      seqAt v .tenne (.tnTxOn b.val step.toNat) 1 = true →
      t = seqPast (elapse v 385) .tenne 1 .ready →
      exec (.tnTxOn b step) s = .next (keepOtp s ({ t with tn := { t.tn with txOn := true, txProfile := b, txStep := step } }))) ∧
    (∀ (u : State) (s : State),
      u = settleSeq s .tenne →
      seqAt u .tenne .tnTxFrame 1 = true →
      exec (.tnTxFrame) s = .next (keepOtp s (seqPast u .tenne 1 (if u.tn.txOn then .til (now u + 120 * bitPeriod u.tn.txProfile.val + 1) .tnTx else .ready)))) ∧
    (∀ (u t : State) (s : State),
      u = settleSeq s .tenne →
      seqAt u .tenne .tnTxOff 1 = true →
      t = seqPast (elapse u 1) .tenne 1 .ready →
      exec (.tnTxOff) s = .next (keepOtp s ({ t with tn := { t.tn with txOn := false } })))

/-- TN_UTX_CTRL with GO and legal fields while no transmit is pending starts waiting. The transmit starts at NB where no program runs, no firing is posted to Tenné, no calibration runs, the grant is held, the supply is in range and DL has not passed; at DL it is abandoned with BUSY where the grant is held and with COEX_DENIED, its counters and its event where it is not; it ends with OK when guard, ramp and frame have passed. A change of a GNT pin while the host die is not held goes to the field die as a COEX frame. In Chalk a VCO check, a second after the last, finds a calibration that has reached its end, which filled the band cache at the temperature it began with, or, where the temperature has moved by 20 °C or more, empties the cache, marks its page dirty and owes a calibration, which starts where Tenné is free (log entry 44). -/
def Obligations.UntimedTransmitAndCoexistence : Prop :=
    (∀ (v : W32) (u : Utx) (s : State),
      bitAt v.toNat 15 = true →
      s.tn.utx.phase = .idle →
      s.keys.svcLock = false →
      u = utxFields s.tn.utx v →
      u.profile.toNat = 1 ∨ u.profile.toNat = 2 →
      u.step.toNat ≤ pwrMaxOf s u.entry.toNat →
      u.coex.toNat < 2 →
      exec (.utxGo v) s = .next (keepOtp s (coexUpdate { s with tn := { s.tn with utx := { u with phase := .waiting } } }))) ∧
    (∀ (t : State) (s : State),
      s.tn.utx.phase = .waiting →
      t = elapseTo s (near32 (now s) s.tn.utx.nb) →
      t.keys.svcLock = false →
      vbatNoTx t = false →
      seqRuns t .tenne = false →
      (vgetN t.cel.ports 2 []).isEmpty = true →
      vcalRuns t = false →
      utxGranted t = true →
      near32 (now t) t.tn.utx.nb ≤ now t →
      now t ≤ near32 (now t) t.tn.utx.dl →
      exec (.utxStart) s = .next (keepOtp s ({ t with tn := { t.tn with
            utx := { t.tn.utx with phase := .synth }
            synth := { entry := ⟨t.tn.utx.entry.toNat % 8, Nat.mod_lt _ (by decide)⟩, on := true } } }))) ∧
    (∀ (t : State) (s : State),
      s.tn.utx.phase = .waiting →
      t = elapseTo s (near32 (now s) s.tn.utx.dl) →
      exec (.utxDeadline) s = .next (keepOtp s (if utxGranted t then utxEnd t .busy else utxDenied t))) ∧
    (∀ (s : State),
      s.tn.utx.phase = .sending →
      exec (.utxFrameEnd) s = .next (keepOtp s (utxEnd (elapseTo s (s.tn.synth.lockedAt + 768 + 384 + 120 * bitPeriod s.tn.utx.profile.toNat)) .ok))) ∧
    (∀ (pair : Fin 2) (level : Bool) (g : Vector CoexPair 2) (s : State),
      s.clk.hostHeld = false →
      g = vmod s.tn.coex pair (fun x => { x with gntPin := level }) →
      exec (.coexGntChange pair level) s = .next (keepOtp s (sendShort { s with tn := { s.tn with coex := g } } false 6
          (BitVec.ofNat 17 (b2n (g[0]).gntPin + 2 * b2n (g[1]).gntPin))))) ∧
    (∀ (temp a : Int) (u t : State) (s : State),
      s.pwr.pstate = .chalk →
      u = elapseChalk s (s.bg.times.vco + ticksPerSec) →
      t = { u with bg := { u.bg with times := { u.bg.times with vco := chalkNow u } } } →
      t.tn.vcal = none →
      t.tn.cacheTemp = some a →
      20 ≤ temp - a ∨ 20 ≤ a - temp →
      exec (.vcoTempCheck temp) s = .next (keepOtp s (vcalStart temp (markDirty { t with tn := { t.tn with cache := 0, cacheTemp := none, refill := true } } calBand)))) ∧
    (∀ (temp a b : Int) (e : Nat) (u t v : State) (s : State),
      s.pwr.pstate = .chalk →
      u = elapseChalk s (s.bg.times.vco + ticksPerSec) →
      t = { u with bg := { u.bg with times := { u.bg.times with vco := chalkNow u } } } →
      t.tn.vcal = some (e, a) →
      e ≤ now t →
      v = markDirty { t with tn := { t.tn with vcal := none, refill := false, cache := 0xFF, cacheTemp := some a } } calBand →
      v.tn.cacheTemp = some b →
      temp - b < 20 ∧ b - temp < 20 →
      exec (.vcoTempCheck temp) s = .next (keepOtp s (vcalStart temp v)))

/-- Where the time of the instruction before has passed, a program runs on Azure, the word or words at its pc are the named instruction and its ports are in service: PHY selects an entry and starts PLL_U after 1 tick; WAIT_LOCK goes on at once where it is locked and otherwise waits up to 64 ticks a unit; RX_ON opens its receive ports after 193 ticks, chain B's where both chains are in service; RX_OFF and TX_OFF close them; TX_ON, with PLL_U locked, waits until 768 ticks after lock; with a valid STS key TX_FRAME puts its frame on air and lasts to its end, a POLL beginning one of the key's two exchanges, noted for its token; a POLL beyond them ends the program with KEY_ORPHANED (log entry 193); RX_FRAME with a valid key, and LOOPBACK, hold the engine with their record, ports and start noted. A RX_ON that names a port out of service ends the program with ANTENNA_FAULT, a RX_FRAME without a valid key with KEY_ORPHANED. A lock is noted and releases a WAIT_LOCK; a wait that runs out, and a lock lost, end the program with SYNTH_NOT_READY. The end of a RX_FRAME for a RESP writes its record, keeps the frame's octets where it is good and counts a lost or failed one; the end of a LOOPBACK, with its frame within 12,800 ticks or without one then, writes its record, counts and classifies the receiving port. -/
def Obligations.AzureInstructions : Prop :=
    (∀ (n : Fin 8) (u t : State) (s : State),
      u = settleSeq s .azure →
      seqAt u .azure (.azPhy n.val) 1 = true →
      t = seqPast (elapse u 1) .azure 1 .ready →
      exec (.azPhy n) s = .next (keepOtp s ({ t with az := { t.az with phyEntry := n, synthOn := true, locked := false }, clk := { t.clk with plluLock := false } }))) ∧
    (∀ (d : Byte) (u : State) (s : State),
      u = settleSeq s .azure →
      seqAt u .azure (.azWaitLock d.toNat) 1 = true →
      exec (.azWaitLock d false) s = .next (keepOtp s (seqPast u .azure 1 (if u.az.locked then .ready else .lock (now u + 64 * d.toNat))))) ∧
    (∀ (d : Byte) (a : Nat) (t : State) (s : State),
      (seqOf s .azure).wait = .lock a →
      t = elapseTo s a →
      a ≤ now t →
      exec (.azWaitLock d true) s = .next (keepOtp s (endProgram t .azure .synthNotReady))) ∧
    (∀ (u : State) (s : State),
      s.az.synthOn = true →
      s.az.locked = false →
      u = { s with az := { s.az with locked := true, lockedAt := now s }, clk := { s.clk with plluLock := true } } →
      exec (.azSynthLock) s = .next (keepOtp s (match (seqOf u .azure).wait with
          | .lock _ => seqResume u .azure
          | _ => u))) ∧
    (∀ (s : State),
      s.az.locked = true →
      seqRuns s .azure = true →
      exec (.azLockLost) s = .next (keepOtp s (endProgram s .azure .synthNotReady))) ∧
    (∀ (a : Fin 6) (b : Option (Fin 6)) (u v t : State) (s : State),
      u = settleSeq s .azure →
      seqAt u .azure (.azRxOn a.val (portCode b)) 1 = true →
      (a :: b.toList).all (fun x => portIn u x) = true →
      v = settleSeq u .azure →
      seqAt v .azure (.azRxOn a.val (portCode b)) 1 = true →
      t = seqPast (elapse v 193) .azure 1 .ready →
      exec (.azRxOn a b) s = .next (keepOtp s ({ t with az := { t.az with rxA := some a, rxB := if t.az.chainA && t.az.chainB then b else none } }))) ∧
    (∀ (a : Fin 6) (b : Option (Fin 6)) (u : State) (s : State),
      u = settleSeq s .azure →
      seqAt u .azure (.azRxOn a.val (portCode b)) 1 = true →
      (a :: b.toList).all (fun x => portIn u x) = false →
      exec (.azRxOn a b) s = .next (keepOtp s (endProgram u .azure .antennaFault))) ∧
    (∀ (u t : State) (s : State),
      u = settleSeq s .azure →
      seqAt u .azure .azRxOff 1 = true →
      t = seqPast (elapse u 1) .azure 1 .ready →
      exec (.azRxOff) s = .next (keepOtp s ({ t with az := { t.az with rxA := none, rxB := none } }))) ∧
    (∀ (b : Fin 6) (back : BitVec 6) (u v t : State) (s : State),
      u = settleSeq s .azure →
      seqAt u .azure (.azTxOn b.val back.toNat) 1 = true →
      portIn u b = true →
      u.az.locked = true →
      v = settleSeq (elapseTo u (u.az.lockedAt + 768)) .azure →
      seqAt v .azure (.azTxOn b.val back.toNat) 1 = true →
      t = seqPast (elapse v 1) .azure 1 .ready →
      exec (.azTxOn b back) s = .next (keepOtp s ({ t with az := { t.az with txPort := some b, txBack := back } }))) ∧
    (∀ (u t : State) (s : State),
      u = settleSeq s .azure →
      seqAt u .azure .azTxOff 1 = true →
      t = seqPast (elapse u 1) .azure 1 .ready →
      exec (.azTxOff) s = .next (keepOtp s ({ t with az := { t.az with txPort := none } }))) ∧
    (∀ (final : Bool) (r : Fin 4) (lead : W16) (a : Fin 6) (u v t : State) (mark : Nat) (s : State),
      u = settleSeq s .azure →
      seqAt u .azure (.azTxFrame final r.val lead.toNat) 2 = true →
      u.az.txPort = some a →
      portIn u a = true →
      u.az.key.valid = true ∧ (final = true ∨ u.az.key.used ≠ 2) →
      v = settleSeq u .azure →
      seqAt v .azure (.azTxFrame final r.val lead.toNat) 2 = true →
      mark = u.az.lastTb + lead.toNat →
      t = seqPast v .azure 2 (.til (mark + ticksAfter (phyNow v)) (.azTx r mark)) →
      exec (.azTxFrame final r lead) s = .next (keepOtp s (if final then { t with az := sendFrame (phyNow t) t.az 2 mark }
          else notePoll { t with az := sendFrame (phyNow t) (beginExchange t.az) 0 mark } mark))) ∧
    (∀ (report : Bool) (r : Fin 4) (search : W16) (u v t : State) (s : State),
      u = settleSeq s .azure →
      seqAt u .azure (.azRxFrame report r.val search.toNat) 2 = true →
      (u.az.rxA.toList ++ u.az.rxB.toList).all (fun x => portIn u x) = true →
      u.az.key.valid = true →
      v = settleSeq u .azure →
      seqAt v .azure (.azRxFrame report r.val search.toNat) 2 = true →
      t = seqPast v .azure 2 .op →
      exec (.azRxFrame report r search) s = .next (keepOtp s ({ t with az := { t.az with rxFrame := some { report := report, rcd := r, start := now t + 1, search := search.toNat } } }))) ∧
    (∀ (r : Fin 4) (lead : W16) (a : Fin 6) (u : State) (s : State),
      u = settleSeq s .azure →
      seqAt u .azure (.azTxFrame false r.val lead.toNat) 2 = true →
      u.az.txPort = some a →
      portIn u a = true →
      u.az.key.valid = false ∨ u.az.key.used = 2 →
      exec (.azTxFrame false r lead) s = .next (keepOtp s (endProgram u .azure .keyOrphaned))) ∧
    (∀ (report : Bool) (r : Fin 4) (search : W16) (u : State) (s : State),
      u = settleSeq s .azure →
      seqAt u .azure (.azRxFrame report r.val search.toNat) 2 = true →
      (u.az.rxA.toList ++ u.az.rxB.toList).all (fun x => portIn u x) = true →
      u.az.key.valid = false →
      exec (.azRxFrame report r search) s = .next (keepOtp s (endProgram u .azure .keyOrphaned))) ∧
    (∀ (received firstPath phrOk nlos : Bool) (delay : W16) (frac : BitVec 11) (stsq rssi : Byte) (pdoa cfo : W16) (payload : Bytes) (x : AzRxFrame) (got : Bool) (psdu : Bytes) (cls mark : Nat) (bit : BitVec 4) (t : State) (a : Azure) (s : State),
      s.az.rxFrame = some x →
      x.report = false →
      got = (received && rxTakes (phyNow s) delay.toNat x.search) →
      psdu = padTo (psduLen (phyNow s) false) payload →
      cls = azFrameClass (phyNow s) got firstPath phrOk stsq psdu →
      mark = x.start + (if got then delay.toNat else x.search) →
      bit = BitVec.ofNat 4 (2 ^ x.rcd.val) →
      t = elapseTo s (if got then mark + ticksAfter (phyNow s) else mark) →
      a = putTs { t.az with rxFrame := none } x.rcd (tsRecord (rxStamp s s.az.rxA mark frac.toNat) cls false false false nlos stsq rssi (if s.az.rxB.isSome then pdoa else 0) cfo) →
      exec (.azRxFrameEnd received firstPath phrOk nlos delay frac stsq rssi pdoa cfo payload) s = .next (keepOtp s (seqResume { t with az := { a with
            resp := if cls = 1 then psdu else []
            recB := if s.az.rxB.isSome then a.recB ||| bit else a.recB &&& ~~~bit
            nStsFail := if cls = 2 then satInc a.nStsFail else a.nStsFail
            nLost := if cls = 0 then satInc a.nLost else a.nLost } } .azure))) ∧
    (∀ (a b : Fin 6) (r : Fin 4) (u v t : State) (s : State),
      u = settleSeq s .azure →
      seqAt u .azure (.loopback a.val b.val r.val) 1 = true →
      portIn u a = true →
      portIn u b = true →
      v = settleSeq u .azure →
      seqAt v .azure (.loopback a.val b.val r.val) 1 = true →
      t = seqPast v .azure 1 .op →
      exec (.azLoopback a b r) s = .next (keepOtp s ({ t with az := { t.az with loop := some { tx := a, rx := b, rcd := r, start := now t + 1 } } }))) ∧
    (∀ (decoded nlos : Bool) (delay : W16) (frac : BitVec 11) (stsq rssi : Byte) (cfo : W16) (amp dly : Byte) (l : AzLoop) (got : Bool) (mark : Nat) (t : State) (a : Azure) (s : State),
      s.az.loop = some l →
      got = (decoded && decide (delay.toNat + ticksAfter (phyNow s) ≤ 12800)) →
      mark = l.start + (if got then delay.toNat else 12800) →
      t = elapseTo s (if got then mark + ticksAfter (phyNow s) else mark) →
      a = putTs t.az l.rcd (tsRecord (rxStamp s (some l.rx) mark frac.toNat) (b2n got) false false false nlos stsq rssi 0 cfo) →
      exec (.azLoopbackEnd decoded nlos delay frac stsq rssi cfo amp dly) s = .next (keepOtp s (classifyPort (seqResume { t with az := { a with loop := none, nLoopback := satInc a.nLoopback } } .azure) l.rx got amp dly)))

/-- A VSWR trip of the port that transmits, while it is NORMAL or WEAK, sets VSWR and classes the port FAULT with its consequences; the STS key expires 3,840,000 ticks after it was loaded and AZ_KEY_CTRL.CLR zeroises it at once; an orphan signal marks a valid key, and zeroises it at once where no program runs. -/
def Obligations.UwbPortTripsAndStsKey : Prop :=
    (∀ (b : Fin 6) (s : State),
      s.az.txPort = some b →
      (s.az.ports[b]).cls = .normal ∨ (s.az.ports[b]).cls = .weak →
      exec (.azVswrTrip b) s = .next (keepOtp s (portFault (modPort s b fun x => { x with vswr := true }) b 0))) ∧
    (∀ (t : State) (s : State),
      s.az.key.valid = true →
      t = elapseTo s (s.az.key.loadedAt + 3840000) →
      s.az.key.loadedAt + 3840000 ≤ now t →
      exec (.stsKeyExpire) s = .next (keepOtp s (zeroiseSts t))) ∧
    (∀ (s : State),
      exec (.azKeyClr) s = .next (keepOtp s (zeroiseSts s))) ∧
    (∀ (s : State),
      s.az.key.valid = true →
      seqRuns s .azure = true →
      exec (.stsOrphanSignal) s = .next (keepOtp s ({ s with az := { s.az with key := { s.az.key with orphanPend := true } } }))) ∧
    (∀ (s : State),
      s.az.key.valid = true →
      seqRuns s .azure = false →
      exec (.stsOrphanSignal) s = .next (keepOtp s ({ s with az := { s.az with recsUsed := 0, key := { s.az.key with port := [], valid := false, orphanPend := false, parent := none } } })))

/-- Each of the nineteen job commands, submitted to a free tag with words that pass the checks of its operation, its slot, its usage and the privileged mode, is accepted: the tag holds the job with its submission order, the generation of its slot, the privileged-mode bit, Deep, held or ready, and the mark of the last use where it takes it; one use of the slot it names is counted where uses are counted. Nothing else changes. -/
def Obligations.JobSubmissions : Prop :=
    (∀ (w : JobWords) (s : State),
      mayAccept s .aeadSeal w s.gq.privileged →
      exec (.aeadSeal w) s = .next (keepOtp s (accepted s .aeadSeal w s.gq.privileged))) ∧
    (∀ (w : JobWords) (s : State),
      mayAccept s .aeadOpen w s.gq.privileged →
      exec (.aeadOpen w) s = .next (keepOtp s (accepted s .aeadOpen w s.gq.privileged))) ∧
    (∀ (w : JobWords) (s : State),
      mayAccept s .cmac w s.gq.privileged →
      exec (.cmac w) s = .next (keepOtp s (accepted s .cmac w s.gq.privileged))) ∧
    (∀ (w : JobWords) (s : State),
      mayAccept s .cmacVerify w s.gq.privileged →
      exec (.cmacVerify w) s = .next (keepOtp s (accepted s .cmacVerify w s.gq.privileged))) ∧
    (∀ (w : JobWords) (s : State),
      mayAccept s .kdf w s.gq.privileged →
      exec (.kdf w) s = .next (keepOtp s (accepted s .kdf w s.gq.privileged))) ∧
    (∀ (w : JobWords) (s : State),
      mayAccept s .nonce w s.gq.privileged →
      exec (.nonce w) s = .next (keepOtp s (accepted s .nonce w s.gq.privileged))) ∧
    (∀ (w : JobWords) (s : State),
      mayAccept s .aqmosAlias w s.gq.privileged →
      exec (.aqmosAlias w) s = .next (keepOtp s (accepted s .aqmosAlias w s.gq.privileged))) ∧
    (∀ (w : JobWords) (s : State),
      mayAccept s .aqmosVerify w s.gq.privileged →
      exec (.aqmosVerify w) s = .next (keepOtp s (accepted s .aqmosVerify w s.gq.privileged))) ∧
    (∀ (w : JobWords) (s : State),
      mayAccept s .stsDerive w s.gq.privileged →
      exec (.stsDerive w) s = .next (keepOtp s (accepted s .stsDerive w s.gq.privileged))) ∧
    (∀ (w : JobWords) (s : State),
      mayAccept s .hash w s.gq.privileged →
      exec (.hash w) s = .next (keepOtp s (accepted s .hash w s.gq.privileged))) ∧
    (∀ (w : JobWords) (s : State),
      mayAccept s .ecdsaSign w s.gq.privileged →
      exec (.ecdsaSign w) s = .next (keepOtp s (accepted s .ecdsaSign w s.gq.privileged))) ∧
    (∀ (w : JobWords) (s : State),
      mayAccept s .ecdsaVerify w s.gq.privileged →
      exec (.ecdsaVerify w) s = .next (keepOtp s (accepted s .ecdsaVerify w s.gq.privileged))) ∧
    (∀ (w : JobWords) (s : State),
      mayAccept s .ecdh w s.gq.privileged →
      exec (.ecdh w) s = .next (keepOtp s (accepted s .ecdh w s.gq.privileged))) ∧
    (∀ (w : JobWords) (s : State),
      mayAccept s .random w s.gq.privileged →
      exec (.random w) s = .next (keepOtp s (accepted s .random w s.gq.privileged))) ∧
    (∀ (w : JobWords) (s : State),
      mayAccept s .importKey w s.gq.privileged →
      exec (.importBlob w) s = .next (keepOtp s (accepted s .importKey w s.gq.privileged))) ∧
    (∀ (w : JobWords) (s : State),
      mayAccept s .invalidate w s.gq.privileged →
      exec (.invalidate w) s = .next (keepOtp s (accepted s .invalidate w s.gq.privileged))) ∧
    (∀ (w : JobWords) (s : State),
      mayAccept s .verdict w s.gq.privileged →
      exec (.verdict w) s = .next (keepOtp s (accepted s .verdict w s.gq.privileged))) ∧
    (∀ (pm : Bool) (w : JobWords) (s : State),
      mayAccept s .keyWrite w pm →
      exec (.keyWrite pm w) s = .next (keepOtp s (accepted s .keyWrite w pm))) ∧
    (∀ (pm : Bool) (w : JobWords) (s : State),
      mayAccept s .tagLoad w pm →
      exec (.tagLoad pm w) s = .next (keepOtp s (accepted s .tagLoad w pm)))

/-- The job that its class offers first, and that meets no refusal, starts on its engine, after the re-mask of its slot that is under way, with its key in freshly masked working shares and, where it opens the staging window, its first segment taken; GQ_FREE frees a completed tag and clears its output, GQ_CANCEL ends a held job with RETRY, a read of GQ_DONE delivers and drops the oldest completion and latches its tick; an orphan that no running job uses is zeroised; 384,000 ticks after a context's oldest proof the stale proofs of its record go; the tests after a mismatch take out an engine that fails and keep the mismatches of the last 10 s while they are fewer than three; in Chalk the known-answer tests run 60 s after the last, and a re-mask pass gives every valid slot a fresh mask 5 s after the last; a TRNG alarm restarts it, is counted and noted, and ends the jobs that need randomness with RETRY; a good restart clears the failures, and a third failed one takes the TRNG out and ends those jobs with WRONG_STATE; a reseed, 1 s after the last, clears the request count. -/
def Obligations.GulesServices : Prop :=
    (∀ (t : Fin 48) (j : Job) (e : Nat) (u v : State) (s : State),
      pickJob s = some (t, j, e) →
      jobAt s t = some j →
      startRefusal s j e = none →
      u = (if (opUse j.op).isSome then remaskWait s j.w.slot.toNat else s) →
      v = (loadShares u j e).2 →
      exec (.gqJobDispatch) s = .next (keepOtp s (segLands (setJob v t (some (takeSeg v { j with phase := .running, engine := e, shares := (loadShares u j e).1 }))) j))) ∧
    (∀ (tag : BitVec 6) (j : Job) (s : State),
      vgetN s.gq.jobs tag.toNat none = some j →
      j.phase = .done →
      exec (.gqFree tag) s = .next ({ s with gq := { s.gq with
          jobs := vmodN s.gq.jobs tag.toNat fun _ => none
          outBuf := memClear s.gq.outBuf (256 * tag.toNat) 256 } })) ∧
    (∀ (tag : Fin 48) (j : Job) (s : State),
      jobAt s tag = some j →
      j.phase = .held →
      exec (.gqCancel (BitVec.ofNat 6 tag.val)) s = .next (keepOtp s (finishJob s tag .retry []))) ∧
    (∀ (d : JobDone) (ds : List JobDone) (s : State),
      s.gq.dones = d :: ds →
      exec (.gqDoneRead) s = .next ({ s with
          lastRead := leBytes 4 ((statusCode d.status).toNat + 65536 * d.tag.val + 4194304)
          gq := { s.gq with dones := ds, doneTick := BitVec.ofNat 32 d.tick } })) ∧
    (∀ (n : Fin 224) (s : State),
      (orphansWaiting s).find? (fun n => !slotInUse s n) = some n →
      exec (.orphanZeroise) s = .next (keepOtp s (zeroiseOrphan s n))) ∧
    (∀ (ctx : Fin 160) (a : Nat) (l : List Nat) (t : State) (s : State),
      proofTicks s.gq.proofs[ctx] = a :: l →
      t = elapseTo s (l.foldl Nat.min a + 384001) →
      exec (.proofRecordExpire ctx) s = .next (keepOtp s (modProof t ctx (dropStale t)))) ∧
    (∀ (failA failB : Bool) (t : State) (s : State),
      s.gq.katDue = true →
      t = katRun { s with gq := { s.gq with katDue := false } } failA failB →
      ((t.gq.mismatches.filter fun a => decide (now t ≤ a + 10 * ticksPerSec)).length < 3) →
      exec (.mismatchKat failA failB) s = .next (keepOtp s ({ t with gq := { t.gq with mismatches := t.gq.mismatches.filter fun a => decide (now t ≤ a + 10 * ticksPerSec) } }))) ∧
    (∀ (failA failB : Bool) (due : Nat) (t u : State) (s : State),
      s.pwr.pstate = .chalk →
      due = s.bg.times.kat + 60 * ticksPerSec →
      t = countLate (elapseChalk s due) due (60 * ticksPerSec) →
      u = { t with gq := { t.gq with engAOut := t.gq.engAOut || failA, engBOut := t.gq.engBOut || failB } } →
      exec (.knownAnswerTest failA failB) s = .next (keepOtp s ({ u with bg := { u.bg with times := { u.bg.times with kat := chalkNow u } } }))) ∧
    (∀ (due : Nat) (t : State) (s : State),
      s.pwr.pstate = .chalk →
      due = s.bg.times.remask + 5 * ticksPerSec →
      t = countLate (elapseChalk s due) due (5 * ticksPerSec) →
      exec (.remaskPass) s = .next (keepOtp s ({ t with
          freeCtr := t.freeCtr + 224
          keys := { t.keys with slots := Vector.ofFn fun n : Fin 224 => if (t.keys.slots[n]).state = .valid then { t.keys.slots[n] with mask := Config.freeBytes (t.freeCtr + n.val) 48 } else t.keys.slots[n] }
          bg := { t.bg with remaskAt := some t.clock, times := { t.bg.times with remask := chalkNow t } } }))) ∧
    (∀ (s : State),
      s.gq.trngOut = false →
      exec (.trngHealthFail) s = .next (keepOtp s (endRandomJobs (anomSet { s with gq := { s.gq with trngRestart := true, nTrng := satInc s.gq.nTrng } } 5) .retry))) ∧
    (∀ (s : State),
      s.gq.trngRestart = true →
      exec (.trngRestartDone true) s = .next ({ s with gq := { s.gq with trngRestart := false, trngFails := 0 } })) ∧
    (∀ (s : State),
      s.gq.trngRestart = true →
      2 ≤ s.gq.trngFails →
      exec (.trngRestartDone false) s = .next (keepOtp s (endRandomJobs { s with gq := { s.gq with trngRestart := false, trngFails := 3, trngOut := true } } .wrongState))) ∧
    (∀ (t : State) (s : State),
      t = elapseTo s (s.gq.drbgAt + ticksPerSec) →
      exec (.drbgReseed) s = .next (keepOtp s ({ t with gq := { t.gq with drbgReqs := 0, drbgAt := now t } })))

/-- A session start with a loaded K_RID powers the tag with a rotating identifier made from K_RID and the session counter and counts the session; flags outlast the gap as the standard lets them (log entry 15). Every other command first ends a reader hold, completes the session counter's commit and serves waiting accesses (tagCommand). With the tag powered: Select sets SL or an inventoried flag by its action and keeps its truncation; Query takes the round's link parameters, inverts the flag of a tag singulated in the same session, and draws a slot where SL and the flag match; QueryAdjust changes Q and draws a slot, QueryRep steps the slot counter; an ACK with the RN16 answers PC and identifier; NAK returns to Arbitrate; Req_RN gives a handle and opens the tag; an unsupported command has no effect of its own. -/
def Obligations.YardTagInventory : Prop :=
    (∀ (u : State) (k : Bytes) (s : State),
      u = s1Settle (keptFlags { s with tag := ridSettle s.tag }) →
      u.tag.kRid = some k →
      exec (.tagSessionStart) s = .next (keepOtp s (tagServe { u with tag := { tagDark u.tag with
          powered := true, ridPending := true, nSession := satInc (tagDark u.tag).nSession
          rid := (Config.aes k ([0x52, 0x49, 0x44, 0x00] ++ beBytes 4 (ridCtr u.tag) ++ zeros 8)).take 12 } }))) ∧
    (∀ (target action : BitVec 3) (bank : BitVec 2) (pointer : W16) (mask : List Bool) (truncate : Bool) (t : State) (v : Bool) (s : State),
      t = tagCommand s →
      t.tag.powered = true →
      target.toNat < 4 →
      v = selectAct action.toNat (selectMatch t bank.toNat pointer.toNat mask) false (bitAt t.tag.inventoried.toNat target.toNat) →
      exec (.tagSelect target action bank pointer mask truncate) s = .next (keepOtp s ({ t with tag := { setTagState t.tag .ready with
          trunc := none
          s1At := if target.toNat = 1 ∧ v = true then t.clock else t.tag.s1At
          inventoried := if v then t.tag.inventoried ||| BitVec.ofNat 4 (2 ^ target.toNat)
            else t.tag.inventoried &&& ~~~(BitVec.ofNat 4 (2 ^ target.toNat)) } }))) ∧
    (∀ (action : BitVec 3) (bank : BitVec 2) (pointer : W16) (mask : List Bool) (truncate : Bool) (t : State) (s : State),
      t = tagCommand s →
      t.tag.powered = true →
      exec (.tagSelect 4 action bank pointer mask truncate) s = .next (keepOtp s ({ t with tag := { setTagState t.tag .ready with
          trunc := if truncate ∧ bank = 1 then some (pointer.toNat + mask.length) else none
          sl := selectAct action.toNat (selectMatch t bank.toNat pointer.toNat mask) true t.tag.sl } }))) ∧
    (∀ (dr : Bool) (miller : BitVec 2) (trext : Bool) (sel : BitVec 2) (session : Fin 4) (target : Bool) (q : BitVec 4) (t : State) (x y : Tag) (s : State),
      t = tagCommand s →
      t.tag.powered = true →
      y = (if tagSingled t.tag && t.tag.session = session then invertFlag t.clock t.tag else t.tag) →
      x = { y with session := session, q := q.toNat, dr := dr, miller := miller, trext := trext } →
      (if sel = 2 then !x.sl else if sel = 3 then x.sl else true) = true →
      bitAt x.inventoried.toNat session.val = target →
      exec (.tagQuery dr miller trext sel session target q) s = .next (keepOtp s (drawSlot { t with tag := x }))) ∧
    (∀ (session : Fin 4) (upDn : BitVec 3) (t : State) (s : State),
      t = tagCommand s →
      t.tag.powered = true →
      t.tag.session = session →
      upDn = 6 ∨ upDn = 0 ∨ upDn = 3 →
      t.tag.st = .arbitrate ∨ t.tag.st = .reply →
      exec (.tagQueryAdjust session upDn) s = .next (keepOtp s (drawSlot { t with tag := { t.tag with
          q := if upDn = 6 then Nat.min 15 (t.tag.q + 1) else if upDn = 3 then t.tag.q - 1 else t.tag.q } }))) ∧
    (∀ (session : Fin 4) (t : State) (s : State),
      t = tagCommand s →
      t.tag.powered = true →
      t.tag.session = session →
      t.tag.st = .arbitrate →
      (if t.tag.slotCtr = 0 then 32767 else t.tag.slotCtr - 1) ≠ 0 →
      exec (.tagQueryRep session) s = .next (keepOtp s ({ t with tag := { t.tag with slotCtr := if t.tag.slotCtr = 0 then 32767 else t.tag.slotCtr - 1 } }))) ∧
    (∀ (rn : W16) (t : State) (s : State),
      t = tagCommand s →
      t.tag.powered = true →
      t.tag.st = .reply →
      rn = t.tag.rn16 →
      exec (.tagAck rn) s = .next (keepOtp s (epcReply { t with tag := setTagState t.tag .acknowledged }))) ∧
    (∀ (t : State) (s : State),
      t = tagCommand s →
      t.tag.powered = true →
      t.tag.st ≠ .ready →
      exec (.tagNak) s = .next (keepOtp s ({ t with tag := setTagState t.tag .arbitrate }))) ∧
    (∀ (rn : W16) (t : State) (s : State),
      t = tagCommand s →
      t.tag.powered = true →
      t.tag.st = .acknowledged →
      rn = t.tag.rn16 →
      exec (.tagReqRn rn) s = .next (keepOtp s (tagData { (drawNat t 65536).2 with tag := { setTagState (drawNat t 65536).2.tag .openState with
          handle := BitVec.ofNat 16 (drawNat t 65536).1 } } (beBytes 2 (drawNat t 65536).1)))) ∧
    (∀ (s : State),
      exec (.tagUnsupportedCommand) s = .next (keepOtp s (tagCommand s)))

/-- With the handle of an open tag: Read answers the words that stand open to it and holds the steward's accesses until its reply is sent; a Write of a user word that it may write, with the supply present or field energy enough, no steward write under way and a good cell, writes the page through its shadow; in Secured, with the User bank not permanently locked, Lock changes that bank's two bits, and Untraceable hides what it names; Authenticate with a loaded key, a good challenge and no sixteen failures before clears the failures, notes the key and, with key 1, secures the tag; Kill answers an error. The steward's write that the reader's Read or Write finds is running or has ended (tagReach, log entry 91). A steward access with no command behind it that has waited 25 ms for the memory is dropped with its count. A collapse of the field of a tag without F_VBAT outside any write ends the session and leaves the counter's commit unmade; in a reader's write it leaves the page torn at the named step; with F_VBAT present the field alone is gone. -/
def Obligations.YardTagMemoryAndSecurity : Prop :=
    (∀ (handle : W16) (bank : BitVec 2) (word : W16) (count : Byte) (sent : Bool) (t u : State) (d : Bytes) (s : State),
      t = tagReach s →
      tagOpen t handle = true →
      u = (if bank = 3 then touchWords t word.toNat (if count = 0 then 1024 - word.toNat else count.toNat) else t) →
      tagReadBank u bank.toNat word.toNat count.toNat = .inr d →
      exec (.tagRead handle bank word count sent) s = .next (keepOtp s ({ tagData u d with tag := { (tagData u d).tag with readerHold := !sent } }))) ∧
    (∀ (handle word data : W16) (energy sent : Bool) (t u : State) (s : State),
      t = tagReach s →
      tagOpen t handle = true →
      (tagHarvest t.tag && !energy) = false →
      word.toNat < 1024 →
      mayWriteUser t.tag word.toNat = true →
      stewardWriting t.tag = false →
      u = tagData (tagWriteAt t (wordPage word.toNat) (2 * (word.toNat % 32)) (leBytes 2 data.toNat)) [] →
      exec (.tagWrite handle 3 word data energy false sent) s = .next (keepOtp s ({ u with tag := { u.tag with readerHold := !sent } }))) ∧
    (∀ (handle : W16) (mask action : BitVec 10) (t : State) (s : State),
      t = tagCommand s →
      tagOpen t handle = true →
      t.tag.st = .secured →
      mask.toNat < 4 →
      t.tag.userPerma = false →
      exec (.tagLock handle mask action) s = .next (keepOtp s (tagData { t with tag := { t.tag with
          userLocked := if bitAt mask.toNat 1 then bitAt action.toNat 1 else t.tag.userLocked
          userPerma := if bitAt mask.toNat 0 then bitAt action.toNat 0 else t.tag.userPerma } } []))) ∧
    (∀ (handle : W16) (keyId : Byte) (m : TagMethod) (t u : State) (s : State),
      t = tagCommand s →
      tagOpen t handle = true →
      t.tag.authFails < 16 →
      m ≠ .unsupported →
      m ≠ .tam1 →
      (tagKey t.tag keyId.toNat).isSome = true →
      u = { t with freeCtr := t.freeCtr + 1, tag := { t.tag with authTried := true, authFails := 0, authKey := some keyId.toNat, nAuthOk := satInc t.tag.nAuthOk, st := if keyId = 1 then .secured else t.tag.st } } →
      exec (.tagAuthenticate handle m keyId true) s = .next (keepOtp s (tagData u (Config.freeBytes t.freeCtr 16)))) ∧
    (∀ (handle : W16) (tid : BitVec 2) (user : Bool) (t : State) (s : State),
      t = tagCommand s →
      tagOpen t handle = true →
      t.tag.st = .secured →
      tid ≠ 3 →
      exec (.tagUntraceable handle tid user) s = .next (keepOtp s (tagData { t with tag := { t.tag with tidHide := tid.toNat, publicHide := user } } []))) ∧
    (∀ (handle : W16) (t : State) (s : State),
      t = tagCommand s →
      tagOpen t handle = true →
      exec (.tagKill handle) s = .next (keepOtp s (tagError t 0x00))) ∧
    (∀ (a : TagAccess) (as : List TagAccess) (t : State) (s : State),
      s.tag.steward = a :: as →
      a.cmd = none →
      s.tag.readerHold = true ∨ s.orr.ash = true →
      t = elapseTo s (a.since + 25 * 38400) →
      exec (.tagWaitTimeout) s = .next (keepOtp s ({ t with tag := { t.tag with steward := as, nBusy := satInc t.tag.nBusy } }))) ∧
    (∀ (point : TagPoint) (s : State),
      s.tag.supplied = false →
      exec (.tagFieldCollapse .nothing point) s = .next (keepOtp s ({ s with freeCtr := s.freeCtr + 1, tag := { tagDark { s.tag with ridCommit := false } with
            steward := s.tag.steward.filter fun a => !a.shadowed } }))) ∧
    (∀ (tear : TagTear) (point : TagPoint) (s : State),
      s.tag.supplied = true →
      tearTarget s tear = none →
      exec (.tagFieldCollapse tear point) s = .next (keepOtp s (tagServe { s with tag := { ridSettle s.tag with readerHold := false } }))) ∧
    (∀ (point : TagPoint) (pg : Fin 32) (data : Mem) (word : Fin 1024) (x : W16) (u t v : State) (s : State),
      s.tag.supplied = false →
      u = { s with freeCtr := s.freeCtr + 1, tag := ridSettle s.tag } →
      tearTarget u (.reader word x) = some (pg, data) →
      t = touchPage u pg →
      v = setTagPage t pg (tearPage t.freeCtr (tagPage t pg) data point) →
      exec (.tagFieldCollapse (.reader word x) point) s = .next (keepOtp s ({ v with freeCtr := t.freeCtr + 1, tag := { tagDark v.tag with steward := v.tag.steward.filter fun a => !a.shadowed } })))

/-- Where the next frame of a lane is on the wire and its check is right under the receiver's epoch (arrival), it is taken. An entry verdict is accepted by a synchronised Argent with outcome 0, and denied with outcome 2 and the mismatch interrupt otherwise; a start verdict opens the permit and is answered 0 where the vehicle state allows it and no readback fault stands, and is denied with outcome 2 unsynchronised, 1 by vehicle state, 3 by a readback fault. VSTATE, RESULT and HEARTBEAT act at the die that hears them (vstateIn, resultIn, heard), the field's carrying FPSTATE; a low EPOCH half is kept, and the high half that follows decides the pair (decidePair, log entry 100). COEX requests reach Argent's pins, grants the field die, which checks what runs under them. PERMIT_STOP ends the permit, PERMIT_ENDED the start session, by reason. -/
def Obligations.BarrierShortFrames : Prop :=
    (∀ (x : BitVec 17) (t : State) (s : State),
      arrival s.bar true 1 = .frame x →
      t = takeShort s true →
      t.bar.hostEnd.synced = true →
      exec (.verdictEntry) s = .next (keepOtp s (sendResult { t with host := { t.host with pmt := { t.host.pmt with entryCtx := some (byte (bitsOf x 9 2)) } } } false (bitsOf x 9 2) 0))) ∧
    (∀ (x : BitVec 17) (t : State) (s : State),
      arrival s.bar true 2 = .frame x →
      t = takeShort s true →
      t.bar.hostEnd.synced = true →
      vehicleAllows t.host.vs = true →
      t.host.pmt.readbackFault = false →
      exec (.verdictStart) s = .next (keepOtp s (sendResult (sendVStateIfChanged (irqSet { t with host := { t.host with pmt := { t.host.pmt with
          active := true, ctx := byte (bitsOf x 9 2), since := t.clock, fbNext := t.clock + 9504, wrong := 0 } } } 5)) true (bitsOf x 9 2) 0))) ∧
    (∀ (x : BitVec 17) (t : State) (s : State),
      arrival s.bar true 2 = .frame x →
      t = takeShort s true →
      t.bar.hostEnd.synced = true →
      vehicleAllows t.host.vs = false →
      exec (.verdictStart) s = .next (keepOtp s (sendResult (irqSet t 15) true (bitsOf x 9 2) 1))) ∧
    (∀ (x : BitVec 17) (t : State) (s : State),
      arrival s.bar true 2 = .frame x →
      t = takeShort s true →
      t.bar.hostEnd.synced = false →
      exec (.verdictStart) s = .next (keepOtp s (sendResult (irqSet (irqSet t 15) 3) true (bitsOf x 9 2) 2))) ∧
    (∀ (x : BitVec 17) (t : State) (s : State),
      arrival s.bar true 2 = .frame x →
      t = takeShort s true →
      t.bar.hostEnd.synced = true →
      vehicleAllows t.host.vs = true →
      t.host.pmt.readbackFault = true →
      exec (.verdictStart) s = .next (keepOtp s (sendResult (irqSet t 15) true (bitsOf x 9 2) 3))) ∧
    (∀ (x : BitVec 17) (t : State) (s : State),
      arrival s.bar true 1 = .frame x →
      t = takeShort s true →
      t.bar.hostEnd.synced = false →
      exec (.verdictEntry) s = .next (keepOtp s (sendResult (irqSet (irqSet t 15) 3) false (bitsOf x 9 2) 2))) ∧
    (∀ (x : BitVec 17) (s : State),
      arrival s.bar false 1 = .frame x →
      exec (.vstate) s = .next (keepOtp s (vstateIn (takeShort s false) x))) ∧
    (∀ (x : BitVec 17) (s : State),
      arrival s.bar false 2 = .frame x →
      exec (.result) s = .next (keepOtp s (resultIn (takeShort s false) (bitAt x.toNat 0) (bitsOf x 8 1) (bitsOf x 12 9)))) ∧
    (∀ (x : BitVec 17) (t : State) (s : State),
      arrival s.bar true 3 = .frame x →
      t = heard (takeShort s true) true (byte (bitsOf x 7 0)) →
      exec (.heartbeat true) s = .next (keepOtp s ({ t with host := { t.host with fpstate := BitVec.ofNat 2 (bitsOf x 9 8) } }))) ∧
    (∀ (x : BitVec 17) (s : State),
      arrival s.bar false 3 = .frame x →
      exec (.heartbeat false) s = .next (keepOtp s (releaseHeld (vstateIn (heard (takeShort s false) false (byte (bitsOf x 15 8))) x)))) ∧
    (∀ (toHost : Bool) (x : BitVec 17) (t : State) (e : BarEnd) (s : State),
      arrival s.bar toHost 4 = .frame x →
      t = takeShort s toHost →
      e = endOf t.bar toHost →
      bitAt x.toNat 16 = false →
      e.rxHi = none →
      exec (.epoch toHost) s = .next (keepOtp s ({ t with bar := setEnd t.bar toHost { e with rxLo := some (BitVec.ofNat 16 x.toNat) } }))) ∧
    (∀ (toHost : Bool) (x : BitVec 17) (lo : W16) (t : State) (e : BarEnd) (s : State),
      arrival s.bar toHost 4 = .frame x →
      t = takeShort s toHost →
      e = endOf t.bar toHost →
      bitAt x.toNat 16 = true →
      e.rxLo = some lo →
      exec (.epoch toHost) s = .next (keepOtp s (decidePair { t with bar := setEnd t.bar toHost { e with rxLo := none, rxHi := none } } toHost
          (BitVec.ofNat 32 (lo.toNat + 65536 * (BitVec.ofNat 16 x.toNat).toNat))))) ∧
    (∀ (x : BitVec 17) (t : State) (s : State),
      arrival s.bar true 6 = .frame x →
      t = takeShort s true →
      exec (.coexReqFrame) s = .next (keepOtp s ({ t with tn := { t.tn with coex := Vector.ofFn fun i : Fin 2 =>
          { t.tn.coex[i] with reqPin := bitAt x.toNat i.val, priPin := bitAt x.toNat (2 + i.val) } } }))) ∧
    (∀ (x : BitVec 17) (t : State) (s : State),
      arrival s.bar false 6 = .frame x →
      t = takeShort s false →
      exec (.coexGntFrame) s = .next (keepOtp s (grantsChecked { t with tn := { t.tn with coex := Vector.ofFn fun i : Fin 2 =>
          { t.tn.coex[i] with gnt := bitAt x.toNat i.val } } }))) ∧
    (∀ (x : BitVec 17) (s : State),
      controlNext s true 1 = true →
      arrival s.bar true 7 = .frame x →
      exec (.permitStop) s = .next (keepOtp s (permitStop (takeShort s true) (lastEndOf (bitsOf x 7 4))))) ∧
    (∀ (x : BitVec 17) (r : Nat) (s : State),
      controlNext s false 1 = true →
      arrival s.bar false 7 = .frame x →
      (bitsOf x 7 4, r) ∈ [(1, 7), (2, 2), (3, 8), (4, 10)] →
      exec (.permitEnded) s = .next (keepOtp s (endStart (takeShort s false) r)))

/-- The next bulk frame within the window is taken (takeBulk). A WRITE to the host reaches the posted-write buffer, a WRITE to the field returns its P credit and writes the address it names; a READ of mapped registers returns its N credit and is answered with their words, and where they clear on reading a copy waits for its resolution; a READ of a window that does not map is answered with PARAM_RANGE, one of a register whose copy waits with RETRY. A COMPLETION marks its bridge read done. RCD_RESOLVE clears the delivered bits and drops the copy; 1 ms after it was made the copy is dropped with nothing cleared. CREDIT adds the returned N or P credits. An acknowledged frame leaves its lane; a NAK of a frame judged mismatched drops it, with its verdict discarded, and its sender leaves SYNCED (mismatchAt). A frame without its acknowledgement is sent again, and after four failed copies the link retrains (log entry 102). A copy that fails its check is judged (badCopy). -/
def Obligations.BarrierBulkFramesAndCredits : Prop :=
    (∀ (f : BulkFrame) (s : State),
      bulkArrival s.bar true .write = some f →
      f.data.isEmpty = false →
      exec (.bulkWrite true) s = .next (keepOtp s (unitIn (takeBulk s true) f.addr.toNat f.data))) ∧
    (∀ (f : BulkFrame) (s : State),
      bulkArrival s.bar false .write = some f →
      f.data.isEmpty = false →
      exec (.bulkWrite false) s = .next (keepOtp s (fieldWrite (returnCredit (takeBulk s false) false false 1) f.addr.toNat f.data))) ∧
    (∀ (f : BulkFrame) (a : Nat) (t : State) (d : Bytes) (s : State),
      bulkArrival s.bar false .read = some f →
      f.addr.toNat = 0x01000000 + a →
      t = returnCredit (takeBulk s false) false true 1 →
      ((s.bar.rcd.any fun c => c.addr == a) = false) →
      f.data.isEmpty = false →
      bridgeWords t a (f.data.length / 4) = some d →
      bridgeRcd a = false →
      exec (.bulkRead) s = .next (keepOtp s (sendBulk t true .completion f.tag 0 d))) ∧
    (∀ (f : BulkFrame) (a : Nat) (t u : State) (d : Bytes) (s : State),
      bulkArrival s.bar false .read = some f →
      f.addr.toNat = 0x01000000 + a →
      t = returnCredit (takeBulk s false) false true 1 →
      ((s.bar.rcd.any fun c => c.addr == a) = false) →
      f.data.isEmpty = false →
      bridgeWords t a (f.data.length / 4) = some d →
      bridgeRcd a = true →
      u = sendBulk t true .completion f.tag 0 d →
      exec (.bulkRead) s = .next (keepOtp s ({ u with bar := { u.bar with
          rcd := u.bar.rcd ++ [{ tag := f.tag, addr := a, value := BitVec.ofNat 32 (leNat d), since := u.clock }] } }))) ∧
    (∀ (f : BulkFrame) (a : Nat) (t : State) (s : State),
      bulkArrival s.bar false .read = some f →
      f.addr.toNat = 0x01000000 + a →
      t = returnCredit (takeBulk s false) false true 1 →
      ((s.bar.rcd.any fun c => c.addr == a) = false) →
      f.data.isEmpty = false →
      bridgeWords t a (f.data.length / 4) = none →
      exec (.bulkRead) s = .next (keepOtp s (sendBulk t true .completion f.tag (BitVec.ofNat 32 (statusCode .paramRange).toNat) []))) ∧
    (∀ (f : BulkFrame) (a : Nat) (t : State) (s : State),
      bulkArrival s.bar false .read = some f →
      f.addr.toNat = 0x01000000 + a →
      t = returnCredit (takeBulk s false) false true 1 →
      ((s.bar.rcd.any fun c => c.addr == a) = true) →
      exec (.bulkRead) s = .next (keepOtp s (sendBulk t true .completion f.tag (BitVec.ofNat 32 (statusCode .retry).toNat) []))) ∧
    (∀ (f : BulkFrame) (t : State) (s : State),
      bulkArrival s.bar true .completion = some f →
      t = takeBulk s true →
      exec (.bulkCompletion) s = .next (keepOtp s ({ t with host := { t.host with bridge := t.host.bridge.map fun r =>
          if r.tag == f.tag && r.done.isNone then { r with done := some (BitVec.ofNat 16 f.addr.toNat, f.data), since := t.clock } else r } }))) ∧
    (∀ (f : BulkFrame) (x : RcdCopy) (t : State) (s : State),
      bulkArrival s.bar false .rcdResolve = some f →
      t = takeBulk s false →
      t.bar.rcd.find? (fun c => c.tag == f.tag) = some x →
      exec (.rcdResolve) s = .next (keepOtp s (anomClear { t with bar := { t.bar with rcd := t.bar.rcd.filter fun y => y.tag != f.tag } } x.value (bitsOf f.addr 3 0)))) ∧
    (∀ (x : RcdCopy) (xs : List RcdCopy) (t : State) (s : State),
      s.bar.rcd = x :: xs →
      t = elapseToClock s (x.since + 38400) →
      exec (.rcdResolveDeadline) s = .next ({ t with bar := { t.bar with rcd := xs } })) ∧
    (∀ (toHost : Bool) (n : BitVec 17) (t : State) (l : BulkLane) (s : State),
      arrival s.bar toHost 5 = .frame n →
      bitsOf n 1 0 = 1 →
      t = takeShort s toHost →
      l = bulkLane t.bar (!toHost) →
      exec (.credit toHost) s = .next (keepOtp s ({ t with bar := setBulk t.bar (!toHost) { l with
          backN := BitVec.ofNat 12 (bitsOf n 13 2)
          creditN := Nat.min 8 (l.creditN + (BitVec.ofNat 12 (bitsOf n 13 2) - l.backN).toNat) } }))) ∧
    (∀ (n : BitVec 17) (t : State) (l : BulkLane) (s : State),
      arrival s.bar true 5 = .frame n →
      bitsOf n 1 0 = 0 →
      t = takeShort s true →
      l = bulkLane t.bar false →
      exec (.credit true) s = .next (keepOtp s (bwriteGo { t with bar := setBulk t.bar false { l with
          backP := BitVec.ofNat 12 (bitsOf n 13 2)
          creditP := Nat.min 32 (l.creditP + (BitVec.ofNat 12 (bitsOf n 13 2) - l.backP).toNat) } }))) ∧
    (∀ (toHost : Bool) (payload : BitVec 17) (l : PrioLane) (n : Nat) (f : ShortFrame) (s : State),
      s.bar.link = .up →
      bitAt payload.toNat 1 = false →
      bitAt payload.toNat 0 = false →
      l = prioLane s.bar (!toHost) →
      ackedAt l payload true = some (n, f) →
      f.taken = true →
      f.mismatch = false →
      exec (.ack toHost payload) s = .next ({ s with bar := setPrio s.bar (!toHost) (dropShort l n) })) ∧
    (∀ (payload : BitVec 17) (l : BulkLane) (s : State),
      s.bar.link = .up →
      bitAt payload.toNat 1 = false →
      bitAt payload.toNat 0 = true →
      l = s.bar.bulkToHost →
      exec (.ack false payload) s = .next (keepOtp s (pump { s with bar := { s.bar with bulkToHost := { l with frames := bulkAcked (byte (bitsOf payload 9 2)) l.frames } } }))) ∧
    (∀ (toHost : Bool) (payload : BitVec 17) (l : PrioLane) (n : Nat) (f : ShortFrame) (t : State) (s : State),
      s.bar.link = .up →
      bitAt payload.toNat 1 = true →
      bitAt payload.toNat 0 = false →
      l = prioLane s.bar (!toHost) →
      ackedAt l payload false = some (n, f) →
      f.mismatch = true →
      t = { s with bar := setPrio s.bar (!toHost) (dropShort l n) } →
      exec (.nak toHost payload) s = .next (keepOtp s (mismatchAt (if isVerdict (!toHost) f.kind.val then discardVerdict t f else t) toHost))) ∧
    (∀ (toHost : Bool) (f : ShortFrame) (fs : List ShortFrame) (s : State),
      s.bar.link = .up →
      (prioLane s.bar toHost).frames = f :: fs →
      f.failed < 3 →
      exec (.ackTimeout toHost false) s = .next ({ s with bar := setPrio s.bar toHost { prioLane s.bar toHost with frames := { f with failed := f.failed + 1 } :: fs } })) ∧
    (∀ (toHost : Bool) (f : ShortFrame) (fs : List ShortFrame) (s : State),
      s.bar.link = .up →
      (prioLane s.bar toHost).frames = f :: fs →
      3 ≤ f.failed →
      exec (.ackTimeout toHost false) s = .next (keepOtp s (retrain s))) ∧
    (∀ (toHost : Bool) (noise : BitVec 38) (n : Nat) (f : ShortFrame) (s : State),
      s.bar.link = .up →
      nextShort (prioLane s.bar toHost) = some (n, f) →
      onWire toHost n f = true →
      bitsPass (receiverEnd s.bar toHost).epoch (shortImage f ^^^ noise) = false →
      exec (.frameCheckFail toHost false noise) s = .next (keepOtp s (badCopy s toHost (shortImage f ^^^ noise))))

/-- A millisecond after its last, each end of an UP link sends a HEARTBEAT, Argent with ALIVE advanced, the field die in Chalk. With the link not asleep, 3 ms without one make Argent hold the field silent (fieldSilent) and, in Chalk, the field die the host silent, ending a start session with EPOCH; 10 ms without a change of the field's ALIVE set the stall, its interrupt, and stop the permit (log entry 103). An unsynchronised end of an UP link sends its EPOCH pair 100 µs after the last. Lanes aligned within 50 µs of a training from DOWN bring the link up, from UP leave epochs as they are; a lost alignment and RETRAIN retrain; a training from DOWN that is not done in 50 µs ends DOWN; a powered link that is DOWN trains at once, or a millisecond after its last attempt. SLEEP takes the link down, grants being checked. H_WAKE pulses first when there is something to deliver, then every 10 ms to ten pulses (log entry 104). The permit ends 15 s after its start; an entry verdict held for 2 s is discarded and counted. A reset of the host die resets its registers, drops the lanes, returns posted records to the queue, takes the link down and the coexistence pins low. -/
def Obligations.BarrierTimersAndLink : Prop :=
    (∀ (t : State) (e : BarEnd) (s : State),
      s.bar.link = .up →
      t = elapseToClock s (s.bar.hostEnd.beatAt + 38400) →
      e = { t.bar.hostEnd with beatAt := t.clock, alive := t.bar.hostEnd.alive + 1 } →
      exec (.heartbeatPeriod true) s = .next (keepOtp s (sendShort { t with bar := { t.bar with hostEnd := e } } false 3 (vstatePayload t.host + BitVec.ofNat 17 (256 * e.alive.toNat))))) ∧
    (∀ (t : State) (s : State),
      s.bar.link = .up →
      s.pwr.pstate = .chalk →
      t = elapseToClock s (s.bar.fieldEnd.beatAt + 38400) →
      exec (.heartbeatPeriod false) s = .next (keepOtp s (sendShort { t with bar := { t.bar with fieldEnd := { t.bar.fieldEnd with beatAt := t.clock } } } true 3 (fieldBeat t)))) ∧
    (∀ (s : State),
      s.bar.slept = false →
      s.bar.hostEnd.silent = false →
      exec (.heartbeatLoss true) s = .next (keepOtp s (fieldSilent (elapseToClock s (s.bar.hostEnd.heardAt + 3 * 38400))))) ∧
    (∀ (t : State) (s : State),
      s.bar.slept = false →
      s.bar.fieldEnd.silent = false →
      s.pwr.pstate = .chalk →
      t = elapseToClock s (s.bar.fieldEnd.heardAt + 3 * 38400) →
      exec (.heartbeatLoss false) s = .next (keepOtp s (stopStart { t with bar := { t.bar with fieldEnd := { t.bar.fieldEnd with silent := true } } } 9 4))) ∧
    (∀ (t : State) (s : State),
      s.bar.link = .up →
      s.bar.hostEnd.silent = false →
      s.bar.stewardStall = false →
      t = elapseToClock s (s.bar.hostEnd.rxAliveAt + 10 * 38400) →
      exec (.aliveStall) s = .next (keepOtp s (permitStop (irqSet { t with bar := { t.bar with stewardStall := true } } 4) 9))) ∧
    (∀ (host : Bool) (s : State),
      s.bar.link = .up →
      (endOf s.bar host).synced = false →
      exec (.epochPairTimer host) s = .next (keepOtp s (sendPair (elapseToClock s ((endOf s.bar host).pairAt + 3840)) host))) ∧
    (∀ (s : State),
      s.bar.link = .training →
      s.clock ≤ s.bar.trainSince + 1920 →
      s.bar.retrain = false →
      exec (.lanesAligned) s = .next (keepOtp s (upFromDown s))) ∧
    (∀ (s : State),
      s.bar.link = .training →
      s.clock ≤ s.bar.trainSince + 1920 →
      s.bar.retrain = true →
      exec (.lanesAligned) s = .next (keepOtp s (pump (irqSet { s with bar := { s.bar with link := .up, retrain := false } } 1)))) ∧
    (∀ (s : State),
      s.bar.link = .up →
      exec (.retrain) s = .next (keepOtp s (retrain s))) ∧
    (∀ (s : State),
      s.bar.link = .up →
      exec (.laneAlignmentLoss) s = .next (keepOtp s (retrain s))) ∧
    (∀ (t : State) (s : State),
      s.bar.link = .training →
      s.bar.retrain = false →
      t = grantsChecked (linkDown (elapseToClock s (s.bar.trainSince + 1920)) false) →
      exec (.linkTrainTimeout) s = .next (keepOtp s ({ t with bar := { t.bar with trainSince := s.bar.trainSince } }))) ∧
    (∀ (s : State),
      s.bar.link = .down →
      linkPowered s = true →
      exec (.linkTrainStart) s = .next ({ s with bar := { s.bar with link := .training, retrain := false, trainSince := s.clock, slept := false } })) ∧
    (∀ (t : State) (s : State),
      linkPowered s = true →
      s.bar.slept = false →
      s.bar.link = .down →
      t = elapseToClock s (s.bar.trainSince + 38400) →
      exec (.linkRetryTimer) s = .next ({ t with bar := { t.bar with link := .training, retrain := false, trainSince := t.clock, slept := false } })) ∧
    (∀ (s : State),
      exec (.sleep true) s = .next (keepOtp s (grantsChecked (linkSleep s)))) ∧
    (∀ (s : State),
      s.pwr.entering.isSome = true →
      exec (.sleep false) s = .next (keepOtp s (grantsChecked (linkSleep s)))) ∧
    (∀ (s : State),
      s.bar.link ≠ .up →
      s.pwr.pstate = .chalk →
      toDeliver s = true →
      s.bar.wakeFrom = none →
      exec (.hWakePulse) s = .next ({ s with bar := { s.bar with wakeFrom := some s.clock, wakes := 1 } })) ∧
    (∀ (n : Nat) (t : State) (s : State),
      s.bar.link ≠ .up →
      s.pwr.pstate = .chalk →
      toDeliver s = true →
      s.bar.wakeFrom = some n →
      s.bar.wakes < 10 →
      t = elapseToClock s (n + 384000 * s.bar.wakes) →
      exec (.hWakePulse) s = .next ({ t with bar := { t.bar with wakes := t.bar.wakes + 1 } })) ∧
    (∀ (s : State),
      s.host.pmt.active = true →
      exec (.permitBackstopTimeout) s = .next (keepOtp s (permitEndedByHost (elapseToClock s (s.host.pmt.since + 15 * 38400000)) 2 2))) ∧
    (∀ (f : VerdictFrame × Nat) (fs : List (VerdictFrame × Nat)) (t : State) (s : State),
      s.bar.heldEntry = f :: fs →
      t = elapseTo s (f.2 + 2 * 38400000) →
      exec (.entryVerdictDiscard) s = .next ({ t with
          bar := { t.bar with heldEntry := fs }
          bg := { t.bg with pu := { t.bg.pu with vDiscard := satInc t.bg.pu.vDiscard } } })) ∧
    (∀ (t : State) (s : State),
      ((s.bar.awaiting.any fun f => startGrant f.grant.toNat) = false) →
      t = { s with
          host := { revision := s.host.revision }
          bar := { s.bar with
            link := .down, retrain := false, slept := false, trainSince := s.clock
            hostEnd := {}, stewardStall := false, toHost := {}, toField := {}
            bulkToHost := { creditP := 64 }, bulkToField := { creditP := 32, creditN := 8 }, awaiting := [] }
          cmds := { s.cmds with
            outbox := s.cmds.posted.map (·.1) ++ s.cmds.outbox, posted := [], unitAt := 0, repostWait := true } } →
      exec (.hostDieReset) s = .next (keepOtp s (grantsChecked (coexPinsLow t))))

/-- While Argent runs: SPI_READ delivers the summary byte, the gap and the bytes from its address on, clearing the error latch bits whose bytes it delivered, and so for CAN_ERRLAT alone; SPI_WRITE applies its bytes in order (spiApply). A bridge read of a bad address or length answers 0xC1, one while the link is not up 0xC2; one whose read completed with OK delivers the bytes clocked and resolves the copy; one not outstanding is posted with an N credit and a free tag and answers 0x40, as does one still running. A completion not fetched for 1 ms is dropped with mask 0. A bridge write of at least four bytes to a writable register, with none held, goes to the field die as a posted WRITE of its first four bytes where the link is up and a P credit is free, and is held until then; one to another address or shorter sets its error interrupt. A doorbell with a legal length on a free slot sends the stage and the doorbell; one with length 0, a length above 256 or a busy slot only sets its interrupt. A pop releases the oldest visible record and the slot of a response. A wake request is held while the link is not up; a chip-select conflict sets its interrupt. A read of BR_ANOM delivers and clears its bytes. -/
def Obligations.HostSpiAndMailbox : Prop :=
    (∀ (addr : W16) (n : BitVec 13) (l : List Nat) (s : State),
      s.clk.hostHeld = false →
      l = addrRun addr.toNat n.toNat →
      exec (.spiRead addr n) s = .next (keepOtp s (errLatClear { s with lastRead := miso s 3 (l.map (argentByte s)) } (errLatMask l)))) ∧
    (∀ (addr : W16) (data : Bytes) (s : State),
      s.clk.hostHeld = false →
      exec (.spiWrite addr data) s = .next (keepOtp s (spiApply { s with lastRead := miso s (2 + data.length) [] } none ((addrRun addr.toNat data.length).zip data)))) ∧
    (∀ (addr : BitVec 24) (count clocked : Byte) (s : State),
      s.clk.hostHeld = false →
      breadBad s addr.toNat count.toNat = true →
      exec (.bread addr count clocked) s = .next ({ s with lastRead := miso s 4 (0xC1 :: List.replicate clocked.toNat 0xFF) })) ∧
    (∀ (addr : BitVec 24) (count clocked : Byte) (tag : Fin 8) (t : State) (s : State),
      s.clk.hostHeld = false →
      breadBad s addr.toNat count.toNat = false →
      s.bar.link = .up →
      s.bar.hostEnd.silent = false →
      s.host.bridge.find? (fun r => r.addr == addr.toNat && r.count == count.toNat) = none →
      freeTag s.host.bridge = some tag →
      s.bar.bulkToField.creditN ≠ 0 →
      t = sendBulk s false .read tag (BitVec.ofNat 32 (0x01000000 + addr.toNat)) (zeros (bridgeCut addr.toNat count.toNat)) →
      exec (.bread addr count clocked) s = .next (keepOtp s ({ t with
          bar := { t.bar with bulkToField := { t.bar.bulkToField with creditN := t.bar.bulkToField.creditN - 1 } }
          host := { t.host with bridge := t.host.bridge ++
            [{ tag := tag, addr := addr.toNat, count := count.toNat, cut := bridgeCut addr.toNat count.toNat, since := s.clock }] }
          lastRead := miso s 4 (0x40 :: List.replicate clocked.toNat 0xFF) }))) ∧
    (∀ (addr : BitVec 24) (count clocked : Byte) (s : State),
      s.clk.hostHeld = false →
      breadBad s addr.toNat count.toNat = false →
      s.bar.link ≠ .up →
      exec (.bread addr count clocked) s = .next ({ s with lastRead := miso s 4 (0xC2 :: List.replicate clocked.toNat 0xFF) })) ∧
    (∀ (addr : BitVec 24) (count clocked : Byte) (r : BridgeRead) (s : State),
      s.clk.hostHeld = false →
      breadBad s addr.toNat count.toNat = false →
      s.bar.link = .up →
      s.bar.hostEnd.silent = false →
      s.host.bridge.find? (fun r => r.addr == addr.toNat && r.count == count.toNat) = some r →
      r.done = none →
      exec (.bread addr count clocked) s = .next ({ s with lastRead := miso s 4 (0x40 :: List.replicate clocked.toNat 0xFF) })) ∧
    (∀ (addr : BitVec 24) (count clocked : Byte) (r : BridgeRead) (x : W16) (d : Bytes) (t : State) (n : Nat) (s : State),
      s.clk.hostHeld = false →
      breadBad s addr.toNat count.toNat = false →
      s.bar.link = .up →
      s.bar.hostEnd.silent = false →
      s.host.bridge.find? (fun r => r.addr == addr.toNat && r.count == count.toNat) = some r →
      r.done = some (x, d) →
      x.toNat = 0 →
      n = Nat.min clocked.toNat d.length →
      (t = sendResolve { s with host := { s.host with bridge := s.host.bridge.filter fun x => x.tag != r.tag } } r (2 ^ Nat.min 4 n - 1)) →
      exec (.bread addr count clocked) s = .next (keepOtp s ({ t with lastRead := miso s 4 (byte (0x80 + (d.length - 1)) ::
          (d.take n ++ List.replicate (clocked.toNat - (d.take n).length) 0xFF)) }))) ∧
    (∀ (r : BridgeRead) (t : State) (s : State),
      s.clk.hostHeld = false →
      s.host.bridge.find? (fun r => r.done.isSome) = some r →
      t = elapseToClock s (r.since + 38400) →
      exec (.breadCompletionDiscard) s = .next (keepOtp s (sendResolve { t with host := { t.host with bridge := t.host.bridge.filter fun x => x.tag != r.tag } } r 0))) ∧
    (∀ (addr : BitVec 24) (data : Bytes) (t : State) (s : State),
      s.clk.hostHeld = false →
      addr.toNat = 0x010020 ∨ addr.toNat = 0x06000C →
      4 ≤ data.length →
      s.host.bwrite = none →
      s.bar.link ≠ .up →
      t = { s with lastRead := miso s (3 + data.length) [] } →
      exec (.bwrite addr data) s = .next (keepOtp s ({ t with host := { t.host with bwrite := some (addr.toNat, BitVec.ofNat 32 (leAt data 0 4)) } }))) ∧
    (∀ (addr : BitVec 24) (data : Bytes) (t : State) (s : State),
      s.clk.hostHeld = false →
      addr.toNat = 0x010020 ∨ addr.toNat = 0x06000C →
      4 ≤ data.length →
      s.host.bwrite = none →
      s.bar.link = .up →
      waitingWrites s.bar.bulkToField < s.bar.bulkToField.creditP →
      t = { s with lastRead := miso s (3 + data.length) [], host := { s.host with bwrite := none } } →
      exec (.bwrite addr data) s = .next (keepOtp s (sendBulk t false .write 0 (BitVec.ofNat 32 (0x01000000 + addr.toNat))
          (leBytes 4 (BitVec.ofNat 32 (leAt data 0 4) : W32).toNat)))) ∧
    (∀ (addr : BitVec 24) (data : Bytes) (t : State) (s : State),
      s.clk.hostHeld = false →
      addr.toNat = 0x010020 ∨ addr.toNat = 0x06000C →
      4 ≤ data.length →
      s.host.bwrite = none →
      s.bar.link = .up →
      s.bar.bulkToField.creditP ≤ waitingWrites s.bar.bulkToField →
      t = { s with lastRead := miso s (3 + data.length) [] } →
      exec (.bwrite addr data) s = .next (keepOtp s ({ t with host := { t.host with bwrite := some (addr.toNat, BitVec.ofNat 32 (leAt data 0 4)) } }))) ∧
    (∀ (addr : BitVec 24) (data : Bytes) (s : State),
      s.clk.hostHeld = false →
      (addr.toNat ≠ 0x010020 ∧ addr.toNat ≠ 0x06000C) ∨ data.length < 4 →
      exec (.bwrite addr data) s = .next (keepOtp s (irqSet { s with lastRead := miso s (3 + data.length) [] } 13))) ∧
    (∀ (s : State),
      s.clk.hostHeld = false →
      exec (.csConflict) s = .next (keepOtp s (irqSet s 14))) ∧
    (∀ (v : W32) (t : State) (s : State),
      s.clk.hostHeld = false →
      bitsOf v 12 4 ≠ 0 →
      bitsOf v 12 4 ≤ 256 →
      bitAt s.host.mbBusy.toNat (bitsOf v 3 0) = false →
      s.host.stageLeft = 0 →
      s.bar.link = .up →
      t = sendBulk (stageSend s (256 * bitsOf v 3 0) 0 (memReadBytes s.host.stage 0 (bitsOf v 12 4)) (ceilDiv (bitsOf v 12 4) 64))
        false .write 0 0x1000 (leBytes 4 (bitsOf v 3 0 + 16 * bitsOf v 12 4)) →
      exec (.mbDoorbell v) s = .next (keepOtp s ({ t with host := { t.host with
          stageLeft := ceilDiv (bitsOf v 12 4) 64 + 1
          mbBusy := t.host.mbBusy ||| BitVec.ofNat 16 (2 ^ bitsOf v 3 0) } }))) ∧
    (∀ (v : W32) (s : State),
      s.clk.hostHeld = false →
      bitsOf v 12 4 = 0 ∨ 256 < bitsOf v 12 4 ∨ bitAt s.host.mbBusy.toNat (bitsOf v 3 0) = true →
      exec (.mbDoorbell v) s = .next (keepOtp s (irqSet s 11))) ∧
    (∀ (r : RxRecord) (rs : List RxRecord) (s : State),
      s.clk.hostHeld = false →
      visibleRecords s.host = r :: rs →
      exec (.rxqPop) s = .next (keepOtp s (freeUnits s.host.rxq.length { s with host := { s.host with
          rxq := releaseOldest s.host.rxq
          mbBusy := if r.kind = 1 then s.host.mbBusy &&& ~~~(BitVec.ofNat 16 (2 ^ (r.slot.toNat % 16))) else s.host.mbBusy } }))) ∧
    (∀ (s : State),
      s.clk.hostHeld = false →
      s.bar.link ≠ .up →
      exec (.wakeReq) s = .next ({ s with host := { s.host with wakeReq := true } })) ∧
    (∀ (n : BitVec 3) (l : List Nat) (s : State),
      s.clk.hostHeld = false →
      l = addrRun 0x0224 (Nat.min 4 n.toNat) →
      exec (.canErrlatRead n) s = .next (keepOtp s (errLatClear { s with lastRead := miso s 3 (l.map (argentByte s)) } (errLatMask l)))) ∧
    (∀ (n : BitVec 3) (s : State),
      s.clk.hostHeld = false →
      exec (.brAnomRead n) s = .next (keepOtp s (anomClear { s with lastRead := (leBytes 4 (BitVec.ofNat 32 s.bg.anom.toNat : W32).toNat).take (Nat.min 4 n.toNat) }
          (BitVec.ofNat 32 s.bg.anom.toNat) (2 ^ Nat.min 4 n.toNat - 1))))

/-- While Argent runs and takes vehicle state over SPI, a report whose checksum and counter are right is accepted (reportAccepted) and one whose checksum or counter is wrong is rejected; with CAN as the source a report is ignored. VS_ODO is kept and forwarded while the link is not down (log entry 111). VS_CFG is written while unlocked, an illegal TIMEOUT ignored; locked, a write changes nothing, and LOCK sets. A valid state without a report for TIMEOUT falls. A readback sample 500 µs after the last that agrees with the waveform of H_PERMIT_A clears the wrong count, one that disagrees counts; a second one in a row latches the fault and ends the permit; READBACK_FAULT stands for two such samples (log entry 112). A clear at 200 correct samples clears the fault, below it nothing. An enabled door input whose pin holds a new level to its eighth sample takes it with its polarity, sets its interrupt, and is sent as VSTATE (log entry 181). -/
def Obligations.HostVehicleStateAndPermit : Prop :=
    (∀ (v : W32) (s : State),
      s.clk.hostHeld = false →
      s.host.vs.srcCan = false →
      crc8J1850 [s.host.vs.dataId, byte (bitsOf v 7 0), byte (bitsOf v 15 8)] = bitsOf v 23 16 →
      cntOk s.host.vs.lastCnt (BitVec.ofNat 4 (bitsOf v 11 8)) = true →
      exec (.vsReport v) s = .next (keepOtp s (reportAccepted s (BitVec.ofNat 4 (bitsOf v 11 8)) (bitsOf v 2 0)))) ∧
    (∀ (v : W32) (s : State),
      s.clk.hostHeld = false →
      s.host.vs.srcCan = false →
      crc8J1850 [s.host.vs.dataId, byte (bitsOf v 7 0), byte (bitsOf v 15 8)] ≠ bitsOf v 23 16 ∨ cntOk s.host.vs.lastCnt (BitVec.ofNat 4 (bitsOf v 11 8)) = false →
      exec (.vsReport v) s = .next (keepOtp s (reportRejected s))) ∧
    (∀ (v : W32) (s : State),
      s.clk.hostHeld = false →
      s.host.vs.srcCan = true →
      exec (.vsReport v) s = .next (s)) ∧
    (∀ (v : W32) (s : State),
      s.clk.hostHeld = false →
      s.bar.link ≠ .down →
      exec (.vsOdo v) s = .next (keepOtp s (sendBulk { s with host := { s.host with vs := { s.host.vs with odo := v } } } false .write 0 0x1010 (leBytes 4 v.toNat)))) ∧
    (∀ (v : W32) (t : VehicleState) (s : State),
      s.clk.hostHeld = false →
      s.host.vs.lock = false →
      bitAt v.toNat 0 = s.host.vs.srcCan →
      t = { s.host.vs with
          srcCan := bitAt v.toNat 0, dataId := BitVec.ofNat 8 (bitsOf v 15 8)
          timeout := if 10 ≤ bitsOf v 25 16 ∧ bitsOf v 25 16 ≤ 1000 then BitVec.ofNat 10 (bitsOf v 25 16) else s.host.vs.timeout
          lock := bitAt v.toNat 26 } →
      exec (.vsCfgWrite v) s = .next (keepOtp s ({ s with host := { s.host with vs := t } }))) ∧
    (∀ (v : W32) (s : State),
      s.clk.hostHeld = false →
      s.host.vs.lock = true →
      exec (.vsCfgWrite v) s = .next (s)) ∧
    (∀ (s : State),
      s.clk.hostHeld = false →
      exec (.vsCfgLock) s = .next ({ s with host := { s.host with vs := { s.host.vs with lock := true } } })) ∧
    (∀ (t : State) (s : State),
      s.clk.hostHeld = false →
      s.host.vs.valid = true →
      s.host.vs.srcCan = false →
      t = elapseToClock s (s.host.vs.lastAccept + 38400 * s.host.vs.timeout.toNat) →
      exec (.vsTimeout) s = .next (keepOtp s (validFalls t))) ∧
    (∀ (level : Bool) (n : Nat) (t : State) (s : State),
      s.clk.hostHeld = false →
      n = sampleDue s →
      t = elapseToClock s n →
      t.host.pmt.readbackFault = false →
      level = (permitPins t.host.pmt n).1 →
      exec (.permitReadbackSample level) s = .next (keepOtp s ({ t with host := { t.host with pmt := { t.host.pmt with fb := level, fbNext := n + 19200, wrong := 0 } } }))) ∧
    (∀ (level : Bool) (n : Nat) (t : State) (s : State),
      s.clk.hostHeld = false →
      n = sampleDue s →
      t = elapseToClock s n →
      t.host.pmt.readbackFault = false →
      level ≠ (permitPins t.host.pmt n).1 →
      t.host.pmt.wrong = 0 →
      exec (.permitReadbackSample level) s = .next (keepOtp s ({ t with host := { t.host with pmt := { t.host.pmt with fb := level, fbNext := n + 19200, wrong := 1 } } }))) ∧
    (∀ (level : Bool) (n : Nat) (t : State) (u : Permit) (s : State),
      s.clk.hostHeld = false →
      n = sampleDue s →
      t = elapseToClock s n →
      t.host.pmt.readbackFault = false →
      level ≠ (permitPins t.host.pmt n).1 →
      1 ≤ t.host.pmt.wrong →
      u = { t.host.pmt with fb := level, fbNext := n + 19200, wrong := t.host.pmt.wrong + 1 } →
      exec (.permitReadbackSample level) s = .next (keepOtp s (latchReadback { t with host := { t.host with pmt := u } }))) ∧
    (∀ (a : State) (s : State),
      s.clk.hostHeld = false →
      s.host.pmt.readbackFault = false →
      a = readbackSample s (!(permitPins s.host.pmt (sampleDue s)).1) →
      exec (.readbackFault) s = .next (keepOtp s (readbackSample a (!(permitPins a.host.pmt (sampleDue a)).1)))) ∧
    (∀ (s : State),
      s.clk.hostHeld = false →
      s.host.pmt.readbackFault = true →
      200 ≤ s.host.pmt.correct →
      exec (.readbackFaultClear) s = .next ({ s with host := { s.host with pmt := { s.host.pmt with readbackFault := false, correct := 0, wrong := 0 } } })) ∧
    (∀ (s : State),
      s.clk.hostHeld = false →
      s.host.pmt.correct < 200 →
      exec (.readbackFaultClear) s = .next (s)) ∧
    (∀ (d : Fin 4) (high : Bool) (t : State) (m : BitVec 4) (s : State),
      s.clk.hostHeld = false →
      bitAt s.host.doors.en.toNat d.val = true →
      high ≠ bitAt s.host.doors.pol.toNat d.val →
      bitAt s.host.doors.debounced.toNat d.val = false →
      t = elapseToClock s (doorSample8 s) →
      m = BitVec.ofNat 4 (2 ^ d.val) →
      exec (.doorDebouncedChange d high) s = .next (keepOtp s (sendVState (irqSet { t with host := { t.host with doors := { t.host.doors with
          debounced := t.host.doors.debounced ||| m, raw := t.host.doors.raw ||| m } } } 8)))) ∧
    (∀ (d : Fin 4) (high : Bool) (t : State) (m : BitVec 4) (s : State),
      s.clk.hostHeld = false →
      bitAt s.host.doors.en.toNat d.val = true →
      high = bitAt s.host.doors.pol.toNat d.val →
      bitAt s.host.doors.debounced.toNat d.val = true →
      t = elapseToClock s (doorSample8 s) →
      m = BitVec.ofNat 4 (2 ^ d.val) →
      exec (.doorDebouncedChange d high) s = .next (keepOtp s (sendVState (irqSet { t with host := { t.host with doors := { t.host.doors with
          debounced := t.host.doors.debounced &&& ~~~m, raw := t.host.doors.raw &&& ~~~m } } } 8))))

/-- Where the window serves (lwServes: in Chalk from S13 on, in service-lock from S5 on), with no write cycle in progress (lwActs), WREN sets WEL unless the device is service-locked and WRDI clears it; WRSR with WEL, which reads 0 in service-lock, begins a status cycle with BP, and without it nothing; LEGACY_READ delivers the window's bytes from its address modulo its size; LEGACY_WRITE with WEL begins a page cycle with the page's new bytes, clears WEL where BP protects the page, and without WEL does nothing. RDSR delivers WIP, WEL and BP. Outside Chalk, RDSR delivers 1, LEGACY_READ 0xFF, and both ask for a wake, as WREN, WRDI, WRSR and LEGACY_WRITE do without another effect (log entry 154). -/
def Obligations.LegacyWindowCommands : Prop :=
    (∀ (s : State),
      s.clk.hostHeld = false →
      lwActs s = true →
      s.keys.svcLock = false →
      exec (.wren) s = .next ({ s with orr := { s.orr with wel := true } })) ∧
    (∀ (s : State),
      s.clk.hostHeld = false →
      lwActs s = true →
      exec (.wrdi) s = .next ({ s with orr := { s.orr with wel := false } })) ∧
    (∀ (s : State),
      s.clk.hostHeld = false →
      s.pwr.pstate = .chalk →
      s.keys.svcLock = true →
      exec (.wren) s = .next (s)) ∧
    (∀ (s : State),
      s.clk.hostHeld = false →
      lwServes s = true →
      exec (.rdsr) s = .next ({ s with lastRead := [byte (b2n s.orr.cycle.isSome + 2 * b2n (welOn s) + 4 * (lwBp s.orr).toNat)] })) ∧
    (∀ (v : Byte) (s : State),
      s.clk.hostHeld = false →
      lwActs s = true →
      welOn s = true →
      exec (.wrsr v) s = .next ({ s with orr := { s.orr with cycle := some (.status (BitVec.ofNat 2 (bitsOf v 3 2))) } })) ∧
    (∀ (addr : W16) (n : BitVec 14) (s : State),
      s.clk.hostHeld = false →
      lwActs s = true →
      exec (.legacyRead addr n) s = .next ({ s with lastRead := lwRead s.orr (addr.toNat % 8192) n.toNat })) ∧
    (∀ (addr : W16) (data : Bytes) (s : State),
      s.clk.hostHeld = false →
      lwActs s = true →
      welOn s = true →
      data.isEmpty = false →
      lwProtected (lwBp s.orr) (addr.toNat % 8192) = false →
      exec (.legacyWrite addr data) s = .next ({ s with orr := { s.orr with
          cycle := some (.page (addr.toNat % 8192 / 32) (lwPageImage s.orr (addr.toNat % 8192) data)) } })) ∧
    (∀ (s : State),
      s.clk.hostHeld = false →
      s.pwr.pstate ≠ .chalk →
      exec (.wren) s = .next ({ s with host := { s.host with wakeReq := true } })) ∧
    (∀ (s : State),
      s.clk.hostHeld = false →
      s.pwr.pstate ≠ .chalk →
      exec (.wrdi) s = .next ({ s with host := { s.host with wakeReq := true } })) ∧
    (∀ (v : Byte) (s : State),
      s.clk.hostHeld = false →
      s.pwr.pstate ≠ .chalk →
      exec (.wrsr v) s = .next ({ s with host := { s.host with wakeReq := true } })) ∧
    (∀ (addr : W16) (data : Bytes) (s : State),
      s.clk.hostHeld = false →
      s.pwr.pstate ≠ .chalk →
      exec (.legacyWrite addr data) s = .next ({ s with host := { s.host with wakeReq := true } })) ∧
    (∀ (s : State),
      s.clk.hostHeld = false →
      s.pwr.pstate ≠ .chalk →
      exec (.rdsr) s = .next ({ s with lastRead := [1], host := { s.host with wakeReq := true } })) ∧
    (∀ (addr : W16) (n : BitVec 14) (s : State),
      s.clk.hostHeld = false →
      s.pwr.pstate ≠ .chalk →
      exec (.legacyRead addr n) s = .next ({ s with lastRead := List.replicate n.toNat 0xFF, host := { s.host with wakeReq := true } })) ∧
    (∀ (addr : W16) (data : Bytes) (s : State),
      s.clk.hostHeld = false →
      lwActs s = true →
      welOn s = true →
      lwProtected (lwBp s.orr) (addr.toNat % 8192) = true →
      exec (.legacyWrite addr data) s = .next ({ s with orr := { s.orr with wel := false } })) ∧
    (∀ (v : Byte) (s : State),
      s.clk.hostHeld = false →
      lwActs s = true →
      welOn s = false →
      exec (.wrsr v) s = .next (s)) ∧
    (∀ (addr : W16) (data : Bytes) (s : State),
      s.clk.hostHeld = false →
      lwActs s = true →
      welOn s = false →
      exec (.legacyWrite addr data) s = .next (s))

/-- While Argent runs and its CAN is on: an ENGINE_STATUS with a good checksum has its odometer taken at most once a second (canOdo, log entry 111), and where CAN is the source of vehicle state is first reported; with a bad checksum it sets the end-to-end error latch, and is reported as rejected. IMMO_STATUS goes out 20 ms after the last, or at once on a change. A J1939 request (log entry 108) with a count of 1 to 27 and no export running opens one and is forwarded; with an export running it is acknowledged 3, with a bad count 1. An export without a CANX record after 250 ms ends with acknowledgement 3; BAM packets follow 50 ms apart; a CTS sends the packets it clears; a transport timeout in connection mode ends the export (log entry 17). Bus-off sets its latch, state and counters, and its end the error-active state. -/
def Obligations.CanAndJ1939 : Prop :=
    (∀ (data : Vector Byte 8) (s : State),
      s.clk.hostHeld = false →
      canOn s.host.can = true →
      canEng s.host.can = true →
      s.host.vs.srcCan = false →
      (crc8J1850 (s.host.can.dataIdEng :: data.toList.drop 1) == byteAt data.toList 0) = true →
      exec (.engineStatus data) s = .next (keepOtp s (canOdo s (BitVec.ofNat 32 (leAt data.toList 2 4))))) ∧
    (∀ (data : Vector Byte 8) (d : Bytes) (t : State) (s : State),
      s.clk.hostHeld = false →
      canOn s.host.can = true →
      canEng s.host.can = true →
      d = data.toList →
      s.host.vs.srcCan = true →
      (crc8J1850 (s.host.can.dataIdEng :: d.drop 1) == byteAt d 0) = true →
      cntOk s.host.vs.lastCnt (BitVec.ofNat 4 (byteAt d 1)) = true →
      t = reportAccepted s (BitVec.ofNat 4 (byteAt d 1)) (byteAt d 1 / 16) →
      exec (.engineStatus data) s = .next (keepOtp s (canOdo t (BitVec.ofNat 32 (leAt d 2 4))))) ∧
    (∀ (data : Vector Byte 8) (d : Bytes) (s : State),
      s.clk.hostHeld = false →
      canOn s.host.can = true →
      canEng s.host.can = true →
      d = data.toList →
      s.host.vs.srcCan = true →
      (crc8J1850 (s.host.can.dataIdEng :: d.drop 1) == byteAt d 0) = false →
      exec (.engineStatus data) s = .next (keepOtp s (reportRejected (errLatSet s 6)))) ∧
    (∀ (s : State),
      s.clk.hostHeld = false →
      canSends s.host.can = true →
      canEng s.host.can = true →
      immoChanged s = true →
      exec (.immoStatusPeriod true) s = .next (keepOtp s (sendImmo s))) ∧
    (∀ (s : State),
      s.clk.hostHeld = false →
      canSends s.host.can = true →
      canEng s.host.can = true →
      exec (.immoStatusPeriod false) s = .next (keepOtp s (sendImmo (elapseToClock s (s.host.can.immoAt + 20 * 38400))))) ∧
    (∀ (data : Vector Byte 8) (d : Bytes) (s : State),
      s.clk.hostHeld = false →
      d = data.toList →
      canOn s.host.can = true →
      canJ1939 s.host.can = true →
      byteAt d 0 = 0x4C →
      byteAt d 6 ≤ 1 →
      s.host.can.xfer = none →
      byteAt d 5 ≠ 0 →
      byteAt d 5 ≤ 27 →
      s.bar.link = .up →
      exec (.j1939Request data) s = .next (keepOtp s (sendBulk { s with host := { s.host with can := { s.host.can with
          xfer := some { first := BitVec.ofNat 32 (leAt d 1 4), count := byteAt d 5, cm := byteAt d 6 == 1, since := s.clock } } } }
          false .write 0 0x1020 d))) ∧
    (∀ (data : Vector Byte 8) (d : Bytes) (s : State),
      s.clk.hostHeld = false →
      d = data.toList →
      canOn s.host.can = true →
      canJ1939 s.host.can = true →
      byteAt d 0 = 0x4C →
      byteAt d 6 ≤ 1 →
      s.host.can.xfer.isSome = true →
      exec (.j1939Request data) s = .next (keepOtp s (canAck s 3))) ∧
    (∀ (data : Vector Byte 8) (d : Bytes) (s : State),
      s.clk.hostHeld = false →
      d = data.toList →
      canOn s.host.can = true →
      canJ1939 s.host.can = true →
      byteAt d 0 = 0x4C →
      byteAt d 6 ≤ 1 →
      s.host.can.xfer = none →
      byteAt d 5 = 0 ∨ 27 < byteAt d 5 →
      exec (.j1939Request data) s = .next (keepOtp s (canAck s 1))) ∧
    (∀ (x : J1939Export) (s : State),
      s.clk.hostHeld = false →
      s.host.can.xfer = some x →
      x.record = none →
      exec (.j1939CanxTimeout) s = .next (keepOtp s (canAck (xferEnd (elapseToClock s (x.since + 250 * 38400))) 3))) ∧
    (∀ (x : J1939Export) (r : Bytes) (s : State),
      s.clk.hostHeld = false →
      s.host.can.xfer = some x →
      x.record = some r →
      x.cm = false →
      canSends s.host.can = true →
      exec (.bamPacket) s = .next (keepOtp s (sentUpTo (elapseToClock s (x.lastAt + 50 * 38400)) x r (x.sent + 1)))) ∧
    (∀ (x : J1939Export) (r : Bytes) (n b : Byte) (s : State),
      s.clk.hostHeld = false →
      s.host.can.xfer = some x →
      x.record = some r →
      x.cm = true →
      canSends s.host.can = true →
      n ≠ 0 →
      b ≠ 0 →
      b.toNat ≤ ceilDiv r.length 7 →
      exec (.j1939Cts n b) s = .next (keepOtp s (sentUpTo s x r (b.toNat + n.toNat - 1)))) ∧
    (∀ (x : J1939Export) (s : State),
      s.clk.hostHeld = false →
      s.host.can.xfer = some x →
      x.cm = true →
      x.record.isSome = true →
      exec (.j1939TpTimeout) s = .next (keepOtp s (xferEnd s))) ∧
    (∀ (tec rcnt : Byte) (s : State),
      s.clk.hostHeld = false →
      bitAt s.host.can.ctrl.toNat 0 = true →
      exec (.canBusOff true tec rcnt) s = .next (keepOtp s (errLatSet { s with host := { s.host with can := { s.host.can with errState := 2, tecCnt := tec, recCnt := rcnt } } } 5))) ∧
    (∀ (tec rcnt : Byte) (s : State),
      s.clk.hostHeld = false →
      bitAt s.host.can.ctrl.toNat 0 = true →
      s.host.can.errState = 2 →
      exec (.canBusOff false tec rcnt) s = .next ({ s with host := { s.host with can := { s.host.can with errState := 0, tecCnt := tec, recCnt := rcnt } } }))

/-- REGISTER_WRITE takes the word that contains its offset. A write of word w of a launch entry that is not active stores its fields; of a move descriptor's first word its source, destination and length; of LF_POP populates channels; of LF_NOM_FREQ from 8,000 to 60,000 sets it; of AZ_EVENT clears its 1 bits; of TN_UTX_NB sets it; of a word of Gules's input buffer stores its four bytes; of OR_LEDGER_ACK acknowledges; of a touch configuration register sets enable, threshold and confirm. Nothing else changes. A write to an active entry sets ENTRY_WE. -/
def Obligations.RegisterWrites : Prop :=
    (∀ (n : Fin 128) (x : Fin 5) (v : W32) (s : State),
      entryActive (entryOf s n) = false →
      exec (.registerWrite .celeste (BitVec.ofNat 16 (0x400 + 20 * n.val + 4 * x.val)) v) s = .next (modEntry s n fun e => entryWord e x.val v)) ∧
    (∀ (n : Fin 128) (x : Fin 5) (v : W32) (s : State),
      entryActive (entryOf s n) = true →
      exec (.registerWrite .celeste (BitVec.ofNat 16 (0x400 + 20 * n.val + 4 * x.val)) v) s = .next ({ s with cel := { s.cel with entryWe := true } })) ∧
    (∀ (m : Fin 32) (v : W32) (s : State),
      exec (.registerWrite .celeste (BitVec.ofNat 16 (0xE00 + 8 * m.val)) v) s = .next ({ s with cel := { s.cel with moves := vmod s.cel.moves m fun d =>
          { d with src := fld v 7 0 8, dst := fld v 15 8 8, len := fld v 31 16 16 } } })) ∧
    (∀ (v : W32) (s : State),
      exec (.registerWrite .vert 0x004 v) s = .next (keepOtp s (lfPopWrite (fld v 11 0 12) s))) ∧
    (∀ (v : W32) (s : State),
      8000 ≤ bitsOf v 15 0 →
      bitsOf v 15 0 ≤ 60000 →
      exec (.registerWrite .vert 0x010 v) s = .next ({ s with vert := { s.vert with nomFreq := fld v 15 0 16 } })) ∧
    (∀ (v : W32) (s : State),
      exec (.registerWrite .azure 0x00C v) s = .next ({ s with az := { s.az with event := s.az.event &&& ~~~(fld v 5 0 6) } })) ∧
    (∀ (v : W32) (s : State),
      exec (.registerWrite .tenne 0x008 v) s = .next ({ s with tn := { s.tn with utx := { s.tn.utx with nb := v } } })) ∧
    (∀ (o : Fin 3072) (v : W32) (s : State),
      exec (.registerWrite .gules (BitVec.ofNat 16 (0x2000 + 4 * o.val)) v) s = .next ({ s with gq := { s.gq with inBuf := memWriteBytes s.gq.inBuf (4 * o.val) (leBytes 4 v.toNat) } })) ∧
    (∀ (v : W32) (s : State),
      exec (.registerWrite .orr 0x00C v) s = .next (keepOtp s (doOrLedgerAckWrite v s))) ∧
    (∀ (n : Fin 4) (v : W32) (s : State),
      exec (.registerWrite .sable (BitVec.ofNat 16 (0x020 + 4 * n.val)) v) s = .next ({ s with pwr := { s.pwr with touch := vmod s.pwr.touch n fun x =>
          { x with en := bitAt v.toNat 0, thr := fld v 6 1 6, confirm := bitAt v.toNat 7 } } }))

/-- A command record at the head of the queue that the device's state admits (nextServed), of the length of its row, its fields in range and its reserved fields zero: SYS_INFO answers SERIAL, the version of the running image, states and counts; SYS_ECHO answers its payload up to 248 bytes at once and a longer one as a BULK frame; SYS_TIME_GET answers the RTC; SYS_TIME_SET with MODE 0 sets the time, with MODE 1 where the signature of slot 172 over the outstanding challenge verifies, and consumes the challenge; SYS_RESTART answers and leaves the restart to follow the answer, BUSY for a device reset during a start session; SYS_POWER, with nothing running that keeps the device in Chalk and AMBER only where it is enabled and the device not service-locked, sets REST and leaves the entry to follow the answer; SYS_EVT_MASK writes the mask with bits 7 and 9 at 1. CONTENT and COUNT of the echo's BULK frame are free values (log entry 147). -/
def Obligations.SystemCommands : Prop :=
    (∀ (c : CmdRec) (rest : List CmdRec) (t : State) (s : State),
      nextServed s 0x0101 c rest →
      t = taken s rest →
      c.bytes.length = 4 →
      t.boot.running ≠ .none →
      exec (.sysInfo) s = .next (keepOtp s (replied t c .ok (serialBytes t ++ (imageAt t (runningSlot t.boot.running)).ver ++
          [byte (lcStateReg t), byte (b2n t.pres.deep), byte (b2n t.pres.double), byte (b2n t.keys.depot),
           byte (ctxCount t), byte (imageCode t.boot.running), byte (b2n (onTrial t.boot)), 0, 0] ++
          leBytes 4 t.orr.sys.bundleSeq.toNat ++ leBytes 4 t.keys.rosterEpoch.toNat ++ leBytes 4 t.ledger.nextIndex.toNat)))) ∧
    (∀ (c : CmdRec) (rest : List CmdRec) (t : State) (s : State),
      nextServed s 0x0102 c rest →
      t = taken s rest →
      c.bytes.length ≤ 252 →
      exec (.sysEcho) s = .next (keepOtp s (replied t c .ok (c.bytes.drop 4)))) ∧
    (∀ (c : CmdRec) (rest : List CmdRec) (x : Bytes) (u : State) (t : State) (s : State),
      nextServed s 0x0102 c rest →
      t = taken s rest →
      252 < c.bytes.length →
      c.bytes.length ≤ 256 →
      x = (drawBytes t 3).1 →
      u = (drawBytes t 3).2 →
      exec (.sysEcho) s = .next (keepOtp s (replied (postBulk u (c.bytes.drop 4)) c .ok (bulkResult u.ev.bulkFn (byteAt x 0) (c.bytes.length - 4) (leAt x 1 2))))) ∧
    (∀ (c : CmdRec) (rest : List CmdRec) (t : State) (s : State),
      nextServed s 0x0103 c rest →
      t = taken s rest →
      c.bytes.length = 4 →
      exec (.sysTimeGet) s = .next (keepOtp s (replied t c .ok (leBytes 4 (rtcNow t) ++ leBytes 2 (t.rtc.frac.toNat / 32) ++ [byte (tqOf t), 0])))) ∧
    (∀ (c : CmdRec) (rest : List CmdRec) (t : State) (s : State),
      nextServed s 0x0104 c rest →
      t = taken s rest →
      c.bytes.length = 12 →
      leAt c.bytes 8 2 ≤ 1023 →
      byteAt c.bytes 10 = 0 →
      byteAt c.bytes 11 = 0 →
      exec (.sysTimeSet) s = .next (keepOtp s (replied (timeSet t (leAt c.bytes 4 4) (leAt c.bytes 8 2) false) c .ok []))) ∧
    (∀ (c : CmdRec) (rest : List CmdRec) (x : Bytes) (issued : Nat) (u : State) (t : State) (s : State),
      nextServed s 0x0104 c rest →
      t = taken s rest →
      c.bytes.length = 76 →
      leAt c.bytes 8 2 ≤ 1023 →
      byteAt c.bytes 10 = 1 →
      byteAt c.bytes 11 = 0 →
      t.creds.chal = some (x, issued) →
      (slotAt t 172).state = .valid →
      rtcNow t ≤ issued + 600 →
      u = { t with creds := { t.creds with chal := none } } →
      exec (.sysTimeSet) s = .next (keepOtp s (if Config.ecdsaVerify ((slotAt t 172).key.getD []) (ascii "TV8160-TIME" ++ serialBytes t ++ x ++ slice c.bytes 4 8) (slice c.bytes 12 64)
          then underway (timeSet u (leAt c.bytes 4 4) (leAt c.bytes 8 2) true) c .none { committed := true }
          else replied u c .authFail []))) ∧
    (∀ (c : CmdRec) (rest : List CmdRec) (t : State) (s : State),
      nextServed s 0x0105 c rest →
      t = taken s rest →
      c.bytes.length = 8 →
      byteAt c.bytes 4 = 0 →
      allZero (slice c.bytes 5 3) = true →
      exec (.sysRestartSteward) s = .next (keepOtp s (replied { t with cmds := { t.cmds with after := .stewardRestart } } c .ok []))) ∧
    (∀ (c : CmdRec) (rest : List CmdRec) (t : State) (s : State),
      nextServed s 0x0105 c rest →
      t = taken s rest →
      c.bytes.length = 8 →
      byteAt c.bytes 4 = 1 →
      allZero (slice c.bytes 5 3) = true →
      exec (.sysRestartDevice) s = .next (keepOtp s (if t.pres.start.isSome then replied t c .busy []
          else replied { t with cmds := { t.cmds with after := .deviceRestart } } c .ok []))) ∧
    (∀ (c : CmdRec) (rest : List CmdRec) (x : RestTarget) (t : State) (s : State),
      nextServed s 0x0106 c rest →
      t = taken s rest →
      c.bytes.length = 8 →
      1 ≤ byteAt c.bytes 4 →
      byteAt c.bytes 4 ≤ 3 →
      allZero (slice c.bytes 5 3) = true →
      x = restOf (byteAt c.bytes 4) →
      x ≠ .amber ∨ (amberEn t = true ∧ t.keys.svcLock = false) →
      approachRuns t = false →
      sessionOpen t = false →
      t.pres.startReq = none →
      t.cmds.longs = [] →
      exec (.sysPower) s = .next (keepOtp s (replied { t with pwr := { t.pwr with rest := x }, cmds := { t.cmds with after := .rest x } } c .ok []))) ∧
    (∀ (c : CmdRec) (rest : List CmdRec) (t : State) (s : State),
      nextServed s 0x0107 c rest →
      t = taken s rest →
      c.bytes.length = 8 →
      leAt c.bytes 4 2 % 2 = 0 →
      leAt c.bytes 4 2 < 4096 →
      leAt c.bytes 6 2 = 0 →
      exec (.sysEvtMask) s = .next (keepOtp s (replied { t with ev := { t.ev with mask := BitVec.ofNat 16 (leAt c.bytes 4 2) ||| 0x0280 } } c .ok [])))

/-- Admitted (nextServed) with a legal record: PRES_PROFILE stores the profile for the next Wake and marks its page of CAL; PRES_WAKE in Provisioned or Fielded is LOCKED_OUT during a lock-out of the passive path, begins an approach for its handles, and in the XO fallback begins an HF linger; PRES_START is refused by lock-out, epoch and vehicle state in that order, answers the open session, is BUSY while a request is open and otherwise opens a request and is PENDING; PRES_DOOR of the known state answers OK without effect, with ledger room it logs the change and ends an entry session whose door opens; PRES_TRACKED answers the tracked set. -/
def Obligations.PresenceCommands : Prop :=
    (∀ (c : CmdRec) (rest : List CmdRec) (t : State) (s : State),
      nextServed s 0x0201 c rest →
      t = taken s rest →
      c.bytes.length = 8 →
      byteAt c.bytes 4 ≤ 1 →
      byteAt c.bytes 5 ≤ 1 →
      leAt c.bytes 6 2 = 0 →
      exec (.presProfile) s = .next (keepOtp s (replied (markDirty { t with
          pres := { t.pres with nextDeep := byteAt c.bytes 4 == 1, nextDouble := byteAt c.bytes 5 == 1 }
          orr := { t.orr with profile := some (byteAt c.bytes 4 == 1, byteAt c.bytes 5 == 1) } } calProfile) c .ok []))) ∧
    (∀ (c : CmdRec) (rest : List CmdRec) (t : State) (s : State),
      nextServed s 0x0202 c rest →
      t = taken s rest →
      c.bytes.length = 8 →
      lcOf t = .provisioned ∨ lcOf t = .fielded →
      byteAt c.bytes 4 ≠ 0 →
      byteAt c.bytes 4 ≤ 15 →
      allZero (slice c.bytes 5 3) = true →
      exec (.presWake) s = .next (keepOtp s (if lockedOut t .passive then replied t c .lockedOut []
          else if t.clk.fallback then replied (startLinger t (tHfLinger t)) c .ok []
          else replied (startApproach t (BitVec.ofNat 4 (byteAt c.bytes 4)) false) c .ok []))) ∧
    (∀ (c : CmdRec) (rest : List CmdRec) (t : State) (s : State),
      nextServed s 0x0203 c rest →
      t = taken s rest →
      c.bytes.length = 4 →
      lcOf t = .provisioned ∨ lcOf t = .fielded →
      exec (.presStart) s = .next (keepOtp s (if lockedOut t .passive then replied t c .lockedOut []
          else if t.bar.fieldEnd.synced = false then replied t c .epochMismatch []
          else if t.bar.vstate.valid = false ∨ t.bar.vstate.engineRun = true ∨ t.bar.vstate.standstill = false then replied t c .policyDenied []
          else match t.pres.start with
            | some x => replied t c .ok (leBytes 2 x.id.toNat)
            | none =>
              if t.pres.startReq.isSome then replied t c .busy []
              else replied (startPath { t with
                pres := { t.pres with startReq := some { since := now t, lastTry := now t } }
                cmds := { t.cmds with startCtag := some (BitVec.ofNat 16 (ctagOf c.bytes)) } }) c .pending []))) ∧
    (∀ (c : CmdRec) (rest : List CmdRec) (t : State) (s : State),
      nextServed s 0x0204 c rest →
      t = taken s rest →
      c.bytes.length = 8 →
      byteAt c.bytes 4 ≤ 3 →
      byteAt c.bytes 5 ≤ 1 →
      leAt c.bytes 6 2 = 0 →
      vgetN t.cmds.doors (byteAt c.bytes 4) none = some (byteAt c.bytes 5 == 1) →
      exec (.presDoor) s = .next (keepOtp s (replied t c .ok []))) ∧
    (∀ (c : CmdRec) (rest : List CmdRec) (u : State) (t : State) (s : State),
      nextServed s 0x0204 c rest →
      t = taken s rest →
      c.bytes.length = 8 →
      byteAt c.bytes 4 ≤ 3 →
      byteAt c.bytes 5 ≤ 1 →
      leAt c.bytes 6 2 = 0 →
      vgetN t.cmds.doors (byteAt c.bytes 4) none ≠ some (byteAt c.bytes 5 == 1) →
      ledgerHostRoom t = true →
      (u = ledgerAdd { t with cmds := { t.cmds with doors := vmodN t.cmds.doors (byteAt c.bytes 4) fun _ => some (byteAt c.bytes 5 == 1) } }
        4 0 0 none [byte (byteAt c.bytes 4), byte (b2n (byteAt c.bytes 5 == 1)), 1]) →
      exec (.presDoor) s = .next (keepOtp s (replied (match u.pres.entry with
          | some e => if byteAt c.bytes 5 == 1 && bitAt e.doors.toNat (byteAt c.bytes 4) then endEntry u 1 0 else u
          | none => u) c .ok []))) ∧
    (∀ (c : CmdRec) (rest : List CmdRec) (t : State) (s : State),
      nextServed s 0x0205 c rest →
      t = taken s rest →
      c.bytes.length = 4 →
      exec (.presTracked) s = .next (keepOtp s (replied t c .ok ([byte t.pres.tracked.length, 0, 0, 0] ++
          t.pres.tracked.flatMap fun x => placementRecord x.ctx x.placement x.verdict.toNat))))

/-- Admitted (nextServed) with a legal record: ROSTER_MODE destroys the roster, sets the mode and stores it with its ledger entry; ROSTER_ADD and ROSTER_ADD_HF import the wrapped key of a context and, where the import is accepted, enrol it and advance the roster epoch, and otherwise answer the import's status; in direct mode ROSTER_REVOKE invalidates both keys of a context, takes its token out of the run and the tracked set and advances the roster epoch; in depot mode ROSTER_LOAD replaces the roster by the verified batch of area 1, which is then zeroed, or answers the batch's refusal; ROSTER_LIST answers one entry for each context asked for. -/
def Obligations.RosterCommands : Prop :=
    (∀ (c : CmdRec) (rest : List CmdRec) (t : State) (s : State),
      nextServed s 0x0301 c rest →
      t = taken s rest →
      c.bytes.length = 8 →
      byteAt c.bytes 4 ≤ 1 →
      byteAt c.bytes 5 = 0xC5 →
      leAt c.bytes 6 2 = 0 →
      genSpent t slotRw = false →
      genSpent t slotEpoch = false →
      exec (.rosterMode) s = .next (keepOtp s (replied (rosterNote { dropAllCtx (destroyRoster (rosterEnds t)) with
          keys := { (dropAllCtx (destroyRoster (rosterEnds t))).keys with depot := byteAt c.bytes 4 == 1, rosterCount := 0, hfMask := [] } } 0) c .ok []))) ∧
    (∀ (c : CmdRec) (rest : List CmdRec) (x : Fin 160) (r : State × Status) (t : State) (s : State),
      nextServed s 0x0302 c rest →
      t = taken s rest →
      c.bytes.length = 205 →
      t.keys.depot = false →
      byteAt c.bytes 4 ≤ 15 →
      allZero (slice c.bytes 5 3) = true →
      ctxN (byteAt c.bytes 4) = some x →
      byteAt c.bytes 17 = x.val →
      (((List.finRange 160).any fun y => y ≠ x && (t.ctxs[y]).valid && (t.ctxs[y]).id == BitVec.ofNat 64 (beAt c.bytes 8 8)) = false) →
      r = importWrapped t (c.bytes.drop 16) →
      exec (.rosterAdd) s = .next (keepOtp s (if r.2 ≠ .ok then replied r.1 c r.2 []
          else underway (rosterStep (if (r.1.ctxs[x]).valid && (r.1.ctxs[x]).id == BitVec.ofNat 64 (beAt c.bytes 8 8) then r.1
            else { dropCtx r.1 x with ctxs := vset (dropCtx r.1 x).ctxs x { valid := true, id := BitVec.ofNat 64 (beAt c.bytes 8 8) } })) c .none
            { committed := true }))) ∧
    (∀ (c : CmdRec) (rest : List CmdRec) (x : Fin 160) (r : State × Status) (t : State) (s : State),
      nextServed s 0x0303 c rest →
      t = taken s rest →
      c.bytes.length = 197 →
      t.keys.depot = false →
      byteAt c.bytes 4 ≤ 15 →
      allZero (slice c.bytes 5 3) = true →
      ctxN (byteAt c.bytes 4) = some x →
      (t.ctxs[x]).valid = true →
      (slotAt t (slotKt x)).state = .valid →
      byteAt c.bytes 9 = 16 + x.val →
      r = importWrapped t (c.bytes.drop 8) →
      exec (.rosterAddHf) s = .next (keepOtp s (if r.2 ≠ .ok then replied r.1 c r.2 [] else underway (rosterStep r.1) c .none { committed := true }))) ∧
    (∀ (c : CmdRec) (rest : List CmdRec) (x : Fin 160) (u : State) (t : State) (s : State),
      nextServed s 0x0304 c rest →
      t = taken s rest →
      c.bytes.length = 8 →
      t.keys.depot = false →
      byteAt c.bytes 4 ≤ 15 →
      allZero (slice c.bytes 5 3) = true →
      ctxN (byteAt c.bytes 4) = some x →
      genSpent t (slotKt x) = false →
      genSpent t (slotKhf x) = false →
      u = (invalidate (invalidate t (slotKt x)).1 (slotKhf x)).1 →
      exec (.rosterRevoke) s = .next (keepOtp s (replied (rosterStep (dropCtx (endTok (departTracked u x) x) x)) c .ok []))) ∧
    (∀ (c : CmdRec) (rest : List CmdRec) (r : State × Status) (t : State) (s : State),
      nextServed s 0x0305 c rest →
      t = taken s rest →
      c.bytes.length = 4 →
      t.keys.depot = true →
      t.cmds.area1.verified = true →
      unheld t .staging = true →
      r = loadBatch t t.cmds.area1.body →
      exec (.rosterLoad) s = .next (keepOtp s (if r.2 ≠ .ok then replied r.1 c r.2 []
          else underway (zeroArea r.1 1) c .staging
            { committed := true, result := leBytes 2 (batchCount t.cmds.area1.body) ++ [0, 0] ++ leBytes 4 (batchEpoch t.cmds.area1.body) }))) ∧
    (∀ (c : CmdRec) (rest : List CmdRec) (t : State) (s : State),
      nextServed s 0x0306 c rest →
      t = taken s rest →
      c.bytes.length = 8 →
      byteAt c.bytes 5 ≠ 0 →
      byteAt c.bytes 5 ≤ 15 →
      leAt c.bytes 6 2 = 0 →
      byteAt c.bytes 4 + byteAt c.bytes 5 ≤ (if t.keys.depot then 160 else 16) →
      exec (.rosterList) s = .next (keepOtp s (replied t c .ok ((List.range (byteAt c.bytes 5)).flatMap fun i => match ctxN (byteAt c.bytes 4 + i) with
          | some x => listEntry t x
          | none => []))))

/-- Admitted (nextServed) with a legal record: KEY_IMPORT in Provisioned imports a tag key of slot 168 or 169 or answers the import's status; KEY_TAG_LOAD in Provisioned with its three slots valid loads the tag and answers its status; KEY_IMPORT_PUB answers the public import key, the import sequence and a signature by DIK, or DIK's refusal; KEY_ATTR answers the attribute words of a slot; KEY_ATTEST delivers a statement, or DIK's refusal, and KEY_ENDORSE the endorsement that the boot sector holds as a BULK frame; each signature draws its own random bits. -/
def Obligations.KeyAndAttestationCommands : Prop :=
    (∀ (c : CmdRec) (rest : List CmdRec) (r : State × Status) (t : State) (s : State),
      nextServed s 0x0401 c rest →
      t = taken s rest →
      c.bytes.length = 193 →
      lcOf t = .provisioned →
      byteAt c.bytes 5 = 168 ∨ byteAt c.bytes 5 = 169 →
      r = importWrapped t (c.bytes.drop 4) →
      exec (.keyImport) s = .next (keepOtp s (if r.2 ≠ .ok then replied r.1 c r.2 [] else underway r.1 c .none { committed := true }))) ∧
    (∀ (c : CmdRec) (rest : List CmdRec) (t : State) (s : State),
      nextServed s 0x0402 c rest →
      t = taken s rest →
      c.bytes.length = 4 →
      lcOf t = .provisioned →
      (slotAt t 167).state = .valid →
      (slotAt t 168).state = .valid →
      (slotAt t 169).state = .valid →
      exec (.keyTagLoad) s = .next (keepOtp s (replied (tagLoad t).1 c (tagLoad t).2 []))) ∧
    (∀ (c : CmdRec) (rest : List CmdRec) (head : Bytes) (t : State) (s : State),
      nextServed s 0x0403 c rest →
      t = taken s rest →
      c.bytes.length = 4 →
      unheld t .signing = true →
      head = point65 (Config.ecPublic ((slotAt t 166).key.getD [])) ++ leBytes 4 t.keys.importSeq.toNat ++ [0, 0, 0] →
      exec (.keyImportPub) s = .next (keepOtp s (match dikRefusal t with
          | some st => replied t c st []
          | none => underway (drbgBytes t 48).2 c .signing
            { result := head ++ Config.ecdsaSign (dikKey t) (drbgBytes t 48).1 (ascii "TV8160-IMP" ++ serialBytes t ++ head) }))) ∧
    (∀ (c : CmdRec) (rest : List CmdRec) (n : Fin 224) (t : State) (s : State),
      nextServed s 0x0404 c rest →
      t = taken s rest →
      c.bytes.length = 8 →
      allZero (slice c.bytes 5 3) = true →
      byteAt c.bytes 4 = n.val →
      exec (.keyAttr) s = .next (keepOtp s (replied t c .ok ((attrWords (slotAt t n)).flatMap (leBytes 4))))) ∧
    (∀ (c : CmdRec) (rest : List CmdRec) (t : State) (s : State),
      nextServed s 0x0405 c rest →
      t = taken s rest →
      12 ≤ c.bytes.length →
      c.bytes.length ≤ 36 →
      unheld t .signing = true →
      exec (.keyAttest) s = .next (keepOtp s (match dikRefusal t with
          | some st => replied t c st []
          | none => underway (drbgBytes t 48).2 c .signing (bulkAns 2 1 (statement t (drbgBytes t 48).1 (c.bytes.drop 4)))))) ∧
    (∀ (c : CmdRec) (rest : List CmdRec) (t : State) (s : State),
      nextServed s 0x0406 c rest →
      t = taken s rest →
      c.bytes.length = 4 →
      unheld t .signing = true →
      exec (.keyEndorse) s = .next (keepOtp s (underway t c .signing (bulkAns 3 1 t.boot.endorse))))

/-- Admitted (nextServed) with a legal record: ST_CREATE takes the lowest free run of pages and stores the entry, is BUSY where the partition exists and STORE_FULL without room; ST_DELETE with the write password removes the entry and leaves its pages to be erased; where the transaction of an entry does not read back, it answers RETRY and the old entry stands, as for ST_PASSWORD; ST_OPEN with the password opens its right; a wrong password is STORE_PROTECTED; ST_CLOSE ends both rights; ST_READ answers committed content; ST_WRITE puts the bytes into the write buffer only; ST_COMMIT puts the buffer into the shadow and commits its pages, and where a page commit ends with RETRY the buffer stands and reads keep the old content; ST_DISCARD empties the buffer; ST_PASSWORD replaces a password. A read that no right covers is STORE_PROTECTED. -/
def Obligations.StoreCommands : Prop :=
    (∀ (c : CmdRec) (rest : List CmdRec) (p : Fin 8) (r : Nat → State × Bool) (t : State) (s : State),
      nextServed s 0x0501 c rest →
      t = taken s rest →
      c.bytes.length = 40 →
      partN (byteAt c.bytes 4) = some p →
      byteAt c.bytes 5 ≠ 0 →
      byteAt c.bytes 5 ≤ 80 →
      pwFieldBad (byteAt c.bytes 6) (slice c.bytes 8 16) = false →
      pwFieldBad (byteAt c.bytes 7) (slice c.bytes 24 16) = false →
      (r = fun a => transaction (setRight (setPart t p (some
        { first := a, pages := byteAt c.bytes 5, readPw := pwStored t p false (byteAt c.bytes 6) (slice c.bytes 8 16), writePw := pwStored t p true (byteAt c.bytes 7) (slice c.bytes 24 16) })) p {}) sysPages none) →
      exec (.stCreate) s = .next (keepOtp s (if (partAt t p).isSome then replied t c .busy []
          else match freeRun t (byteAt c.bytes 5) with
            | none => replied t c .storeFull []
            | some a => if (r a).2 = true then replied (r a).1 c .ok [] else replied (setPart (r a).1 p none) c .retry []))) ∧
    (∀ (c : CmdRec) (rest : List CmdRec) (p : Fin 8) (q : NativePart) (u v : State) (x : State × Bool) (t : State) (s : State),
      nextServed s 0x0502 c rest →
      t = taken s rest →
      c.bytes.length = 24 →
      partN (byteAt c.bytes 4) = some p →
      leAt c.bytes 6 2 = 0 →
      pwFieldBad (byteAt c.bytes 5) (slice c.bytes 8 16) = false →
      partAt t p = some q →
      (pwTry t p q true (byteAt c.bytes 5) (slice c.bytes 8 16)).1 = true →
      u = setPart (pwTry t p q true (byteAt c.bytes 5) (slice c.bytes 8 16)).2 p none →
      x = transaction u sysPages none →
      v = setRight x.1 p {} →
      exec (.stDelete) s = .next (keepOtp s (if x.2 = true
          then replied { v with orr := { v.orr with wbuf := v.orr.wbuf.filter fun x => !(partPages q).contains x.1 } } c .ok []
          else replied (setPart x.1 p (some q)) c .retry []))) ∧
    (∀ (c : CmdRec) (rest : List CmdRec) (p : Fin 8) (q : NativePart) (u : State) (t : State) (s : State),
      nextServed s 0x0503 c rest →
      t = taken s rest →
      c.bytes.length = 24 →
      partN (byteAt c.bytes 4) = some p →
      byteAt c.bytes 5 ≤ 1 →
      byteAt c.bytes 7 = 0 →
      pwFieldBad (byteAt c.bytes 6) (slice c.bytes 8 16) = false →
      partAt t p = some q →
      u = (pwTry t p q (byteAt c.bytes 5 == 1) (byteAt c.bytes 6) (slice c.bytes 8 16)).2 →
      exec (.stOpen) s = .next (keepOtp s (if (pwTry t p q (byteAt c.bytes 5 == 1) (byteAt c.bytes 6) (slice c.bytes 8 16)).1 = true
          then replied (setRight u p { (rightAt u p) with read := rightLive u p false || byteAt c.bytes 5 != 1, write := rightLive u p true || byteAt c.bytes 5 == 1, access := now t }) c .ok []
          else replied u c .storeProtected []))) ∧
    (∀ (c : CmdRec) (rest : List CmdRec) (p : Fin 8) (t : State) (s : State),
      nextServed s 0x0504 c rest →
      t = taken s rest →
      c.bytes.length = 8 →
      partN (byteAt c.bytes 4) = some p →
      allZero (slice c.bytes 5 3) = true →
      exec (.stClose) s = .next (keepOtp s (replied (setRight t p { (rightAt t p) with read := false, write := false }) c .ok []))) ∧
    (∀ (c : CmdRec) (rest : List CmdRec) (p : Fin 8) (q : NativePart) (n : Nat) (t : State) (s : State),
      nextServed s 0x0505 c rest →
      t = taken s rest →
      c.bytes.length = 12 →
      partN (byteAt c.bytes 4) = some p →
      byteAt c.bytes 5 = 0 →
      n = leAt c.bytes 6 2 →
      n ≠ 0 →
      n ≤ 240 →
      partAt t p = some q →
      q.readPw = none ∨ rightLive t p false = true →
      leAt c.bytes 8 4 + n ≤ 256 * q.pages →
      exec (.stRead) s = .next (keepOtp s (replied (touchRight t p) c .ok (partBytes t q (leAt c.bytes 8 4) n)))) ∧
    (∀ (c : CmdRec) (rest : List CmdRec) (p : Fin 8) (q : NativePart) (n : Nat) (t : State) (s : State),
      nextServed s 0x0505 c rest →
      t = taken s rest →
      c.bytes.length = 12 →
      partN (byteAt c.bytes 4) = some p →
      byteAt c.bytes 5 = 0 →
      n = leAt c.bytes 6 2 →
      n ≠ 0 →
      n ≤ 240 →
      partAt t p = some q →
      q.readPw.isSome = true →
      rightLive t p false = false →
      exec (.stRead) s = .next (keepOtp s (replied t c .storeProtected []))) ∧
    (∀ (c : CmdRec) (rest : List CmdRec) (p : Fin 8) (q : NativePart) (d : Bytes) (off : Nat) (t : State) (s : State),
      nextServed s 0x0506 c rest →
      t = taken s rest →
      12 < c.bytes.length →
      c.bytes.length ≤ 252 →
      partN (byteAt c.bytes 4) = some p →
      allZero (slice c.bytes 5 3) = true →
      d = c.bytes.drop 12 →
      off = leAt c.bytes 8 4 →
      partAt t p = some q →
      q.writePw = none ∨ rightLive t p true = true →
      (t.orr.wbuf.length + ((touchedPages q off d.length).filter fun a => !(t.orr.wbuf.any fun x => x.1 == a)).length ≤ 8) →
      off + d.length ≤ 256 * q.pages →
      exec (.stWrite) s = .next (keepOtp s (replied (touchRight { t with orr := { t.orr with wbuf := (d.zipIdx.foldl (fun w x => wbufPut t w (q.first + (off + x.2) / 256) ((off + x.2) % 256) x.1) t.orr.wbuf) } } p) c .ok []))) ∧
    (∀ (c : CmdRec) (rest : List CmdRec) (bad : Bool) (r : State × Bool) (t : State) (s : State),
      nextServed s 0x0507 c rest →
      t = taken s rest →
      c.bytes.length = 4 →
      t.orr.wbuf ≠ [] →
      (r = transaction (putShadows t t.orr.wbuf) (t.orr.wbuf.filterMap fun x => pageN x.1) (some bad)) →
      exec (.stCommit bad) s = .next (keepOtp s (if r.2 = true then replied { r.1 with orr := { r.1.orr with wbuf := [] } } c .ok []
          else replied (putShadows r.1 (t.orr.wbuf.map fun x => (x.1, (vgetN t.orr.pages x.1 {}).shadow))) c .retry []))) ∧
    (∀ (c : CmdRec) (rest : List CmdRec) (t : State) (s : State),
      nextServed s 0x0508 c rest →
      t = taken s rest →
      c.bytes.length = 4 →
      exec (.stDiscard) s = .next (keepOtp s (replied { t with orr := { t.orr with wbuf := [] } } c .ok []))) ∧
    (∀ (c : CmdRec) (rest : List CmdRec) (p : Fin 8) (q : NativePart) (x : Option Bytes) (r : Bool × State) (y : State × Bool) (t : State) (s : State),
      nextServed s 0x0509 c rest →
      t = taken s rest →
      c.bytes.length = 40 →
      partN (byteAt c.bytes 4) = some p →
      byteAt c.bytes 5 ≤ 1 →
      pwFieldBad (byteAt c.bytes 6) (slice c.bytes 8 16) = false →
      pwFieldBad (byteAt c.bytes 7) (slice c.bytes 24 16) = false →
      partAt t p = some q →
      r = pwTry t p q true (byteAt c.bytes 6) (slice c.bytes 8 16) →
      x = pwStored t p (byteAt c.bytes 5 == 1) (byteAt c.bytes 7) (slice c.bytes 24 16) →
      y = transaction (setPart r.2 p (some (if byteAt c.bytes 5 == 1 then { q with writePw := x } else { q with readPw := x }))) sysPages none →
      exec (.stPassword) s = .next (keepOtp s (if r.1 = true
          then (if y.2 = true then replied y.1 c .ok [] else replied (setPart y.1 p (some q)) c .retry [])
          else replied r.2 c .storeProtected [])))

/-- Admitted (nextServed) with a legal record: LW_READ and LW_WRITE first end a write cycle in progress; LW_READ answers the window's bytes, LW_WRITE begins a write cycle of one page and is STORE_PROTECTED in a protected block; LEDGER_READ delivers the present entries asked for as a BULK frame, FN 0xFF where none is present; LEDGER_ACK acknowledges, with RETRY where the commit does not read back; LEDGER_STATUS answers the ledger's counters; RADIO_HF_LINGER begins an HF linger; RADIO_TAG_READ and RADIO_TAG_WRITE queue the access to the tag's memory, which answers when it is done; with a reader's Read during a write its first page is at step 2 and waits for that reader; a write of words outside the steward's regions is STORE_PROTECTED; RADIO_COEX answers both pairs. -/
def Obligations.LegacyLedgerAndRadioCommands : Prop :=
    (∀ (c : CmdRec) (rest : List CmdRec) (u : State) (t : State) (s : State),
      nextServed s 0x050A c rest →
      t = taken s rest →
      c.bytes.length = 8 →
      leAt c.bytes 6 2 ≠ 0 →
      leAt c.bytes 6 2 ≤ 240 →
      u = doLwWriteCycleEnd t →
      exec (.lwRead) s = .next (keepOtp s (replied u c .ok (lwRead u.orr (leAt c.bytes 4 2) (leAt c.bytes 6 2))))) ∧
    (∀ (c : CmdRec) (rest : List CmdRec) (u : State) (a : Nat) (t : State) (s : State),
      nextServed s 0x050B c rest →
      t = taken s rest →
      9 ≤ c.bytes.length →
      c.bytes.length ≤ 40 →
      leAt c.bytes 6 2 = 0 →
      u = doLwWriteCycleEnd t →
      a = leAt c.bytes 4 2 % 8192 →
      exec (.lwWrite) s = .next (keepOtp s (if lwProtected (lwBp u.orr) a then replied u c .storeProtected []
          else replied { u with orr := { u.orr with cycle := some (.page (a / 32) (lwPageImage u.orr a (c.bytes.drop 8))) } } c .ok []))) ∧
    (∀ (c : CmdRec) (rest : List CmdRec) (l : List LedgerEntry) (t : State) (s : State),
      nextServed s 0x050C c rest →
      t = taken s rest →
      c.bytes.length = 12 →
      byteAt c.bytes 8 ≠ 0 →
      byteAt c.bytes 8 ≤ 64 →
      allZero (slice c.bytes 9 3) = true →
      unheld t .bulkOut = true →
      (l = (ledgerFrom t (leAt c.bytes 4 4) (byteAt c.bytes 8)).filter fun e => decide (e.index.toNat < leAt c.bytes 4 4 + byteAt c.bytes 8)) →
      exec (.ledgerRead) s = .next (keepOtp s (if l = [] then underway t c .bulkOut { result := bulkResult 0xFF 1 0 0 }
          else underway t c .bulkOut (bulkAns 1 l.length (l.flatMap fun e => e.data))))) ∧
    (∀ (c : CmdRec) (rest : List CmdRec) (t : State) (s : State),
      nextServed s 0x050D c rest →
      t = taken s rest →
      c.bytes.length = 8 →
      exec (.ledgerAck) s = .next (keepOtp s (replied (doOrLedgerAckWrite (BitVec.ofNat 32 (leAt c.bytes 4 4)) t) c
          (if t.ledger.ack.toNat < (BitVec.ofNat 32 (leAt c.bytes 4 4) : W32).toNat ∧ (ackCommit (BitVec.ofNat 32 (leAt c.bytes 4 4)) t).2 = false then .retry else .ok) []))) ∧
    (∀ (c : CmdRec) (rest : List CmdRec) (t : State) (s : State),
      nextServed s 0x050E c rest →
      t = taken s rest →
      c.bytes.length = 4 →
      exec (.ledgerStatus) s = .next (keepOtp s (replied t c .ok (leBytes 4 t.ledger.nextIndex.toNat ++ leBytes 4 (ledgerOldest t) ++ leBytes 4 t.ledger.ack.toNat ++
          leBytes 4 ((lastPair (ledgerThere t.ledger)).getD 0xFFFFFFFF) ++ leBytes 4 (b2n t.ledger.ledgerHigh))))) ∧
    (∀ (c : CmdRec) (rest : List CmdRec) (t : State) (s : State),
      nextServed s 0x0601 c rest →
      t = taken s rest →
      c.bytes.length = 8 →
      10 ≤ byteAt c.bytes 4 →
      byteAt c.bytes 4 ≤ 120 →
      allZero (slice c.bytes 5 3) = true →
      exec (.radioHfLinger) s = .next (keepOtp s (replied (startLinger t (byteAt c.bytes 4)) c .ok []))) ∧
    (∀ (c : CmdRec) (rest : List CmdRec) (t : State) (s : State),
      nextServed s 0x0602 c rest →
      t = taken s rest →
      c.bytes.length = 8 →
      leAt c.bytes 6 2 ≠ 0 →
      leAt c.bytes 6 2 ≤ 120 →
      leAt c.bytes 4 2 + leAt c.bytes 6 2 ≤ 1024 →
      exec (.radioTagRead) s = .next (keepOtp s (afterAnswer (passEnd (tagAccess t { read := some (leAt c.bytes 4 2, leAt c.bytes 6 2), since := now t, cmd := some (c.slot, BitVec.ofNat 16 (ctagOf c.bytes)) }))))) ∧
    (∀ (c : CmdRec) (rest : List CmdRec) (read bad : Bool) (t : State) (s : State),
      nextServed s 0x0603 c rest →
      t = taken s rest →
      10 ≤ c.bytes.length →
      c.bytes.length ≤ 248 →
      c.bytes.length = 8 + 2 * leAt c.bytes 6 2 →
      leAt c.bytes 6 2 ≠ 0 →
      leAt c.bytes 6 2 ≤ 120 →
      leAt c.bytes 4 2 + leAt c.bytes 6 2 ≤ 1024 →
      (((List.range (leAt c.bytes 6 2)).all fun n => regionOf (leAt c.bytes 4 2 + n) == 0 || regionOf (leAt c.bytes 4 2 + n) == 4) = true) →
      t.tag.readerHold = true ∨ read = false ∨ bad = true →
      exec (.radioTagWrite read bad) s = .next (keepOtp s (afterAnswer (passEnd (tagAccess t { writes := tagSplit (leAt c.bytes 4 2) (c.bytes.drop 8), since := now t, bad := bad, cmd := some (c.slot, BitVec.ofNat 16 (ctagOf c.bytes)) }))))) ∧
    (∀ (c : CmdRec) (rest : List CmdRec) (a : TagAccess) (u : State) (t : State) (s : State),
      nextServed s 0x0603 c rest →
      t = taken s rest →
      10 ≤ c.bytes.length →
      c.bytes.length ≤ 248 →
      c.bytes.length = 8 + 2 * leAt c.bytes 6 2 →
      leAt c.bytes 6 2 ≠ 0 →
      leAt c.bytes 6 2 ≤ 120 →
      leAt c.bytes 4 2 + leAt c.bytes 6 2 ≤ 1024 →
      (((List.range (leAt c.bytes 6 2)).all fun n => regionOf (leAt c.bytes 4 2 + n) == 0 || regionOf (leAt c.bytes 4 2 + n) == 4) = true) →
      t.tag.readerHold = false →
      a = { writes := tagSplit (leAt c.bytes 4 2) (c.bytes.drop 8), since := now t, cmd := some (c.slot, BitVec.ofNat 16 (ctagOf c.bytes)) } →
      u = tagBegin (tagServe t) a [] →
      exec (.radioTagWrite true false) s = .next (keepOtp s (afterAnswer (passEnd { u with tag := { u.tag with readerHold := true } })))) ∧
    (∀ (c : CmdRec) (rest : List CmdRec) (read bad : Bool) (n : Nat) (t : State) (s : State),
      nextServed s 0x0603 c rest →
      t = taken s rest →
      10 ≤ c.bytes.length →
      c.bytes.length ≤ 248 →
      c.bytes.length = 8 + 2 * leAt c.bytes 6 2 →
      leAt c.bytes 6 2 ≠ 0 →
      leAt c.bytes 6 2 ≤ 120 →
      leAt c.bytes 4 2 + leAt c.bytes 6 2 ≤ 1024 →
      n < leAt c.bytes 6 2 →
      regionOf (leAt c.bytes 4 2 + n) ≠ 0 →
      regionOf (leAt c.bytes 4 2 + n) ≠ 4 →
      exec (.radioTagWrite read bad) s = .next (keepOtp s (replied t c .storeProtected []))) ∧
    (∀ (c : CmdRec) (rest : List CmdRec) (t : State) (s : State),
      nextServed s 0x0604 c rest →
      t = taken s rest →
      c.bytes.length = 4 →
      exec (.radioCoex) s = .next (keepOtp s (replied t c .ok (coexBytes t 0 ++ coexBytes t 1))))

/-- Admitted (nextServed) with a legal record and the staging resource free: STAGE_OPEN opens an area of the given total, area 0 only while no image is on trial or waits to be; STAGE_WRITE takes bytes in order, and a header fault aborts the staging with IMAGE_INVALID; STAGE_VERIFY of a complete area answers what the verification finds (verifyArea), a verified image of area 0 being programmed before the answer, and keeps a verified area; STAGE_ABORT zeroes the area; CFG_LOAD, BUSY during an approach or a session, stores and applies the verified bundle and zeroes its area, and a bundle already loaded changes nothing; UPD_ACTIVATE records the trial, at once with a device reset to follow or deferred with area 0 kept; UPD_CONFIRM on trial after S15 makes the trial image the active one and the former active one valid; a boot record that does not commit is answered RETRY; UPD_STATUS answers the image slots. -/
def Obligations.UpdateCommands : Prop :=
    (∀ (c : CmdRec) (rest : List CmdRec) (t : State) (s : State),
      nextServed s 0x0701 c rest →
      t = taken s rest →
      c.bytes.length = 12 →
      byteAt c.bytes 4 ≤ 2 →
      allZero (slice c.bytes 5 3) = true →
      174 ≤ leAt c.bytes 8 4 →
      leAt c.bytes 8 4 ≤ areaMax (byteAt c.bytes 4) + 173 →
      unheld t .staging = true →
      exec (.stageOpen) s = .next (keepOtp s (if byteAt c.bytes 4 = 0 ∧ t.boot.record.trialSlot.isSome = true then replied t c .wrongState []
          else underway (setArea t (byteAt c.bytes 4) { opened := true, total := leAt c.bytes 8 4 }) c .staging {}))) ∧
    (∀ (c : CmdRec) (rest : List CmdRec) (x y : StageArea) (d : Bytes) (t : State) (s : State),
      nextServed s 0x0702 c rest →
      t = taken s rest →
      12 ≤ c.bytes.length →
      c.bytes.length ≤ 252 →
      byteAt c.bytes 4 ≤ 2 →
      allZero (slice c.bytes 5 3) = true →
      x = areaOf t (byteAt c.bytes 4) →
      x.opened = true →
      d = c.bytes.drop 12 →
      d.isEmpty = false →
      unheld t .staging = true →
      leAt c.bytes 8 4 = x.received →
      x.received + d.length ≤ x.total →
      y = { x with received := x.received + d.length, data := memWriteBytes x.data x.received d, unverified := true } →
      exec (.stageWrite) s = .next (keepOtp s (if 16 ≤ y.received ∧ headerOk t (byteAt c.bytes 4) y.total (areaHeader y) = false
          then replied (zeroArea t (byteAt c.bytes 4)) c .imageInvalid []
          else underway (setArea t (byteAt c.bytes 4) y) c .staging {}))) ∧
    (∀ (c : CmdRec) (rest : List CmdRec) (x : StageArea) (t : State) (s : State),
      nextServed s 0x0703 c rest →
      t = taken s rest →
      c.bytes.length = 8 →
      byteAt c.bytes 4 ≤ 2 →
      allZero (slice c.bytes 5 3) = true →
      x = areaOf t (byteAt c.bytes 4) →
      x.opened = true →
      x.total ≤ x.received →
      unheld t .staging = true →
      exec (.stageVerify) s = .next (keepOtp s (if x.verified = true then underway t c .staging {}
          else underway (verifyArea t (byteAt c.bytes 4)).2.2 c .staging
            { status := (verifyArea t (byteAt c.bytes 4)).1, result := (verifyArea t (byteAt c.bytes 4)).2.1
              work := if (byteAt c.bytes 4 = 0 && (verifyArea t (byteAt c.bytes 4)).1 = .ok) = true then .program else .done }))) ∧
    (∀ (c : CmdRec) (rest : List CmdRec) (t : State) (s : State),
      nextServed s 0x0704 c rest →
      t = taken s rest →
      c.bytes.length = 8 →
      byteAt c.bytes 4 ≤ 2 →
      allZero (slice c.bytes 5 3) = true →
      exec (.stageAbort) s = .next (keepOtp s (replied (zeroArea t (byteAt c.bytes 4)) c .ok []))) ∧
    (∀ (c : CmdRec) (rest : List CmdRec) (temp : Int) (b : Bytes) (t : State) (s : State),
      nextServed s 0x0705 c rest →
      t = taken s rest →
      c.bytes.length = 4 →
      unheld t .staging = true →
      t.cmds.area2.verified = true →
      b = t.cmds.area2.body →
      exec (.cfgLoad temp) s = .next (keepOtp s (if approachRuns t = true ∨ sessionOpen t = true then replied t c .busy []
          else underway (if Config.sha256 b = t.orr.sys.digest ∧ leAt b 8 4 = t.orr.sys.bundleSeq.toNat ∧ t.cmds.bundle.isSome = true
            then zeroArea t 2
            else match parseBundle b with
              | some x => cfgApply (cfgStore (zeroArea t 2) b) x temp
              | none => zeroArea t 2) c .staging { committed := true, result := leBytes 4 (leAt b 8 4) }))) ∧
    (∀ (c : CmdRec) (rest : List CmdRec) (t : State) (s : State),
      nextServed s 0x0706 c rest →
      t = taken s rest →
      c.bytes.length = 8 →
      byteAt c.bytes 4 = 0 →
      allZero (slice c.bytes 5 3) = true →
      t.cmds.area0.verified = true →
      unheld t .staging = true →
      exec (.updActivateNow) s = .next (keepOtp s (if approachRuns t = true ∨ sessionOpen t = true then replied t c .busy []
          else if (activate t false).2 = true then replied { zeroArea (activate t false).1 0 with
            cmds := { (zeroArea (activate t false).1 0).cmds with after := .deviceRestart } } c .ok []
          else replied (activate t false).1 c .retry []))) ∧
    (∀ (c : CmdRec) (rest : List CmdRec) (t : State) (s : State),
      nextServed s 0x0706 c rest →
      t = taken s rest →
      c.bytes.length = 8 →
      byteAt c.bytes 4 = 1 →
      allZero (slice c.bytes 5 3) = true →
      t.cmds.area0.verified = true →
      unheld t .staging = true →
      exec (.updActivateDeferred) s = .next (keepOtp s (replied (activate t true).1 c (if (activate t true).2 = true then .ok else .retry) []))) ∧
    (∀ (c : CmdRec) (rest : List CmdRec) (n : Fin 2) (r : BootRecord) (u : State × Bool) (t : State) (s : State),
      nextServed s 0x0707 c rest →
      t = taken s rest →
      c.bytes.length = 4 →
      onTrial t.boot = true →
      t.boot.step = 16 →
      t.boot.record.trialSlot = some n →
      r = setSlotState (setSlotState t.boot.record t.boot.record.active .valid) n .active →
      u = bootTry t { r with active := n, trialSlot := none, trialFails := 0, trialPend := false } →
      exec (.updConfirm) s = .next (keepOtp s (if u.2 = true then replied (journalAdd u.1 16 12 (statusCode .ok) 0 (activeDetail u.1 n)) c .ok []
          else replied { u.1 with boot := { u.1.boot with record := t.boot.record } } c .retry []))) ∧
    (∀ (c : CmdRec) (rest : List CmdRec) (r : BootRecord) (t : State) (s : State),
      nextServed s 0x0708 c rest →
      t = taken s rest →
      c.bytes.length = 4 →
      r = t.boot.record →
      exec (.updStatus) s = .next (keepOtp s (replied t c .ok (slotStatus (imageAt t 0) r.stateA ++ slotStatus (imageAt t 1) r.stateB ++
          slotStatus (imageAt t 2) (if (imageAt t 2).present then .valid else .empty) ++ leBytes 4 t.boot.arbDevice))))

/-- LC_CREDENTIAL admitted (nextServed) with a legal record that writes no slot whose generations are spent, outside a credential lock-out and with a signer named for its action in the present state (log entry 144): the challenge is consumed; where a check of the credential fails the answer is AUTH_FAIL and the credential path counts a failure; otherwise the action has its effect: PROVISION after S15 writes slot 172, sets Provisioned with the tag permanently locked and takes the next profiles; FIELD with a bundle and no debug session destroys the test roster, sets Fielded and locks the ports and the tamper configuration; ENTER_SERVICING without a start session or a running engine opens a visit up to the credential's end; TAMPER_ACK clears the latch and the service-lock where no source is live and answers WRONG_STATE otherwise; LOCKOUT_END ends the lock-outs named; RETIRE sets Retired, locks the ports and erases; DEBUG_OPEN switches to the Debug root up to the credential's end; KEY_LOAD writes slot 173 or 174. RETIRE without a signer answers WRONG_STATE. ORIGIN of a written slot is a free value (writePublic). -/
def Obligations.CredentialActions : Prop :=
    (∀ (c : CmdRec) (rest : List CmdRec) (u : State) (key : Bytes) (t : State) (s : State),
      nextServed s 0x0802 c rest →
      t = taken s rest →
      c.bytes.length = 104 ∨ c.bytes.length = 168 →
      credBad c.bytes = false →
      credSpent t c.bytes = false →
      byteAt c.bytes 4 = 1 →
      lockedOut t .credential = false →
      u = { t with creds := { t.creds with chal := none } } →
      credSigner u .provision = some key →
      t.boot.step = 16 →
      exec (.provision) s = .next (keepOtp s (if credGood u .provision t.creds.chal key c.bytes = false then replied (addFailure u .credential) c .authFail []
          else underway (nextProfiles (lcChange (fun x => { x with lcProv := true, tagPermalock := true }) (writePublic u 172 0xFF (credKey c.bytes)))) c .none
            { committed := true }))) ∧
    (∀ (c : CmdRec) (rest : List CmdRec) (u : State) (key : Bytes) (t : State) (s : State),
      nextServed s 0x0802 c rest →
      t = taken s rest →
      c.bytes.length = 104 ∨ c.bytes.length = 168 →
      credBad c.bytes = false →
      credSpent t c.bytes = false →
      byteAt c.bytes 4 = 2 →
      lockedOut t .credential = false →
      u = { t with creds := { t.creds with chal := none } } →
      credSigner u .field = some key →
      t.cmds.bundle.isSome = true →
      t.keys.debug = false →
      exec (.field) s = .next (keepOtp s (if credGood u .field t.creds.chal key c.bytes = false then replied (addFailure u .credential) c .authFail []
          else underway (commitPart { lcChange (fun k => { k with lcField := true, debugLocked := true, jtagLimited := true, rosterCount := 0, hfMask := [] })
              (dropAllCtx (destroyRoster u)) with
            tamper := { (lcChange (fun k => { k with lcField := true, debugLocked := true, jtagLimited := true, rosterCount := 0, hfMask := [] })
              (dropAllCtx (destroyRoster u))).tamper with lock := true } } rosterPages) c .none { committed := true }))) ∧
    (∀ (c : CmdRec) (rest : List CmdRec) (u : State) (key : Bytes) (t : State) (s : State),
      nextServed s 0x0802 c rest →
      t = taken s rest →
      c.bytes.length = 104 ∨ c.bytes.length = 168 →
      credBad c.bytes = false →
      credSpent t c.bytes = false →
      byteAt c.bytes 4 = 3 →
      lockedOut t .credential = false →
      u = { t with creds := { t.creds with chal := none } } →
      credSigner u .enterServicing = some key →
      t.pres.start = none →
      (t.bar.vstate.valid && t.bar.vstate.engineRun) = false →
      exec (.enterServicing) s = .next (keepOtp s (if credGood u .enterServicing t.creds.chal key c.bytes = false then replied (addFailure u .credential) c .authFail []
          else underway (lcChange (fun k => { k with servicing := some (servRecord u (credEnd t.creds.chal c.bytes)) }) u) c .none { committed := true }))) ∧
    (∀ (c : CmdRec) (rest : List CmdRec) (u : State) (key : Bytes) (live : BitVec 6) (o : StartOutcome) (t : State) (s : State),
      nextServed s 0x0802 c rest →
      t = taken s rest →
      c.bytes.length = 104 ∨ c.bytes.length = 168 →
      credBad c.bytes = false →
      credSpent t c.bytes = false →
      byteAt c.bytes 4 = 4 →
      lockedOut t .credential = false →
      u = { detectors t live with creds := { t.creds with chal := none } } →
      credSigner u .tamperAck = some key →
      exec (.tamperAck live o) s = .next (keepOtp s (if credGood u .tamperAck t.creds.chal key c.bytes = false then replied (addFailure u .credential) c .authFail []
          else if u.tamper.live = 0 then underway (tamperAcked o u) c .none { committed := true }
          else replied u c .wrongState []))) ∧
    (∀ (c : CmdRec) (rest : List CmdRec) (u : State) (key : Bytes) (t : State) (s : State),
      nextServed s 0x0802 c rest →
      t = taken s rest →
      c.bytes.length = 104 ∨ c.bytes.length = 168 →
      credBad c.bytes = false →
      credSpent t c.bytes = false →
      byteAt c.bytes 4 = 5 →
      lockedOut t .credential = false →
      u = { t with creds := { t.creds with chal := none } } →
      credSigner u .lockoutEnd = some key →
      exec (.lockoutEnd) s = .next (keepOtp s (if credGood u .lockoutEnd t.creds.chal key c.bytes = false then replied (addFailure u .credential) c .authFail []
          else underway (if byteAt c.bytes 5 = 0 then lockoutEnded u .passive else if byteAt c.bytes 5 = 1 then lockoutEnded u .hf
            else lockoutEnded (lockoutEnded u .passive) .hf) c .none { committed := true }))) ∧
    (∀ (c : CmdRec) (rest : List CmdRec) (u : State) (key : Bytes) (t : State) (s : State),
      nextServed s 0x0802 c rest →
      t = taken s rest →
      c.bytes.length = 104 ∨ c.bytes.length = 168 →
      credBad c.bytes = false →
      credSpent t c.bytes = false →
      byteAt c.bytes 4 = 6 →
      lockedOut t .credential = false →
      u = { t with creds := { t.creds with chal := none } } →
      credSigner u .retire = some key →
      exec (.retire) s = .next (keepOtp s (if credGood u .retire t.creds.chal key c.bytes = false then replied (addFailure u .credential) c .authFail []
          else underway (retireErase (lcChange (fun k => { k with lcRetire := true, debugLocked := true, jtagLimited := true }) u)) c .none { committed := true }))) ∧
    (∀ (c : CmdRec) (rest : List CmdRec) (u : State) (key : Bytes) (t : State) (s : State),
      nextServed s 0x0802 c rest →
      t = taken s rest →
      c.bytes.length = 104 ∨ c.bytes.length = 168 →
      credBad c.bytes = false →
      credSpent t c.bytes = false →
      byteAt c.bytes 4 = 7 →
      lockedOut t .credential = false →
      u = { t with creds := { t.creds with chal := none } } →
      credSigner u .debugOpen = some key →
      t.keys.debug = false →
      exec (.debugOpen) s = .next (keepOtp s (if credGood u .debugOpen t.creds.chal key c.bytes = false then replied (addFailure u .credential) c .authFail []
          else underway (deriveDepot (unmask { gulesLifeCycle u with keys := { (gulesLifeCycle u).keys with debug := true, debugEnd := if credHours c.bytes = 0 then none else some (credEnd t.creds.chal c.bytes) } })) c .none
            { committed := true }))) ∧
    (∀ (c : CmdRec) (rest : List CmdRec) (u : State) (key : Bytes) (t : State) (s : State),
      nextServed s 0x0802 c rest →
      t = taken s rest →
      c.bytes.length = 104 ∨ c.bytes.length = 168 →
      credBad c.bytes = false →
      credSpent t c.bytes = false →
      byteAt c.bytes 4 = 8 →
      lockedOut t .credential = false →
      u = { t with creds := { t.creds with chal := none } } →
      credSigner u .keyLoad = some key →
      exec (.keyLoad) s = .next (keepOtp s (if credGood u .keyLoad t.creds.chal key c.bytes = false then replied (addFailure u .credential) c .authFail []
          else underway (writePublic u (if credHours c.bytes = 173 then 173 else 174) 172 (credKey c.bytes)) c .none { committed := true }))) ∧
    (∀ (c : CmdRec) (rest : List CmdRec) (u : State) (t : State) (s : State),
      nextServed s 0x0802 c rest →
      t = taken s rest →
      c.bytes.length = 104 ∨ c.bytes.length = 168 →
      credBad c.bytes = false →
      credSpent t c.bytes = false →
      byteAt c.bytes 4 = 6 →
      lockedOut t .credential = false →
      u = { t with creds := { t.creds with chal := none } } →
      credSigner u .retire = none →
      exec (.retire) s = .next (keepOtp s (replied u c .wrongState [])))

/-- LC_CHALLENGE answers a fresh challenge, which is a free value, WRONG_STATE without the TRNG and RETRY while it restarts, and the challenge voids 600 s after its issue; LC_SERVICE_EXIT in Servicing, and the passing of its end time, leave it; the passing of a debug session's end closes it; LC_STATUS answers the state, the latch and the lock-outs; the credential lock-out ends at its end time. TAMPER_ALARM takes the detector outputs, that of the enclosure with its polarity (detectors): outputs not enabled or not watched in the power state only become live; others latch, and raise the alarm of the power state (log entry 145): alarmChalk in Chalk, alarmStartup during start-up, alarmAsleep in a resting state, zeroisation alone in Ash; in a retired device an event alone. A class E alarm in Chalk after start-up is recovered from once every source has read 0 for 100 ms. -/
def Obligations.LifeCycleEvents : Prop :=
    (∀ (c : CmdRec) (rest : List CmdRec) (x : Bytes) (u : State) (t : State) (s : State),
      nextServed s 0x0801 c rest →
      t = taken s rest →
      c.bytes.length = 4 →
      x = (drbgBytes t 16).1 →
      u = (drbgBytes t 16).2 →
      exec (.lcChallenge) s = .next (keepOtp s (match trngRefusal t with
          | some st => replied t c st []
          | none => replied { u with creds := { u.creds with chal := some (x, rtcNow u) } } c .ok x))) ∧
    (∀ (c : CmdRec) (rest : List CmdRec) (t : State) (s : State),
      nextServed s 0x0803 c rest →
      t = taken s rest →
      c.bytes.length = 4 →
      lcOf t = .servicing →
      exec (.lcServiceExit) s = .next (keepOtp s (replied (leaveServicing t) c .ok []))) ∧
    (∀ (c : CmdRec) (rest : List CmdRec) (t : State) (s : State),
      nextServed s 0x0804 c rest →
      t = taken s rest →
      c.bytes.length = 4 →
      exec (.lcStatus) s = .next (keepOtp s (replied t c .ok (leBytes 4 (lcStateReg t) ++ leBytes 4 t.tamper.src.toNat ++ leBytes 4 t.tamper.time.toNat ++
          leBytes 4 t.pres.passive.endAt ++ leBytes 4 t.pres.hf.endAt ++ leBytes 4 t.creds.lock.endAt)))) ∧
    (∀ (x : Bytes) (n : Nat) (t : State) (s : State),
      s.creds.chal = some (x, n) →
      t = elapseToRtc s (n + 600) →
      exec (.challengeExpiry) s = .next (keepOtp s ({ t with creds := { t.creds with chal := none } }))) ∧
    (∀ (s : State),
      lockedOut s .credential = true →
      exec (.credentialLockoutExpiry) s = .next (keepOtp s (passEnd (endLockout (elapseToRtc s s.creds.lock.endAt) .credential)))) ∧
    (∀ (r : ServRecord) (s : State),
      lcOf s = .servicing →
      s.keys.servicing = some r →
      exec (.servicingEndTime) s = .next (keepOtp s (passEnd (leaveServicing (elapseToRtc s (r.endAt + 1)))))) ∧
    (∀ (n : Nat) (s : State),
      lcOf s ≠ .servicing →
      s.keys.debug = true →
      s.keys.debugEnd = some n →
      exec (.servicingEndTime) s = .next (keepOtp s (passEnd (closeDebug (elapseToRtc s (n + 1)))))) ∧
    (∀ (src : BitVec 6) (o : StartOutcome) (s : State),
      (detectors s src).tamper.live &&& (s.tamper.en ||| 1) &&& BitVec.ofNat 6 (watchedIn s.pwr.pstate) = 0 →
      exec (.tamperAlarm src o) s = .next (detectors s src)) ∧
    (∀ (src eff : BitVec 6) (o : StartOutcome) (t : State) (s : State),
      eff = (detectors s src).tamper.live &&& (s.tamper.en ||| 1) &&& BitVec.ofNat 6 (watchedIn s.pwr.pstate) →
      eff ≠ 0 →
      t = latchTamper (detectors s src) eff →
      s.keys.lcRetire = false →
      exec (.tamperAlarm src o) s = .next (keepOtp s (match s.pwr.pstate with
          | .chalk => if s.boot.step < 16 then alarmStartup t else alarmChalk eff t
          | .jet => alarmAsleep o .jet eff t
          | .umber => alarmAsleep o .umber eff t
          | .amber => alarmAsleep o .amber eff t
          | .ash => tamperZeroise t
          | .unpowered => t))) ∧
    (∀ (src eff : BitVec 6) (o : StartOutcome) (t : State) (s : State),
      eff = (detectors s src).tamper.live &&& (s.tamper.en ||| 1) &&& BitVec.ofNat 6 (watchedIn s.pwr.pstate) →
      eff ≠ 0 →
      t = latchTamper (detectors s src) eff →
      s.keys.lcRetire = true →
      exec (.tamperAlarm src o) s = .next (keepOtp s (evtTamper { t with tamper := { t.tamper with entryDue := none } } [byte eff.toNat, byte (tamperState s), 0xFF]))) ∧
    (∀ (t : State) (s : State),
      s.tamper.ePending = true →
      s.pwr.pstate = .chalk →
      s.boot.step = 16 →
      t = detectors (elapse s (100 * ticksPerMs)) (if (elapse s (100 * ticksPerMs)).tamper.enclPol then 2 else 0) →
      exec (.tamperClassERecovery) s = .next (keepOtp s (passEnd (deriveDepot (unmask { t with tamper := { t.tamper with ePending := false } })))))

/-- Admitted (nextServed) with a legal record and its resource free: DIAG_LF_SWEEP and DIAG_UWB_TEST are accepted as long commands on the populated channels or ports of their masks, BUSY during an approach or a session; DIAG_JOURNAL and DIAG_TELEMETRY deliver records and totals as BULK frames, FN 0xFF without a record; DIAG_FIELD_CAL in Provisioned or Servicing commits GAIN and PHADJ of the masked channels; DIAG_PROBE there, of a tracked context outside a lock-out and with emission allowed, with a K_T that serves and the TRNG running, draws a fresh N_C, spends a use of K_T and answers the probe (probeResult, log entry 162), and AUTH_FAIL with a counted failure (passiveFailure) where the token's proof does not verify; in a lock-out it answers LOCKED_OUT; DIAG_UHF_TEST in Blank, Provisioned or Servicing, with emission allowed, is accepted as a long command of its DURATION that requests pair 0. -/
def Obligations.DiagnosticCommands : Prop :=
    (∀ (c : CmdRec) (rest : List CmdRec) (t : State) (s : State),
      nextServed s 0x0901 c rest →
      t = taken s rest →
      c.bytes.length = 8 →
      leAt c.bytes 4 2 ≠ 0 →
      leAt c.bytes 4 2 < 4096 →
      leAt c.bytes 6 2 = 0 →
      unheld t .fieldTest = true →
      exec (.diagLfSweep) s = .next (keepOtp s (if approachRuns t = true ∨ sessionOpen t = true then replied t c .busy []
          else underway t c .fieldTest { work := .lfSweep (BitVec.ofNat 12 (leAt c.bytes 4 2) &&& t.vert.pop) (now t) }))) ∧
    (∀ (c : CmdRec) (rest : List CmdRec) (t : State) (s : State),
      nextServed s 0x0902 c rest →
      t = taken s rest →
      c.bytes.length = 8 →
      byteAt c.bytes 4 ≠ 0 →
      byteAt c.bytes 4 < 64 →
      allZero (slice c.bytes 5 3) = true →
      unheld t .fieldTest = true →
      exec (.diagUwbTest) s = .next (keepOtp s (if approachRuns t = true ∨ sessionOpen t = true then replied t c .busy []
          else underway t c .fieldTest { work := .uwbTest (BitVec.ofNat 6 (byteAt c.bytes 4) &&& t.az.pop) (now t) }))) ∧
    (∀ (c : CmdRec) (rest : List CmdRec) (l : List Bytes) (t : State) (s : State),
      nextServed s 0x0903 c rest →
      t = taken s rest →
      c.bytes.length = 8 →
      unheld t .bulkOut = true →
      l = (journalFrom t (leAt c.bytes 4 4)).take 85 →
      exec (.diagJournal) s = .next (keepOtp s (if l = [] then underway t c .bulkOut { result := bulkResult 0xFF 4 0 0 }
          else underway t c .bulkOut (bulkAns 4 l.length (l.flatMap (padTo 48)))))) ∧
    (∀ (c : CmdRec) (rest : List CmdRec) (t : State) (s : State),
      nextServed s 0x0904 c rest →
      t = taken s rest →
      c.bytes.length = 4 →
      unheld t .bulkOut = true →
      exec (.diagTelemetry) s = .next (keepOtp s (underway t c .bulkOut (bulkAns 5 76 (leBytes 2 1 ++ leBytes 2 76 ++ leBytes 4 t.orr.telem.foldS.toNat ++ leBytes 4 t.orr.telem.chalkS ++
          leBytes 4 t.orr.telem.cold ++ (List.finRange 76).flatMap (telemEntry t)))))) ∧
    (∀ (c : CmdRec) (rest : List CmdRec) (g p : Fin 12 → Int) (r : State × Bool) (t : State) (s : State),
      nextServed s 0x0905 c rest →
      t = taken s rest →
      c.bytes.length = 44 →
      lcOf t = .provisioned ∨ lcOf t = .servicing →
      leAt c.bytes 4 2 ≠ 0 →
      leAt c.bytes 4 2 < 4096 →
      leAt c.bytes 6 2 = 0 →
      (∀ n, n < 12 → (calGain c.bytes n).natAbs ≤ 60 ∧ (calPhAdj c.bytes n).natAbs ≤ 32) →
      (g = fun n => if bitAt (leAt c.bytes 4 2) n.val then calGain c.bytes n.val else t.pres.cal.gain[n]) →
      (p = fun n => if bitAt (leAt c.bytes 4 2) n.val then calPhAdj c.bytes n.val else t.pres.cal.phAdj[n]) →
      r = commitTry { t with pres := { t.pres with cal := { t.pres.cal with gain := Vector.ofFn g, phAdj := Vector.ofFn p } } } calField →
      exec (.diagFieldCal) s = .next (keepOtp s (replied r.1 c (if r.2 = true then .ok else .retry) []))) ∧
    (∀ (c : CmdRec) (rest : List CmdRec) (ok : Bool) (sig : Vector Byte 6) (i0 : Vector (BitVec 12) 3) (a b : Vector Byte 3) (x : Fin 160) (k : Nat → Int) (u v : State) (t : State) (s : State),
      nextServed s 0x0906 c rest →
      t = taken s rest →
      c.bytes.length = 12 →
      lcOf t = .provisioned ∨ lcOf t = .servicing →
      mayEmit t = true →
      unheld t .fieldTest = true →
      lockedOut t .passive = false →
      ctxN (byteAt c.bytes 4) = some x →
      byteAt c.bytes 5 ≤ 15 →
      tripleByte t (byteAt c.bytes 5) 0 ≠ 0xFF →
      ((t.pres.tracked.any fun y => y.ctx == x) = true) →
      slotRefusal t (slotAt t (slotKt x)) useAqmos = none →
      trngRefusal t = none →
      (k = fun n => s16 (leAt c.bytes (6 + 2 * n) 2) * 1000) →
      u = (drbgBytes t 4).2 →
      v = spendUse { u with gq := { u.gq with nC := BitVec.ofNat 32 (beAt (drbgBytes t 4).1 0 4), nCFresh := false } } (slotKt x) →
      exec (.diagProbe ok sig i0 a b) s = .next (keepOtp s (if ok = false
          then underway (passiveFailure v) c .fieldTest
            { status := .authFail }
          else underway v c .fieldTest
            { result := probeResult t x ⟨byteAt c.bytes 5 % 16, Nat.mod_lt _ (by decide)⟩ (k 0, k 1, k 2) sig.toList i0 a b }))) ∧
    (∀ (c : CmdRec) (rest : List CmdRec) (ok : Bool) (sig : Vector Byte 6) (i0 : Vector (BitVec 12) 3) (a b : Vector Byte 3) (x : Fin 160) (t : State) (s : State),
      nextServed s 0x0906 c rest →
      t = taken s rest →
      c.bytes.length = 12 →
      lcOf t = .provisioned ∨ lcOf t = .servicing →
      mayEmit t = true →
      unheld t .fieldTest = true →
      lockedOut t .passive = true →
      ctxN (byteAt c.bytes 4) = some x →
      byteAt c.bytes 5 ≤ 15 →
      tripleByte t (byteAt c.bytes 5) 0 ≠ 0xFF →
      exec (.diagProbe ok sig i0 a b) s = .next (keepOtp s (replied t c .lockedOut []))) ∧
    (∀ (c : CmdRec) (rest : List CmdRec) (t : State) (s : State),
      nextServed s 0x0907 c rest →
      t = taken s rest →
      c.bytes.length = 12 →
      lcOf t = .blank ∨ lcOf t = .provisioned ∨ lcOf t = .servicing →
      mayEmit t = true →
      unheld t .fieldTest = true →
      byteAt c.bytes 4 = 0 →
      byteAt c.bytes 5 ≤ 7 →
      byteAt c.bytes 6 ≤ 63 →
      byteAt c.bytes 7 = 0 →
      leAt c.bytes 8 2 ≠ 0 →
      leAt c.bytes 8 2 ≤ 10000 →
      leAt c.bytes 10 2 = 0 →
      byteAt c.bytes 6 ≤ (vgetN t.tn.chan (byteAt c.bytes 5) {}).pwrMax.toNat →
      exec (.diagUhfCarrier) s = .next (keepOtp s (coexUpdate (underway t c .fieldTest { result := zeros 8, work := .uhfTest (now t) (leAt c.bytes 8 2 * 38400) true })))) ∧
    (∀ (c : CmdRec) (rest : List CmdRec) (bits errors : W32) (t : State) (s : State),
      nextServed s 0x0907 c rest →
      t = taken s rest →
      c.bytes.length = 12 →
      lcOf t = .blank ∨ lcOf t = .provisioned ∨ lcOf t = .servicing →
      mayEmit t = true →
      unheld t .fieldTest = true →
      byteAt c.bytes 4 = 1 →
      byteAt c.bytes 5 ≤ 7 →
      byteAt c.bytes 6 ≤ 63 →
      byteAt c.bytes 7 = 0 →
      leAt c.bytes 8 2 ≠ 0 →
      leAt c.bytes 8 2 ≤ 10000 →
      leAt c.bytes 10 2 = 0 →
      byteAt c.bytes 6 ≤ (vgetN t.tn.chan (byteAt c.bytes 5) {}).pwrMax.toNat →
      exec (.diagUhfReceive bits errors) s = .next (keepOtp s (coexUpdate (underway t c .fieldTest { result := leBytes 4 bits.toNat ++ leBytes 4 errors.toNat, work := .uhfTest (now t) (leAt c.bytes 8 2 * 38400) false }))))

/-- A record whose opcode no command table names is answered BAD_OPCODE, a record of fewer than four bytes BAD_LENGTH, while the device serves commands. The first long command of a slot that may end (longOf, log entry 167) and whose work is done is answered with its result, one that programs an image once that is programmed; a sweep with no channel left answers the channels' classes; a UHF test ends after its duration with its result, BUSY where a carrier may not be sent, COEX_DENIED, counted, without the grant; a port test whose conditions hold tests its ports and answers their classes, and otherwise is ended by testBusy 50 ms after its acceptance. The oldest event is posted with its index and the number of events lost before it once the link is up and the buffer has room. -/
def Obligations.CommandTraffic : Prop :=
    (∀ (c : CmdRec) (rest : List CmdRec) (s : State),
      servesNow s = true →
      s.cmds.queue = c :: rest →
      opcodeDefined (opcodeOf c.bytes) = false →
      exec (.undefinedOpcode) s = .next (keepOtp s (replied (taken s rest) c (if c.bytes.length < 4 then .badLength else .badOpcode) []))) ∧
    (∀ (slot : Fin 16) (ports : Vector PortCheck 6) (l : LongCmd) (s : State),
      longOf s slot = some l →
      l.work = .done →
      exec (.longCommandComplete slot ports) s = .next (keepOtp s (afterAnswer (passEnd (finishLong s l))))) ∧
    (∀ (slot : Fin 16) (ports : Vector PortCheck 6) (l : LongCmd) (s : State),
      longOf s slot = some l →
      l.work = .program →
      exec (.longCommandComplete slot ports) s = .next (keepOtp s (afterAnswer (passEnd (finishLong (programEnd s) l))))) ∧
    (∀ (slot : Fin 16) (ports : Vector PortCheck 6) (l : LongCmd) (m : BitVec 12) (since : Nat) (s : State),
      longOf s slot = some l →
      l.work = .lfSweep m since →
      m = 0 →
      exec (.longCommandComplete slot ports) s = .next (keepOtp s (afterAnswer (passEnd (endWith s l { l with result := lfClasses s }))))) ∧
    (∀ (slot : Fin 16) (ports : Vector PortCheck 6) (l : LongCmd) (m : BitVec 6) (since : Nat) (s : State),
      longOf s slot = some l →
      l.work = .uwbTest m since →
      exec (.longCommandComplete slot ports) s = .next (keepOtp s (afterAnswer (passEnd (if sweepMay s then endWith (testPorts s m ports) l { l with result := azClasses (testPorts s m ports) }
          else testBusy s l since))))) ∧
    (∀ (slot : Fin 16) (ports : Vector PortCheck 6) (l : LongCmd) (since dur : Nat) (tx : Bool) (s : State),
      longOf s slot = some l →
      l.work = .uhfTest since dur tx →
      exec (.longCommandComplete slot ports) s = .next (keepOtp s (afterAnswer (passEnd (if (tx && vbatNoTx s) = true then coexUpdate (endWith s l { l with status := .busy, result := [] })
          else if coexGranted s 0 = true then coexUpdate (finishLong (elapseTo s (since + dur)) l)
          else coexUpdate (endWith (anomSet { s with
            cel := { s.cel with nCoex := satInc s.cel.nCoex }, tn := { s.tn with nCoex0 := satInc s.tn.nCoex0 } } 8) l
            { l with status := .coexDenied, result := [] })))))) ∧
    (∀ (e : Event) (es : List Event) (t : State) (s : State),
      s.ev.ring = e :: es →
      s.cmds.outbox = [] →
      s.bar.link = .up →
      s.cmds.repostWait = false →
      roomFor s (recordUnits 48) = true →
      t = postRecord s 2 (byte s.ev.evtIdx.toNat) (evtPayload e s.ev.lost) →
      exec (.evtPost) s = .next (keepOtp s (afterAnswer (passEnd { t with ev := { t.ev with ring := es, lost := 0, evtIdx := t.ev.evtIdx + 1 } }))))

/-- Outside Ash: a dirty page is committed (commitPage), with a copy that mismatches or not; the older copy of a page whose current copy's transaction is done is erased, that of a page of an open transaction stays; a ring with fewer than two erased pages has its oldest page's live records copied, and the next step erases that page, counted. The next page of NATIVE that a deleted partition has left is erased, counted; the rights of a partition lapse 10 minutes after their last access and a password block at its end; the end of a write cycle of the legacy window commits its page or the status page, counts, and clears WEL, and a second mismatch at the read-back is reported as WORN with EVT_STORE (log entry 195). -/
def Obligations.StoreAndPartitionEvents : Prop :=
    (∀ (p : Fin 256) (bad : Bool) (s : State),
      (s.orr.pages[p]).dirty.isSome = true →
      s.orr.ash = false →
      exec (.lazyCommit p bad) s = .next (keepOtp s ((commitPage s p 0 (readBacks s (some bad))).1))) ∧
    (∀ (p : Fin 256) (x : NvCopy) (s : State),
      currentCopy (s.orr.pages[p]).nv = some x →
      x.txn.toNat ≤ s.orr.txnDone.toNat →
      s.orr.ash = false →
      exec (.oldCopyErase p) s = .next (keepOtp s (eraseOld s p))) ∧
    (∀ (p : Fin 256) (x : NvCopy) (s : State),
      currentCopy (s.orr.pages[p]).nv = some x →
      s.orr.txnDone.toNat < x.txn.toNat →
      exec (.oldCopyErase p) s = .next (s)) ∧
    (∀ (s : State),
      s.orr.ash = false →
      s.orr.ringCtr.reclaim = false →
      erasedRingPages geoCtr s.orr.ringCtr < 2 →
      exec (.ringReclaim 0) s = .next ({ s with orr := { (addErases s.orr 0) with ringCtr := reclaimCopy geoCtr s.orr.ringCtr } })) ∧
    (∀ (s : State),
      s.orr.ash = false →
      s.orr.ringCtr.reclaim = true →
      exec (.ringReclaim 0) s = .next ({ s with orr := { (addErases s.orr 1) with ringCtr := reclaimErase geoCtr s.orr.ringCtr } })) ∧
    (∀ (s : State),
      s.orr.ash = false →
      s.orr.ringSec.reclaim = false →
      erasedRingPages geoSec s.orr.ringSec < 2 →
      exec (.ringReclaim 1) s = .next ({ s with orr := { (addErases s.orr 0) with ringSec := reclaimCopy geoSec s.orr.ringSec } })) ∧
    (∀ (s : State),
      s.orr.ash = false →
      s.orr.ringSec.reclaim = true →
      exec (.ringReclaim 1) s = .next ({ s with orr := { (addErases s.orr 1) with ringSec := reclaimErase geoSec s.orr.ringSec } })) ∧
    (∀ (s : State),
      s.orr.ash = false →
      s.orr.journal.reclaim = false →
      erasedRingPages geoJournal s.orr.journal < 2 →
      exec (.ringReclaim 2) s = .next ({ s with orr := { (addErases s.orr 0) with journal := reclaimCopy geoJournal s.orr.journal } })) ∧
    (∀ (s : State),
      s.orr.ash = false →
      s.orr.journal.reclaim = true →
      exec (.ringReclaim 2) s = .next ({ s with orr := { (addErases s.orr 1) with journal := reclaimErase geoJournal s.orr.journal } })) ∧
    (∀ (i : Nat) (s : State),
      s.orr.ash = false →
      (List.range 80).find? (fun k => !pageOwned s (150 + k) && !pageErased s (150 + k)) = some i →
      exec (.nativePartitionErase) s = .next ({ s with orr := { (addErases s.orr 1) with pages := vmodN s.orr.pages (150 + i) fun g => { nv := { worn := g.nv.worn } } } })) ∧
    (∀ (s : State),
      (List.range 80).find? (fun k => !pageOwned s (150 + k) && !pageErased s (150 + k)) = none →
      exec (.nativePartitionErase) s = .next (s)) ∧
    (∀ (part : Fin 8) (r : PartRight) (t : State) (s : State),
      r = s.orr.rights[part] →
      r.read = true ∨ r.write = true →
      t = elapseTo s (r.access + 600 * ticksPerSec) →
      exec (.passwordIdleExpiry part) s = .next (keepOtp s ({ t with orr := { t.orr with rights := vmod t.orr.rights part fun q => { q with read := false, write := false } } }))) ∧
    (∀ (part : Fin 8) (n : Nat) (t : State) (s : State),
      (s.orr.rights[part]).blocked = some n →
      t = elapseTo s n →
      exec (.passwordBlockExpiry part) s = .next (keepOtp s ({ t with orr := { t.orr with rights := vmod t.orr.rights part fun q => { q with blocked := none } } }))) ∧
    (∀ (p : Nat) (data : Bytes) (x : NvPage × Store × Bool) (t : State) (s : State),
      s.orr.cycle = some (.page p data) →
      x = commitNv (vgetN s.orr.lw p {}) data 0 (readBacks s none) s.orr →
      (t = { s with orr := cycleOver { x.2.1 with lw := vmodN s.orr.lw p fun _ => x.1 } }) →
      exec (.lwWriteCycleEnd) s = .next (keepOtp s (if x.2.2 then t else evtStore t 3 4 p .ok))) ∧
    (∀ (b : BitVec 2) (x : NvPage × Store × Bool) (t : State) (s : State),
      s.orr.cycle = some (.status b) →
      x = commitNv s.orr.lwStatus (padTo 32 [byte b.toNat]) 0 (readBacks s none) s.orr →
      t = { s with orr := cycleOver { x.2.1 with lwStatus := x.1 } } →
      exec (.lwWriteCycleEnd) s = .next (keepOtp s (if x.2.2 then t else evtStore t 3 4 256 .ok)))

/-- Outside Ash and before retirement the oldest queued entry is appended where no checkpoint waits (appendEvent, the queue being refilled), a waiting checkpoint pair is tried, and 1 s after it was due it is appended without a signature; outside Ash the sector ahead is erased (log entry 96). An acknowledgement above the present one is kept and committed with SYS, and the level is evaluated; another only evaluates it. In a retired device nothing is appended. -/
def Obligations.LedgerEvents : Prop :=
    (∀ (r : LedgerReq) (rs : List LedgerReq) (signOk : Bool) (s : State),
      s.orr.ash = false →
      s.keys.lcRetire = false →
      s.ledger.ckptSince = none →
      s.ledger.queue = r :: rs →
      exec (.ledgerAppend signOk) s = .next (keepOtp s (appendEvent (refillQueue { s with ledger := { s.ledger with queue := rs } }) r signOk))) ∧
    (∀ (signOk : Bool) (s : State),
      s.orr.ash = false →
      s.keys.lcRetire = false →
      s.ledger.ckptSince.isSome = true →
      exec (.ledgerAppend signOk) s = .next (keepOtp s (tryPair s signOk))) ∧
    (∀ (signOk : Bool) (s : State),
      s.keys.lcRetire = true →
      exec (.ledgerAppend signOk) s = .next (s)) ∧
    (∀ (n : Nat) (t : State) (s : State),
      s.ledger.ckptSince = some n →
      s.orr.ash = false →
      t = elapseTo s (n + ticksPerSec) →
      n + ticksPerSec ≤ now t →
      exec (.checkpointSignTimeout) s = .next (keepOtp s (appendPair t false))) ∧
    (∀ (s : State),
      s.orr.ash = false →
      exec (.ledgerSectorErase) s = .next (keepOtp s (eraseAhead s))) ∧
    (∀ (v : W32) (s : State),
      s.ledger.ack.toNat < v.toNat →
      exec (.orLedgerAckWrite v) s = .next (keepOtp s (highEval (ackCommit v s).1))) ∧
    (∀ (v : W32) (s : State),
      v.toNat ≤ s.ledger.ack.toNat →
      exec (.orLedgerAckWrite v) s = .next (keepOtp s (highEval s)))

/-- In Chalk outside service-lock the field goes on once it has been off for 5.1 ms, and card detection starts with its learning; elsewhere neither does anything. The field and detection go off on their commands. A ping while detection runs is judged 1 ms after the last while learning, else 250 ms (pingResult, log entry 115). HF_GO sends a frame that the reader supports, at its rate, under the field, an HAUTH outside a lock-out of the HF path alone (hfSend); another frame is not sent. At the reply: to REQA or WUPA, ANTICOLLISION of level 1 follows, without one hfNoCard acts; a collision continues with bit 1, a complete UID is selected, a complete SAK is followed by HAUTH, in a lock-out by HLTA (log entry 16); an HRESP in time from an enrolled context is judged (hfJudge, log entry 116), from no enrolled one it is noise, and none is lost; HLTA's end counts the card, and after HCONF comes HLTA. At t_GUARD REQA goes out; 50 ms after detection the field goes off and the card counts as served; the linger's end stops detection. -/
def Obligations.HfReaderEvents : Prop :=
    (∀ (t : State) (s : State),
      hfAllowed s = true →
      s.hf.field = false →
      t = elapseTo s s.hf.offUntil →
      exec (.hfFieldOn) s = .next (keepOtp s ({ t with hf := { t.hf with field := true, phase := .guard, detectedAt := now t, cards := 0 } }))) ∧
    (∀ (s : State),
      hfAllowed s = false →
      exec (.hfFieldOn) s = .next (s)) ∧
    (∀ (s : State),
      exec (.hfFieldOff) s = .next (keepOtp s (releaseTouch (hfFieldOff s)))) ∧
    (∀ (s : State),
      s.pwr.pstate = .chalk →
      s.keys.svcLock = false →
      exec (.hfLpcdStart) s = .next (keepOtp s ({ s with hf := { s.hf with lpcd := true, learned := 0, baseAmp := 0, basePh := 0, pingAt := now s } }))) ∧
    (∀ (s : State),
      s.pwr.pstate ≠ .chalk ∨ s.keys.svcLock = true →
      exec (.hfLpcdStart) s = .next (s)) ∧
    (∀ (s : State),
      exec (.hfLpcdStop) s = .next (keepOtp s ({ s with hf := { s.hf with lpcd := false } }))) ∧
    (∀ (amp ph : W16) (s : State),
      s.hf.lpcd = true →
      s.hf.suspended = false →
      s.hf.field = false →
      s.pwr.pstate = .chalk →
      exec (.hfPing amp ph) s = .next (keepOtp s (pingResult (elapseTo s (s.hf.pingAt + (if s.hf.learned < 4 then ticksPerMs else 250 * ticksPerMs))) amp (s16 ph.toNat)))) ∧
    (∀ (b : Bytes) (f : HfFrame) (rate : BitVec 2) (s : State),
      b = memReadBytes s.hf.txbuf 0 s.hf.txLen.toNat →
      hfFrame b = some f →
      s.hf.field = true →
      f ≠ .hauth ∨ lockedOut s .hf = false →
      rate.toNat = hfRateFor s f →
      exec (.hfGo rate) s = .next (keepOtp s (hfSend s f b))) ∧
    (∀ (b : Bytes) (rate : BitVec 2) (s : State),
      b = memReadBytes s.hf.txbuf 0 s.hf.txLen.toNat →
      hfFrame b = none ∨ (hfFrame b = some .hauth ∧ lockedOut s .hf = true) →
      exec (.hfGo rate) s = .next (s)) ∧
    (∀ (result : BitVec 2) (data : Bytes) (valid : BitVec 6) (fdt : W16) (t : State) (f : HfFrame) (s : State),
      s.hf.phase ≠ .idle ∧ s.hf.phase ≠ .guard →
      s.hf.conf = none →
      t = hfStored s result data fdt →
      hfTxFrame s.hf = some f →
      f = .reqa ∨ f = .wupa →
      exec (.hfGoDone result data valid fdt) s = .next (keepOtp s (passEnd (if result = 0 then hfNoCard t f else hfAntic t 1 [])))) ∧
    (∀ (data : Bytes) (valid : BitVec 6) (fdt : W16) (t : State) (bits : List Bool) (s : State),
      s.hf.phase ≠ .idle ∧ s.hf.phase ≠ .guard →
      s.hf.conf = none →
      t = hfStored s 3 data fdt →
      hfTxFrame s.hf = some .antic →
      bits = (t.hf.uid ++ (data.flatMap lsbBits).take valid.toNat).take 40 →
      bits.length < 40 →
      exec (.hfGoDone 3 data valid fdt) s = .next (keepOtp s (passEnd (hfAntic t (hfLevel t) (bits ++ [true]))))) ∧
    (∀ (data : Bytes) (valid : BitVec 6) (fdt : W16) (t : State) (bits : List Bool) (s : State),
      s.hf.phase ≠ .idle ∧ s.hf.phase ≠ .guard →
      s.hf.conf = none →
      t = hfStored s 1 data fdt →
      hfTxFrame s.hf = some .antic →
      bits = (t.hf.uid ++ (data.flatMap lsbBits).take valid.toNat).take 40 →
      40 ≤ bits.length →
      exec (.hfGoDone 1 data valid fdt) s = .next (keepOtp s (passEnd (hfSend t .select ([selByte (hfLevel t), 0x70] ++ packBits 5 bits))))) ∧
    (∀ (data : Bytes) (valid : BitVec 6) (fdt : W16) (t : State) (s : State),
      s.hf.phase ≠ .idle ∧ s.hf.phase ≠ .guard →
      s.hf.conf = none →
      t = hfStored s 1 data fdt →
      hfTxFrame s.hf = some .select →
      bitAt (byteAt data 0) 2 = false →
      exec (.hfGoDone 1 data valid fdt) s = .next (keepOtp s (passEnd (if lockedOut t .hf then hfHalt t else hfSend t .hauth [])))) ∧
    (∀ (data : Bytes) (valid : BitVec 6) (fdt : W16) (t : State) (x : Fin 160) (s : State),
      s.hf.phase = .authSent →
      s.hf.conf = none →
      t = hfStored s 1 data fdt →
      hfTxFrame s.hf = some .hauth →
      fdt.toNat ≤ 8340 →
      data.length = 25 →
      byteAt data 0 = 0xB2 →
      ctxOfId t (beAt data 1 8) = some x →
      hfEnrolled t x = true →
      exec (.hfGoDone 1 data valid fdt) s = .next (keepOtp s (passEnd (hfJudge t x data)))) ∧
    (∀ (data : Bytes) (valid : BitVec 6) (fdt : W16) (t : State) (s : State),
      s.hf.phase = .authSent →
      s.hf.conf = none →
      t = hfStored s 1 data fdt →
      hfTxFrame s.hf = some .hauth →
      fdt.toNat ≤ 8340 →
      data.length = 25 →
      byteAt data 0 = 0xB2 →
      ctxOfId t (beAt data 1 8) = none →
      exec (.hfGoDone 1 data valid fdt) s = .next (keepOtp s (passEnd (hfNoise t)))) ∧
    (∀ (result : BitVec 2) (data : Bytes) (valid : BitVec 6) (fdt : W16) (s : State),
      s.hf.phase = .authSent →
      s.hf.conf = none →
      hfTxFrame s.hf = some .hauth →
      result ≠ 1 ∨ 8340 < fdt.toNat →
      exec (.hfGoDone result data valid fdt) s = .next (keepOtp s (passEnd (hfHalt (hfStored s result data fdt))))) ∧
    (∀ (result : BitVec 2) (data : Bytes) (valid : BitVec 6) (fdt : W16) (t : State) (s : State),
      s.hf.phase ≠ .idle ∧ s.hf.phase ≠ .guard →
      s.hf.conf = none →
      t = hfStored s result data fdt →
      hfTxFrame s.hf = some .hlta ∨ hfTxFrame s.hf = some .hconf →
      exec (.hfGoDone result data valid fdt) s = .next (keepOtp s (passEnd (if hfTxFrame s.hf = some .hlta then hfHalted t else hfHalt t)))) ∧
    (∀ (s : State),
      s.hf.field = true →
      s.hf.phase = .guard →
      exec (.hfGuardExpiry) s = .next (keepOtp s (hfSend s .reqa [0x26]))) ∧
    (∀ (t : State) (s : State),
      s.hf.field = true →
      t = hfFieldOff (elapseTo s (s.hf.detectedAt + 50 * ticksPerMs)) →
      exec (.hfFieldTimeout) s = .next (keepOtp s (releaseTouch { t with hf := { t.hf with served := true, lostPings := 0 } }))) ∧
    (∀ (n : Nat) (t : State) (s : State),
      s.hf.lingerUntil = some n →
      t = elapseTo s n →
      exec (.hfLingerExpiry) s = .next (keepOtp s ({ t with hf := { t.hf with lingerUntil := none, lpcd := false } })))

/-- The oldest scheduler event works its stage and the run goes on; in Chalk, outside a run and where the passive path may run, the tracking timer begins a tracking run of the tokens whose cadence since their last exchange is due; an unsent start request is tried again 2 s after its last try and ends with POLICY_DENIED 15 s after it was made, with a start run it leads (log entry 71); a press telegram in the press window, or in a sniff's search which it ends, whose CRC is right is taken as a press (pressKnown) and another is counted as rejected (log entry 47); the candidate of a resynchronisation, the block after wrong MACs and the ignored relay end at their times. -/
def Obligations.PassiveAndPressEvents : Prop :=
    (∀ (x : Fin 64) (es : List (Fin 64)) (work : StageWork) (s : State),
      s.pres.schedEvents = x :: es →
      exec (.schedulerEvent work) s = .next (keepOtp s (passEnd (followUp (settle (stageWork { s with pres := { s.pres with schedEvents := es } } work)))))) ∧
    (∀ (x : Tracked) (xs : List Tracked) (t : State) (s : State),
      sortBy trackFrom s.pres.tracked = x :: xs →
      t = elapseTo s (trackFrom x + trackCadence s) →
      t.pwr.pstate = .chalk →
      t.pres.run = none →
      passiveRuns t = true →
      exec (.trackingTimer) s = .next (keepOtp s (passEnd (beginRun t (trackedRun t .tracking 0 0 false (t.pres.tracked.filter fun y => decide (trackFrom y + trackCadence t ≤ now t))))))) ∧
    (∀ (q : StartRequest) (s : State),
      s.pres.startReq = some q →
      q.sent = false →
      exec (.startPathRetry) s = .next (keepOtp s (passEnd (startPath (elapseTo s (q.lastTry + 2 * ticksPerSec)))))) ∧
    (∀ (q : StartRequest) (t : State) (s : State),
      s.pres.startReq = some q →
      q.sent = false →
      t = endStartReq (elapseTo s (q.since + 15 * ticksPerSec)) .policyDenied 2 →
      exec (.startRequestExpiry) s = .next (keepOtp s (passEnd (match t.pres.run with
          | some r => if r.kind = .start then followUp (endRun t) else t
          | none => t)))) ∧
    (∀ (off : BitVec 12) (p : Bytes) (s : State),
      windowKept s = true →
      s.tn.sniffUntil = none →
      p = memReadBytes s.cel.win off.toNat 23 →
      exec (.pressTelegram off) s = .next (keepOtp s (passEnd (if pressCrcOk p then pressKnown s p else pressReject s)))) ∧
    (∀ (off : BitVec 12) (p : Bytes) (s : State),
      s.tn.sniffUntil.isSome = true →
      p = memReadBytes s.cel.win off.toNat 23 →
      exec (.pressTelegram off) s = .next (keepOtp s (passEnd (if pressCrcOk p then pressKnown (sniffOff (sniffSync s)) p else pressReject (sniffOff (sniffSync s)))))) ∧
    (∀ (off : BitVec 12) (s : State),
      windowKept s = false →
      s.tn.sniffUntil = none →
      exec (.pressTelegram off) s = .next (s)) ∧
    (∀ (ctx : Fin 160) (x : W32) (n : Nat) (s : State),
      (s.ctxs[ctx]).resync = some (x, n) →
      exec (.resyncCandidateExpiry ctx) s = .next (keepOtp s (passEnd (modCtx (elapseTo s (n + 30 * ticksPerSec + 1)) ctx fun y => { y with resync := none })))) ∧
    (∀ (ctx : Fin 160) (n : Nat) (s : State),
      (s.ctxs[ctx]).macBlock = some n →
      exec (.macFailBlockExpiry ctx) s = .next (keepOtp s (passEnd (modCtx (elapseTo s n) ctx fun y => { y with macBlock := none })))) ∧
    (∀ (ctx : Fin 160) (n : Nat) (s : State),
      (s.ctxs[ctx]).relayUntil = some n →
      exec (.relayIgnoreExpiry ctx) s = .next (keepOtp s (passEnd (modCtx (elapseTo s n) ctx fun y => { y with relayUntil := none }))))

/-- An entry session ends with TIMEOUT and a start session is stopped with TIMEOUT in the first tick after its deadline, an event of the deadline's own tick going before (log entry 183); the oldest failure of a path leaves its list once its window has passed (log entry 72); a lock-out ends at its end time. Without a session, a failure or a lock-out the row changes nothing. -/
def Obligations.SessionsAndLockouts : Prop :=
    (∀ (e : EntrySession) (s : State),
      s.pres.entry = some e →
      exec (.entrySessionTimeout) s = .next (keepOtp s (passEnd (endEntry (elapseTo s (e.deadline + 1)) 2 1)))) ∧
    (∀ (x : StartSession) (s : State),
      s.pres.start = some x →
      exec (.startSessionTimeout) s = .next (keepOtp s (passEnd (stopStart (elapseTo s (x.deadline + 1)) 2 2)))) ∧
    (∀ (path : LockPath) (f : Nat) (fs : List Nat) (t : State) (s : State),
      (lockOf s path).fails = f :: fs →
      t = elapseToRtc s (f + lockWindow path + 1) →
      exec (.failureAgeOut path) s = .next (keepOtp s (passEnd (setLock t path { (lockOf t path) with fails := freshFails t path })))) ∧
    (∀ (path : LockPath) (s : State),
      lockedOut s path = true →
      exec (.lockoutExpiry path) s = .next (keepOtp s (passEnd (endLockout (elapseToRtc s (lockOf s path).endAt) path)))) ∧
    (∀ (path : LockPath) (s : State),
      s.pres.entry = none →
      s.pres.start = none →
      (lockOf s path).fails = [] →
      lockedOut s path = false →
      exec .entrySessionTimeout s = .next s ∧ exec .startSessionTimeout s = .next s ∧
        exec (.failureAgeOut path) s = .next s ∧ exec (.lockoutExpiry path) s = .next s)

/-- A judged window counts its source towards ready at the third good one; a bad window of the XO in Chalk or Ash, where it is the reference, is an XO failure, one of RC16 in the fallback an RC16 failure, and else takes readiness away; a missed edge is an XO failure; the host crystal's failure holds the host die in reset, the RTC crystal's stop clears its drift. A PLL locks only with its gate on; the lock loss of PLL_C or PLL_L stops its islands and restarts the steward, that of PLL_U takes Azure's lock (log entry 132). An island becomes ready after its 4,096 source cycles (log entry 127). REF is changed without active launch entries and with the new source ready, else refused; a gate write opens the parents of what it enables, and is refused whole where a disabled node has an enabled child (log entry 131); dividers take values from 8 on, and a ramp step moves the current divider one towards its target. A bus crossing that times out sets BUS_TO, and a read gives all ones. A start-up gives up on its sources after 20 ms; Jet retries after 100 ms, up to four attempts and not below V_RUN; the XO is tried again after 10 s. -/
def Obligations.ClockCommands : Prop :=
    (∀ (count : W16) (s : State),
      exec (.clockJudgeWindow .rc32 count) s = .next ({ s with clk := { s.clk with rc32Ok := s.clk.rc32Ok || windowPasses .rc32 count.toNat } })) ∧
    (∀ (count : W16) (w : Nat) (s : State),
      s.clk.rc16Rdy = true →
      windowPasses .xo count.toNat = true →
      w = Nat.min 3 (s.clk.winXo + 1) →
      exec (.clockJudgeWindow .xo count) s = .next (keepOtp s (xoBack { s with clk := { s.clk with winXo := w, xoRdy := s.clk.xoRdy || decide (w = 3) } }))) ∧
    (∀ (count : W16) (s : State),
      s.clk.rc16Rdy = true →
      windowPasses .xo count.toNat = false →
      exec (.clockJudgeWindow .xo count) s = .next (keepOtp s (if s.clk.xoRdy = true ∧ s.clk.refRc16 = false ∧ (s.pwr.pstate = .chalk ∨ s.pwr.pstate = .ash) then xoFailure s
          else { s with clk := { s.clk with winXo := 0, xoRdy := false } }))) ∧
    (∀ (count : W16) (w : Nat) (s : State),
      s.clk.rc32Ok = true →
      windowPasses .rc16 count.toNat = true →
      w = Nat.min 3 (s.clk.winRc16 + 1) →
      exec (.clockJudgeWindow .rc16 count) s = .next ({ s with clk := { s.clk with winRc16 := w, rc16Rdy := s.clk.rc16Rdy || decide (w = 3) } })) ∧
    (∀ (count : W16) (s : State),
      s.clk.rc32Ok = true →
      windowPasses .rc16 count.toNat = false →
      exec (.clockJudgeWindow .rc16 count) s = .next (keepOtp s (if s.clk.fallback = true ∧ s.pwr.pstate = .chalk then rc16Failure s
          else { s with clk := { s.clk with winRc16 := 0, rc16Rdy := false } }))) ∧
    (∀ (count : W16) (w : Nat) (s : State),
      s.clk.rc32Ok = true →
      windowPasses .rtcCrystal count.toNat = true →
      w = Nat.min 3 (s.clk.winRtc + 1) →
      exec (.clockJudgeWindow .rtcCrystal count) s = .next ({ s with clk := { s.clk with winRtc := w }, rtc := { s.rtc with crystal := s.rtc.crystal || decide (w = 3) } })) ∧
    (∀ (count : W16) (w : Nat) (s : State),
      windowPasses .hostCrystal count.toNat = true →
      w = Nat.min 3 (s.clk.winHost + 1) →
      exec (.clockJudgeWindow .hostCrystal count) s = .next ({ s with clk := { s.clk with winHost := w, hostReady := s.clk.hostReady || decide (w = 3), hostHeld := s.clk.hostHeld && decide (w < 3) } })) ∧
    (∀ (s : State),
      exec (.pllLockAcquired .l) s = .next (if bitAt s.clk.gate.toNat 6 then { s with clk := { s.clk with plllLock := true } } else s)) ∧
    (∀ (s : State),
      exec (.pllLockAcquired .u) s = .next (if bitAt s.clk.gate.toNat 8 && !s.clk.fallback then { s with clk := { s.clk with plluLock := true } } else s)) ∧
    (∀ (s : State),
      bitAt s.clk.gate.toNat 2 = true →
      exec (.pllLockAcquired .c) s = .next ({ s with clk := { s.clk with pllcLock := true, onRc16 := false, curPurpure := if s.clk.onRc16 then 32 else s.clk.curPurpure, curGules := if s.clk.onRc16 then 32 else s.clk.curGules } })) ∧
    (∀ (s : State),
      s.clk.pllcLock = true →
      exec (.pllLockLoss .c) s = .next (keepOtp s (stewardRestart { s with clk := { s.clk with pllcLock := false, ready := s.clk.ready &&& ~~~(0x46 : BitVec 7) } }))) ∧
    (∀ (s : State),
      s.clk.plllLock = true →
      exec (.pllLockLoss .l) s = .next (keepOtp s (stewardRestart { s with clk := { s.clk with plllLock := false, ready := s.clk.ready &&& ~~~(0x28 : BitVec 7) } }))) ∧
    (∀ (s : State),
      s.clk.plluLock = true →
      exec (.pllLockLoss .u) s = .next (keepOtp s (doAzLockLost { s with clk := { s.clk with plluLock := false, ready := s.clk.ready &&& ~~~(0x10 : BitVec 7) } }))) ∧
    (∀ (x : ClockIsland) (gate rdy ticks : Nat) (t : State) (s : State),
      gate = (islandClock s x).1 →
      rdy = (islandClock s x).2.1 →
      ticks = (islandClock s x).2.2.1 →
      (islandClock s x).2.2.2 = true →
      bitAt s.clk.gate.toNat gate = true →
      bitAt s.clk.ready.toNat rdy = false →
      t = elapse s ticks →
      exec (.islandReady x) s = .next ({ t with clk := { t.clk with ready := t.clk.ready ||| BitVec.ofNat 7 (2 ^ rdy) } })) ∧
    (∀ (o : StartOutcome) (t : State) (s : State),
      s.pwr.pstate = .chalk →
      s.boot.step = 3 →
      s.boot.locked = false →
      o.xoReady = false ∨ o.rc16Ready = false →
      t = sourceGiveup o (elapseToClock s (s.boot.stepAt + 20 * ticksPerMs)) →
      exec (.sourceGiveup o) s = .next (keepOtp s (if runOn 3 t then runSteps 14 o t else t))) ∧
    (∀ (o : StartOutcome) (s : State),
      s.pwr.pstate = .jet →
      s.pwr.belowRun = false →
      1 ≤ s.clk.attempt →
      s.clk.attempt ≤ 3 →
      exec (.jetRetryTimer o) s = .next (keepOtp s (startRun o (coldBegin (elapse s (100 * ticksPerMs)) 256)))) ∧
    (∀ (o : StartOutcome) (s : State),
      s.pwr.belowRun = true →
      exec (.jetRetryTimer o) s = .next (s)) ∧
    (∀ (t : State) (s : State),
      s.clk.fallback = true →
      s.pwr.pstate = .chalk →
      t = elapseToClock s (s.clk.retryAt + 10 * ticksPerSec) →
      exec (.xoRetryTimer) s = .next (keepOtp s (if t.clk.backWaits then xoBack { t with clk := { t.clk with retryAt := t.clock } }
          else { t with clk := { t.clk with retryAt := t.clock, winXo := 0, xoRdy := false } }))) ∧
    (∀ (count : W16) (s : State),
      s.clk.rc32Ok = true →
      windowPasses .rtcCrystal count.toNat = false →
      exec (.clockJudgeWindow .rtcCrystal count) s = .next ({ s with clk := { s.clk with winRtc := 0 }, rtc := { s.rtc with crystal := false } })) ∧
    (∀ (count : W16) (s : State),
      s.clk.hostReady = true →
      windowPasses .hostCrystal count.toNat = false →
      exec (.clockJudgeWindow .hostCrystal count) s = .next (keepOtp s (hostCrystalFails s))) ∧
    (∀ (s : State),
      exec (.xoMissedEdge) s = .next (keepOtp s (xoFailure s))) ∧
    (∀ (s : State),
      exec (.rtcCrystalStop) s = .next ({ s with rtc := { s.rtc with crystal := false, drift := 0 }, clk := { s.clk with winRtc := 0 } })) ∧
    (∀ (s : State),
      exec (.hostCrystalFail) s = .next (keepOtp s (hostCrystalFails s))) ∧
    (∀ (v : W32) (s : State),
      bitAt v.toNat 0 ≠ s.clk.refRc16 →
      launchActive s = true ∨ (if bitAt v.toNat 0 then s.clk.rc16Rdy else s.clk.xoRdy) = false →
      exec (.clkSelWrite v) s = .next ({ s with clk := { s.clk with selRefused := true } })) ∧
    (∀ (v : W32) (s : State),
      bitAt v.toNat 0 ≠ s.clk.refRc16 →
      launchActive s = false →
      (if bitAt v.toNat 0 then s.clk.rc16Rdy else s.clk.xoRdy) = true →
      exec (.clkSelWrite v) s = .next (keepOtp s (if s.clk.fallback then leaveFallback s
          else tbRestart (refRelock { s with clk := { s.clk with refRc16 := bitAt v.toNat 0 } }) (if bitAt v.toNat 0 then .rc16 else .xo)))) ∧
    (∀ (v : W32) (want new : Nat) (s : State),
      want = (bitsOf v 11 0 ||| (s.clk.gate.toNat &&& 8)) →
      (new = (((List.range 12).filter fun n => bitAt want n && !bitAt s.clk.gate.toNat n).flatMap (gatePath s)).foldl (fun m b => m ||| 2 ^ b) want) →
      exec (.clkGateWrite v) s = .next (keepOtp s (if ((List.range 12).any fun n => bitAt s.clk.gate.toNat n && !bitAt new n && (gateChildren s n).any fun c => bitAt new c) = true
          then { s with clk := { s.clk with gateRefused := true } }
          else celesteClock { s with clk := { s.clk with gate := BitVec.ofNat 12 new, ready := gatedReady s new, pllcLock := s.clk.pllcLock && bitAt new 2, plllLock := s.clk.plllLock && bitAt new 6, plluLock := s.clk.plluLock && bitAt new 8 } }))) ∧
    (∀ (v : W32) (s : State),
      exec (.clkDivWrite v) s = .next ({ s with clk := { s.clk with divPurpure := if 8 ≤ bitsOf v 5 0 then BitVec.ofNat 6 (bitsOf v 5 0) else s.clk.divPurpure, divGules := if 8 ≤ bitsOf v 13 8 then BitVec.ofNat 6 (bitsOf v 13 8) else s.clk.divGules } })) ∧
    (∀ (t : State) (s : State),
      s.clk.pllcLock = true →
      s.clk.curPurpure ≠ s.clk.divPurpure →
      t = elapse s (divTicks 64 s.clk.curPurpure) →
      exec (.dividerRampStep false) s = .next ({ t with clk := { t.clk with curPurpure := divStep t.clk.curPurpure t.clk.divPurpure } })) ∧
    (∀ (t : State) (s : State),
      s.clk.pllcLock = true →
      s.clk.curGules ≠ s.clk.divGules →
      t = elapse s (divTicks 64 s.clk.curGules) →
      exec (.dividerRampStep true) s = .next ({ t with clk := { t.clk with curGules := divStep t.clk.curGules t.clk.divGules } })) ∧
    (∀ (write : Bool) (t : State) (s : State),
      t = elapse s (divTicks 256 s.clk.curPurpure) →
      exec (.busCrossingTimeout write) s = .next ({ t with clk := { t.clk with busTo := true }, lastRead := if write then t.lastRead else List.replicate 4 0xFF }))

/-- A touch window steps every judged channel (touchStep, log entry 134), and trips act as touchTrips says; a channel tripped for 60 s is stuck, counted, and takes the window as its base. F_VBAT reaching V_RUN starts Jet cold; the host's wake request starts Jet cold unless F_VBAT is below V_RUN, wakes Umber and Amber, and is nothing in Chalk and Ash; F_VBAT low or over stops the transmitters in Chalk, and its return lets an S11 that waited go on. Below the Ash threshold, with the tag's supply gone, Chalk enters Ash after start-up and Jet within it, Umber and Amber enter Jet; the Ash store's end enters Jet (log entry 137); the supply's loss is supplyLost. F_VLF below its limit ends Vert's program with BUSY and turns its slots off. PWR_CTRL's GO enters the state named where the device may rest, else is refused; the idle rule acts 10 s after its conditions began to hold (log entry 139). An Amber sniff, each 8,192 RTC periods from the entry into Amber, opens Tenné's receiver and wakes on a hit, else ends; a search without a telegram is a false wake and returns to Amber where the device is idle. -/
def Obligations.PowerAndTouchCommands : Prop :=
    (∀ (cw : Vector (BitVec 12) 4) (r : Fin 4 → TouchChannel × Bool) (t : State) (s : State),
      (r = fun n => if touchJudged s n then touchStep s.pwr.touch[n] (cw[n]).toNat (rtcNow s) else (s.pwr.touch[n], false)) →
      (t = { s with pwr := { s.pwr with touch := Vector.ofFn fun n => (r n).1 } }) →
      exec (.touchWindow cw) s = .next (keepOtp s (if ((List.finRange 4).filter fun n => (r n).2) = [] then t else touchTrips t ((List.finRange 4).filter fun n => (r n).2)))) ∧
    (∀ (n : Fin 4) (cw : BitVec 12) (t : State) (s : State),
      touchJudged s n = true →
      (s.pwr.touch[n]).tripped = true →
      t = elapseToRtc s ((s.pwr.touch[n]).trippedAt + 60) →
      exec (.touchStuck n cw) s = .next (keepOtp s ({ t with
          pwr := { t.pwr with touch := vmod t.pwr.touch n fun x => { x with base := cw, delta := 0, tripped := false, stuck := true } }
          bg := { t.bg with pu := { t.bg.pu with stuck := satInc t.bg.pu.stuck } } }))) ∧
    (∀ (o : StartOutcome) (t : State) (s : State),
      s.pwr.pstate = .jet →
      t = { s with pwr := { s.pwr with belowRun := false } } →
      exec (.vbatRunReached o) s = .next (keepOtp s (startRun o (coldBegin (freshSeries t) 128)))) ∧
    (∀ (vbat : BitVec 10) (s : State),
      s.pwr.pstate = .chalk →
      exec (.vbatLow vbat) s = .next (keepOtp s (stopTransmit { s with pwr := { s.pwr with vbatLow := true, belowRun := true, vbat := vbat } }))) ∧
    (∀ (vbat : BitVec 10) (s : State),
      s.pwr.pstate ≠ .chalk →
      exec (.vbatLow vbat) s = .next ({ s with pwr := { s.pwr with vbatLow := true, belowRun := true, vbat := vbat } })) ∧
    (∀ (vbat : BitVec 10) (s : State),
      s.pwr.pstate = .chalk →
      exec (.vbatOvp vbat) s = .next (keepOtp s (stopTransmit { s with pwr := { s.pwr with vbatOvp := true, belowRun := false, vbat := vbat } }))) ∧
    (∀ (vbat : BitVec 10) (o : StartOutcome) (s : State),
      s.boot.step ≠ 11 →
      exec (.vbatTxRestored vbat o) s = .next ({ s with pwr := { s.pwr with vbatLow := false, vbatOvp := false, vbat := vbat, belowRun := s.pwr.belowRun && decide (vbat.toNat < 75) } })) ∧
    (∀ (vbat : BitVec 10) (o : StartOutcome) (s : State),
      s.boot.step = 11 →
      exec (.vbatTxRestored vbat o) s = .next (keepOtp s (startRun o { s with pwr := { s.pwr with vbatLow := false, vbatOvp := false, vbat := vbat, belowRun := s.pwr.belowRun && decide (vbat.toNat < 75) } }))) ∧
    (∀ (vhold : BitVec 10) (t : State) (s : State),
      t = { s with pwr := { s.pwr with vbatLow := true, belowRun := true, vhold := vhold, holdOk := decide (42 ≤ vhold.toNat) }, tag := { s.tag with supplied := false } } →
      exec (.vbatBelowAsh vhold) s = .next (keepOtp s (match s.pwr.pstate with
          | .chalk => if s.boot.step = 16 then enterAsh t
            else enterJet { t with boot := { t.boot with brownout := some s.boot.step, excused := true } }
          | .umber => enterJet t
          | .amber => enterJet t
          | _ => t))) ∧
    (∀ (commits : BitVec 5) (t : State) (s : State),
      s.pwr.pstate = .ash →
      t = ashStore s (if s.pwr.holdOk then commits.toNat else 0) →
      exec (.ashComplete commits) s = .next (keepOtp s (enterJet { t with orr := { t.orr with ash := false } }))) ∧
    (∀ (s : State),
      exec (.sableSupplyLoss) s = .next (keepOtp s (supplyLost s))) ∧
    (∀ (t : State) (s : State),
      t = endProgram { s with vert := { s.vert with vlfUv := true } } .vert .busy →
      exec (.vlfUndervolt true) s = .next (keepOtp s ({ t with vert := slotsCut t.vert fun _ => true }))) ∧
    (∀ (s : State),
      exec (.vlfUndervolt false) s = .next ({ s with vert := { s.vert with vlfUv := false } })) ∧
    (∀ (v : W32) (t : State) (s : State),
      t = sableWrite 0x004 v s →
      bitsOf v 1 0 = 0 →
      exec (.pwrCtrlGo v) s = .next (keepOtp s (t))) ∧
    (∀ (v : W32) (t : State) (s : State),
      t = sableWrite 0x004 v s →
      bitsOf v 1 0 ≠ 0 →
      exec (.pwrCtrlGo v) s = .next (keepOtp s (if t.pwr.pstate = .chalk ∧ t.boot.step = 16 ∧ t.pwr.entering = none ∧ mayRest t (restOf (bitsOf v 1 0)) = true
          then leaveChalk t (restOf (bitsOf v 1 0)) else { t with pwr := { t.pwr with refused := true } }))) ∧
    (∀ (t : State) (s : State),
      s.pwr.pstate = .chalk →
      s.boot.step = 16 →
      s.pwr.woken = true →
      s.pwr.idle = true →
      s.pwr.rest ≠ .chalk →
      s.pwr.entering = none →
      t = elapseToRtc s (s.pwr.idleSince + 10) →
      exec (.idleRule) s = .next (keepOtp s (if idleCond t then stewardRest t t.pwr.rest else idleNote t))) ∧
    (∀ (level : Byte) (ticks : W16) (tones : Bool) (start : Nat) (v u t : State) (s : State),
      s.pwr.pstate = .amber →
      start = s.tn.sniffAt + 9600000 * Nat.max 1 (ceilDiv (s.clock - s.tn.sniffAt) 9600000) →
      v = tbRestart (elapseToClock s start) (if s.clk.fallback then .rc16 else .xo) →
      u = elapse (sniffRx { v with tn := { v.tn with sniffAt := start } } (now v)) 38400 →
      sniffHit u level ticks tones = true →
      t = wakeChalk u 16 →
      exec (.amberSniff level ticks tones) s = .next (keepOtp s (passEnd { t with tn := { t.tn with nSniffHit := satInc t.tn.nSniffHit, sniffUntil := some (now t + searchTicks t) } }))) ∧
    (∀ (level : Byte) (ticks : W16) (tones : Bool) (start : Nat) (v u : State) (s : State),
      s.pwr.pstate = .amber →
      start = s.tn.sniffAt + 9600000 * Nat.max 1 (ceilDiv (s.clock - s.tn.sniffAt) 9600000) →
      v = tbRestart (elapseToClock s start) (if s.clk.fallback then .rc16 else .xo) →
      u = elapse (sniffRx { v with tn := { v.tn with sniffAt := start } } (now v)) 38400 →
      sniffHit u level ticks tones = false →
      exec (.amberSniff level ticks tones) s = .next (keepOtp s (tbHold (sniffOff u)))) ∧
    (∀ (n : Nat) (u t : State) (s : State),
      s.tn.sniffUntil = some n →
      u = sniffOff (elapseTo s n) →
      t = { u with tn := { u.tn with nSniffFalse := satInc u.tn.nSniffFalse } } →
      exec (.sniffSearchEnd) s = .next (keepOtp s (if t.pwr.pstate = .chalk ∧ t.boot.step = 16 ∧ idleCond t = true then passEnd (stewardRest t .amber) else passEnd t))) ∧
    (∀ (o : StartOutcome) (t : State) (s : State),
      t = { s with host := { s.host with wakeReq := false } } →
      s.pwr.pstate = .jet →
      s.pwr.belowRun = false →
      exec (.hostWakeCrossing o) s = .next (keepOtp s (startRun o (coldBegin (freshSeries t) 32)))) ∧
    (∀ (o : StartOutcome) (s : State),
      s.pwr.pstate = .jet →
      s.pwr.belowRun = true →
      exec (.hostWakeCrossing o) s = .next ({ s with host := { s.host with wakeReq := false } })) ∧
    (∀ (o : StartOutcome) (t : State) (s : State),
      t = { s with host := { s.host with wakeReq := false } } →
      s.pwr.pstate = .umber ∨ s.pwr.pstate = .amber →
      exec (.hostWakeCrossing o) s = .next (keepOtp s (passEnd (wakeChalk t 32)))) ∧
    (∀ (o : StartOutcome) (s : State),
      s.pwr.pstate = .chalk ∨ s.pwr.pstate = .ash →
      exec (.hostWakeCrossing o) s = .next (s))

/-- Power-on reset of an unpowered device begins start-up at S0, and a start-up that stands at a step before S13 goes on from it (log entry 120); a steward that does not report alive within 5 ms of S9 is a failed image and the next one is started; a host die that does not answer within 100 ms of S13 is noted in the journal and start-up goes on; the boot watchdog resets the device 1 s after S9. After start-up in Chalk a skipped S11 or S12 runs again when its conditions hold; without a failure the skip ends and a pass is journalled, with one the failure is journalled; elsewhere nothing happens. -/
def Obligations.StartUpEvents : Prop :=
    (∀ (o : StartOutcome) (s : State),
      s.pwr.pstate = .unpowered →
      exec (.powerOnReset o) s = .next (keepOtp s (startRun o (coldBegin s 0)))) ∧
    (∀ (o : StartOutcome) (s : State),
      s.pwr.pstate ≠ .unpowered →
      s.boot.step ≤ 12 →
      s.boot.step ≠ 9 ∨ s.boot.running = .none →
      exec (.powerOnReset o) s = .next (keepOtp s (startRun o s))) ∧
    (∀ (o : StartOutcome) (t : State) (s : State),
      s.pwr.pstate = .chalk →
      s.boot.step = 9 →
      s.boot.running ≠ .none →
      s.boot.locked = false →
      t = startImage o false (imageFailed (elapseToClock s (s.boot.s9At + 5 * ticksPerMs))) →
      exec (.stewardAliveTimeout o) s = .next (keepOtp s (if runOn 9 t then runSteps 14 o t else t))) ∧
    (∀ (t : State) (s : State),
      s.pwr.pstate = .chalk →
      s.boot.step = 13 →
      s.boot.locked = false →
      t = journalAdd (elapseToClock s (s.boot.stepAt + 100 * ticksPerMs)) 13 6 0 0 [] →
      exec (.hostWaitTimeout) s = .next (keepOtp s (finishStart {} { t with boot := { t.boot with hostAbsent := true, step := 14, stepAt := t.clock } }))) ∧
    (∀ (t : State) (s : State),
      s.pwr.pstate = .chalk →
      9 ≤ s.boot.step →
      s.boot.step ≤ 15 →
      s.boot.running ≠ .none →
      s.boot.locked = false →
      t = elapseToClock s (s.boot.s9At + ticksPerSec) →
      exec (.bootWatchdog) s = .next (keepOtp s (coldBegin { t with boot := { t.boot with wdLatched := true } } 0))) ∧
    (∀ (o : StartOutcome) (t : State) (s : State),
      s.pwr.pstate = .chalk →
      s.boot.step = 16 →
      s.boot.skip11 = true →
      sweepMay s = true →
      seqRuns s .vert = false →
      o.vertFails = 0 →
      t = (List.finRange 12).foldl (lfCheckRun o) { s with boot := { s.boot with skip11 := false } } →
      exec (.skippedStepRerun o) s = .next (keepOtp s (passEnd (journalAdd t 11 kPass 0 1 (leBytes 2 (t.vert.pop &&& ~~~t.vert.svc).toNat))))) ∧
    (∀ (o : StartOutcome) (s : State),
      s.pwr.pstate = .chalk →
      s.boot.step = 16 →
      s.boot.skip11 = true →
      sweepMay s = true →
      seqRuns s .vert = false →
      o.vertFails ≠ 0 →
      exec (.skippedStepRerun o) s = .next (keepOtp s (passEnd (journalAdd s 11 kFail (stepStatus 11) 1 (failDetail 11))))) ∧
    (∀ (o : StartOutcome) (s : State),
      s.pwr.pstate = .chalk →
      s.boot.step = 16 →
      s.boot.skip11 = false →
      s.boot.skip12 = true →
      s.clk.fallback = false →
      seqRuns s .azure = false →
      o.uwbFails ≠ 0 →
      exec (.skippedStepRerun o) s = .next (keepOtp s (passEnd (journalAdd s 12 kFail (stepStatus 12) 1 (failDetail 12))))) ∧
    (∀ (o : StartOutcome) (t : State) (s : State),
      s.pwr.pstate = .chalk →
      s.boot.step = 16 →
      s.boot.skip11 = false →
      s.boot.skip12 = true →
      s.clk.fallback = false →
      seqRuns s .azure = false →
      o.uwbFails = 0 →
      chainIn o.chainA = true ∨ chainIn o.chainB = true →
      t = uwbCheck o (azureUp { s with boot := { s.boot with skip12 := false } }) →
      exec (.skippedStepRerun o) s = .next (keepOtp s (passEnd (journalAdd t 12 kPass 0 1 (chainDetail o))))) ∧
    (∀ (s : State),
      s.pwr.pstate ≠ .chalk ∨ s.boot.step ≠ 16 →
      exec (.skippedStepRerun {}) s = .next (s))

/-- A job that ends is answered and goes on in the pipeline that submitted it (pipelineJob); a held AEAD_OPEN whose window input is not complete takes its next segment (log entry 83). In Chalk outside Ash a scrub unit is checked 10 ms after the last of its memory, and what it finds acted on (scrubFound); telemetry is folded 30 minutes in Chalk after the last fold, a late fold counted. In Chalk, with no Azure program, fallback or Range stage in the way and no posting near, the internal loopbacks correct the delays of the chains in service by deviations within 64 units, 60 s after the last or at once after 10 °C; and a LOOPBACK classifies the next configured pair's ports 10 minutes after the last (log entry 170). A 10 s comparison of the XO with the RTC crystal counts its window, and from the 60th on the learned coefficient applies and is kept in CAL (log entry 164). A watchdog without a kick for 1 ms in Chalk, and a core fault, restart the steward. -/
def Obligations.BackgroundWork : Prop :=
    (∀ (tag : Fin 48) (mismatch : Bool) (j : Job) (st : Status) (s : State),
      jobAt s tag = some j →
      (endJob s tag mismatch).2 = some st →
      exec (.gqJobComplete tag mismatch) s = .next (keepOtp s (passEnd (pipelineJob (endJob s tag mismatch).1 tag j (memRead s.gq.inBuf (256 * tag.val)).toNat st)))) ∧
    (∀ (tag : Fin 48) (mismatch : Bool) (j : Job) (s : State),
      jobAt s tag = some j →
      j.phase = .running →
      j.orphaned = false →
      segWaits j = true →
      exec (.gqJobComplete tag mismatch) s = .next (keepOtp s (setJob s tag (some (takeSeg s j))))) ∧
    (∀ (m : Fin 5) (group : Fin 64) (find : ScrubFind) (s : State),
      s.pwr.pstate = .chalk →
      s.orr.ash = false →
      exec (.scrubUnit m group find) s = .next (keepOtp s (scrubFound (scrubNext (elapseChalk s (s.bg.times.scrub[m] + 384000)) m) m group find))) ∧
    (∀ (a b : Option Int) (temp : Int) (due : Nat) (t u : State) (s : State),
      s.pwr.pstate = .chalk →
      due = s.bg.times.delay + 60 * 38400000 →
      t = (if tempMoved s temp = true then s else elapseChalk s due) →
      uwbTestMay t = true →
      postingWithin t 1 7680 = false →
      u = chainCorrect (countLate t due (60 * 38400000)) (if t.az.chainA then within64 a else 0) (if t.az.chainB then within64 b else 0) →
      exec (.uwbDelayTracking a b temp) s = .next (keepOtp s (markDirty { u with
          az := { u.az with calUntil := now u + 7680 }
          bg := { u.bg with uwbTemp := some temp, times := { u.bg.times with delay := chalkNow u } } } calUwb))) ∧
    (∀ (a b : PortCheck) (due : Nat) (q : Nat × Nat × Nat) (t u : State) (s : State),
      s.pwr.pstate = .chalk →
      due = s.bg.times.classify + 600 * 38400000 →
      t = elapseChalk s due →
      (uwbPairs t)[t.bg.pairAt % (uwbPairs t).length]? = some q →
      uwbTestMay t = true →
      postingWithin t 1 12801 = false →
      u = classifyRun (classifyRun (countLoops (countLate t due (600 * 38400000)) 1) q.2.1 a) q.2.2 b →
      exec (.uwbPortClassifyRun a b) s = .next (keepOtp s ({ u with bg := { u.bg with
          pairAt := (u.bg.pairAt + 1) % (uwbPairs t).length
          times := { u.bg.times with classify := chalkNow u } } }))) ∧
    (∀ (coeff : Int) (t : State) (n : Nat) (r : Rtc) (u : State) (s : State),
      s.pwr.pstate = .chalk →
      s.rtc.crystal = true →
      s.clk.xoRdy = true →
      s.clk.fallback = false →
      t = elapseChalk s (s.bg.times.drift + 10 * 38400000) →
      n = Nat.min 60 (t.rtc.windows + 1) →
      r = { t.rtc with windows := n, coeff := if n = 60 then coeff else t.rtc.coeff } →
      u = { t with rtc := { r with drift := if n = 60 && t.rtc.drift != 0 then 2 else t.rtc.drift }, bg := { t.bg with times := { t.bg.times with drift := chalkNow t } } } →
      exec (.rtcDriftWindow coeff) s = .next (keepOtp s (if n = 60 then markDirty u calRtc else u))) ∧
    (∀ (due : Nat) (s : State),
      s.pwr.pstate = .chalk →
      s.orr.ash = false →
      due = s.bg.times.fold + 1800 * 38400000 →
      exec (.telemetryFold) s = .next (keepOtp s (passEnd (telemFold (countLate (elapseChalk s due) due (1800 * 38400000)))))) ∧
    (∀ (s : State),
      s.pwr.pstate = .chalk →
      exec (.stewardWatchdog) s = .next (keepOtp s (stewardRestart (elapseTo s (s.bg.kickAt + 38400))))) ∧
    (∀ (s : State),
      exec (.stewardCoreFault) s = .next (keepOtp s (stewardRestart s)))

/-- For every command c and every state with c at the front of its queue, step of the state is exec of c on the same state with the queue's rest. -/
def Obligations.StepServesTheFrontCommand : Prop :=
    ∀ (c : Instr) (rest : List Instr) (s : State), s.pending = c :: rest → step s = exec c { s with pending := rest }

/-- On an empty queue step answers the state one tick of 38.4 MHz later: the model's clock counts one, the timebase counts one while it runs and is held otherwise, and no command's effect happens. That the idle step is one tick is the model's choice (log entry 2). -/
def Obligations.IdleStepIsOneTick : Prop :=
    ∀ s : State, s.pending = [] →
      step s = .next (elapse s 1) ∧ (elapse s 1).clock = s.clock + 1 ∧
      (elapse s 1).cel.timebase = (if s.cel.tbRun then s.cel.timebase + 1 else s.cel.timebase)

/-- The opcode table gives its rows no bits: decodeTableWord answers none for every word of every length, and withFetchWord leaves every state as it is. -/
def Obligations.NoWordSpellsACommand : Prop :=
    ∀ (nbits w : Nat) (s : State), decodeTableWord nbits w = none ∧ s.withFetchWord nbits w = s

/-- State.reset is the device before its first power-on: the timebase is 0 and held; CEL_CMD_RESULT has DONE 1; LF_POP, LF_SVC and CEL_STATUS are 0 and LF_NOM_FREQ is 0xC350; AZ_PHY[0] is channel 9, BPRF, code 10, 64 preamble symbols; HF_LPCD has THR_A 8 and THR_PH 20; HST_IRQ_EN is 0, DOOR_CFG is 0x0000_00F0, SA is 0xFE, ENG_TIMEOUT is 6, PMT_STATUS.LAST_END is 10 and no waveform runs; the event mask lets every event pass and the ring is empty; the clock dividers are 8; every touch channel is off; the life-cycle state is Blank, the barrier link is down with 64, 32 and 8 credits, and no command waits. -/
def Obligations.ResetState : Prop :=
    State.reset.pending = [] ∧ State.reset.cel.timebase = 0 ∧ State.reset.cel.tbRun = false ∧ State.reset.cel.cmdDoneAt = 0 ∧
    State.reset.cel.entryWe = false ∧ State.reset.cel.logLost = 0 ∧ State.reset.cel.log = [] ∧
    (∀ n : Fin 128, State.reset.cel.entries[n] = {}) ∧
    State.reset.vert.pop = 0 ∧ State.reset.vert.svc = 0 ∧ State.reset.vert.nomFreq = 0xC350 ∧
    (∀ n : Fin 8, (State.reset.az.phy[n]).chan = 1 ∧ (State.reset.az.phy[n]).prf = 0 ∧ (State.reset.az.phy[n]).code = 10 ∧
      (State.reset.az.phy[n]).psr = 4) ∧
    State.reset.hf.thrA = 8 ∧ State.reset.hf.thrPh = 20 ∧
    State.reset.host.irqEn = 0 ∧ State.reset.host.doors.pol = 0 ∧ State.reset.host.doors.en = 0xF ∧
    State.reset.host.can.sa = 0xFE ∧ State.reset.host.can.engTimeout = 6 ∧
    State.reset.host.pmt.lastEnd = 10 ∧ State.reset.host.pmt.active = false ∧
    State.reset.ev.ring = [] ∧ State.reset.ev.mask = 0x0FFE ∧
    State.reset.clk.divPurpure = 8 ∧ State.reset.clk.divGules = 8 ∧
    (∀ n : Fin 4, State.reset.pwr.touch[n] = {}) ∧
    lcOf State.reset = .blank ∧ State.reset.pwr.pstate = .unpowered ∧
    State.reset.bar.link = .down ∧ State.reset.bar.bulkToHost.creditP = 64 ∧ State.reset.bar.bulkToField.creditP = 32 ∧
    State.reset.bar.bulkToField.creditN = 8

/-- For every command and every state exec answers a next state, and so does step: no command of the table ends in a fault or a refusal. What the specification calls a fault of the device is state. -/
def Obligations.EveryCommandCompletes : Prop :=
    (∀ (c : Instr) (s : State), ∃ t, exec c s = .next t) ∧ (∀ s : State, ∃ t, step s = .next t)

/-- A run of n steps on a queue of at least n commands takes the first n commands from it and leaves the others in their order: no command adds to the queue, drops another or stops the run. -/
def Obligations.QueueIsServedInOrder : Prop :=
    ∀ (n : Nat) (s : State), n ≤ s.pending.length → (runFor n s).pending = s.pending.drop n

/-- From every state, whatever commands wait, after any number of steps SERIAL is what it was, every life-cycle fuse that was blown is blown, and the anti-rollback value has not fallen. -/
def Obligations.OtpNeverGoesBack : Prop :=
    ∀ (n : Nat) (s : State), OtpForward s (runFor n s)

/-- From every state whose life-cycle state is Retired, every step leads to a state that is Retired, and so does a run of any length: no command of the table leads out of Retired. -/
def Obligations.RetiredIsFinal : Prop :=
    (∀ s t : State, lcOf s = .retired → step s = .next t → lcOf t = .retired) ∧
    (∀ (n : Nat) (s : State), lcOf s = .retired → lcOf (runFor n s) = .retired)

/-- For each command of the Keafeuf set that one row of the table serves alone, with its record at the head of the queue and the steward serving: a record below 4 bytes is answered BAD_LENGTH; a record that a state rule bars (the boot ROM's list, service-lock, the recovery image's groups, the life-cycle table of R389) is answered WRONG_STATE without a RESULT, whatever its length and fields, and the command has no other effect. Each clause is followed by what follows every posted answer. -/
def Obligations.CommandStateRules : Prop :=
    ∀ (i : Instr) (op : Nat) (c : CmdRec) (rest : List CmdRec) (s : State),
      commandOpcode i = some op → servesNow s = true → s.cmds.queue = c :: rest → opcodeOf c.bytes = op →
      (c.bytes.length < 4 → exec i s = .next (keepOtp s (replied (taken s rest) c .badLength []))) ∧
      (4 ≤ c.bytes.length → stateBars s op c.bytes = true →
        exec i s = .next (keepOtp s (replied (taken s rest) c .wrongState [])))

/-- For every row that is an instruction of an engine's program memory: once an earlier instruction that lasts a stated time has come to its end, the row has no effect unless a program runs on the engine, no earlier instruction of it is under way, and the words at its program counter are this instruction. Where no instruction that lasts a stated time is under way the state is then unchanged: the engines execute their program in order, one instruction at a time. -/
def Obligations.IdleEngineRunsNothing : Prop :=
    ∀ (i : Instr) (e : SeqId) (op : ProgOp) (n : Nat) (s : State), programOp i = some (e, op, n) →
      seqAt (settleSeq s e) e op n = false →
      exec i s = .next (keepOtp s (settleSeq s e)) ∧
      ((∀ t k, (seqOf s e).wait ≠ .til t k) → exec i s = .next s)

/-- On an engine that runs entry n's program and reaches a WAIT_TB whose tick has passed, the next state is that of a halted program: no time has passed, the completion of entry n with LAUNCH_LATE at the present tick is the last of the completions, the engine's drivers, or its radios and synthesiser, are off, the engine runs no program, and every instruction of that engine's program memory has no effect from there. The state reached is the one in which an earlier instruction that lasts a stated time has come to its end (none under way: the state itself). -/
def Obligations.LateWaitTbEndsTheProgram : Prop :=
    ∀ (e : SeqId) (n : Fin 128) (off : BitVec 28) (s0 s : State), s = settleSeq s0 e →
      (seqOf s e).entry = some n → seqAt s e (.waitTb off.toNat) 2 = true → waitTick (seqOf s e) off.toNat < now s →
      ∃ t, exec (.waitTb e off) s0 = .next t ∧ now t = now s ∧
        t.cel.completions = s.cel.completions ++
          [{ entry := n, status := statusCode .launchLate, tick := now s, act := (s.cel.entries[n]).firedAt }] ∧
        engineOff t e ∧ seqOf t e = {} ∧ seqRuns t e = false ∧
        ∀ (i : Instr) (op : ProgOp) (k : Nat), programOp i = some (e, op, k) → exec i t = .next t

/-- Frame of every instruction of the three sequence engines and of the end of its operation (the rows HALT to LOOP_END, VERT_SEL to MEASURE with their ends, TN_SYNTH to TX_OFF, PHY to LOOPBACK): from every state, in the next state the HF reader, the yard tag, the key store, the credentials, the tamper state, Gules, the ledger, the token contexts, the barrier, the host die, the power state, start-up, the commands, the last read and the queue are unchanged; the presence decision is unchanged, but for the run's note of the POLL that an Azure TX_FRAME sends; the record store and the events are unchanged, but for the dirty mark of the band cache's page that the lock after SYNTH sets (and the commit that a seventeenth dirty page brings); Tenné is unchanged unless the engine is Tenné, and Azure unless it is Azure. -/
def Obligations.ProgramInstructionsFrame : Prop :=
    ∀ (c : Instr) (e : SeqId) (s t : State), instrEngine c = some e → exec c s = .next t →
      t.pending = s.pending ∧ t.lastRead = s.lastRead ∧ t.ctxs = s.ctxs ∧ t.hf = s.hf ∧ t.tag = s.tag ∧
      t.keys = s.keys ∧ t.creds = s.creds ∧ t.tamper = s.tamper ∧ t.gq = s.gq ∧ t.ledger = s.ledger ∧
      t.bar = s.bar ∧ t.host = s.host ∧ t.pwr = s.pwr ∧ t.boot = s.boot ∧ t.cmds = s.cmds ∧
      { t.pres with run := none } = { s.pres with run := none } ∧
      ((∀ r lead, c ≠ .azTxFrame false r lead) → t.pres = s.pres) ∧
      (c ≠ .tnSynthLock → t.orr = s.orr ∧ t.ev = s.ev) ∧
      (e ≠ .tenne → t.tn = s.tn) ∧ (e ≠ .azure → t.az = s.az)

/-- While the host die holds itself in reset because its crystal failed, every row that its pins, its SPI windows, its registers or its CAN port bring about leaves the state as it is. -/
def Obligations.HostDieHeld : Prop :=
    ∀ (c : Instr) (s : State), isHostRow c = true → s.clk.hostHeld = true → exec c s = .next s

/-- On memories in their canonical form: RSSI stores nothing when it begins; at its end, which the next instruction (here NOP) finds, its value stands in byte 3 of its record and no other byte of the receive buffer changes; the end of a write cycle of page p leaves the page with the cycle's image, or, where the read-back mismatches a second time, WORN with its old content, and no other page of the legacy window, no status bit and no page of the record store changes (below the last PAGE_SEQ); a register write to Gules's input buffers stores its four bytes, little-endian, and no other byte changes. The two byte memories are canonical afterwards. -/
def Obligations.StoresTouchOnlyTheirBytes : Prop :=
    (∀ (n : BitVec 4) (idx : Bool) (r : Fin 8) (v : Byte) (s t : State),
      (seqOf s .tenne).wait = .ready → exec (.rssi n idx r v) s = .next t → t.tn.rxbuf = s.tn.rxbuf) ∧
    (∀ (tick k : Nat) (v : Byte) (s t : State),
      memWf s.tn.rxbuf = true → (seqOf s .tenne).wait = .til tick (.rssi k v) → tick ≤ now (elapseTo s tick) →
      exec (.nop .tenne) s = .next t →
      memWf t.tn.rxbuf = true ∧ (8 * k + 3 < 64 → memRead t.tn.rxbuf (8 * k + 3) = v) ∧
      ∀ a, a ≠ 8 * k + 3 → memRead t.tn.rxbuf a = memRead s.tn.rxbuf a) ∧
    (∀ (p : Nat) (d : Bytes) (s t : State),
      p < 256 → s.orr.cycle = some (.page p d) →
      (∀ c, currentCopy (vgetN s.orr.lw p {}) = some c → c.seq.toNat < 0xFFFFFFFF) → exec .lwWriteCycleEnd s = .next t →
      (lwPage t.orr p = d ∨ ((vgetN t.orr.lw p {}).worn = true ∧ lwPage t.orr p = lwPage s.orr p)) ∧
      (∀ q, q ≠ p → lwPage t.orr q = lwPage s.orr q) ∧ lwBp t.orr = lwBp s.orr ∧ t.orr.pages = s.orr.pages) ∧
    (∀ (off : W16) (v : W32) (s t : State),
      memWf s.gq.inBuf = true → off.toNat % 4 = 0 → 0x2000 ≤ off.toNat → off.toNat < 0x5000 →
      exec (.registerWrite .gules off v) s = .next t →
      memWf t.gq.inBuf = true ∧
      (∀ k, k < 4 → memRead t.gq.inBuf (off.toNat - 0x2000 + k) = byte (v.toNat / 256 ^ k)) ∧
      ∀ a, a < off.toNat - 0x2000 ∨ off.toNat - 0x2000 + 4 ≤ a → memRead t.gq.inBuf a = memRead s.gq.inBuf a)

/-- Posting an event: a masked event changes nothing, EVT_TAMPER (7) and EVT_BOOT (9) are never masked; a ring of at most 32 entries stays so; the EVT_TAMPER and EVT_BOOT entries that the ring holds all stay, in their order; with room the event is appended last. Requesting a ledger entry: in Retired nothing changes; otherwise the entries that wait, in the queue and outside it, are those before and the new one last, and a queue of at most 16 places stays so. -/
def Obligations.EventRingAndLedgerQueue : Prop :=
    (∀ (code : Nat) (st : Status) (b : Bytes) (s : State),
      (evtEnabled s.ev.mask code = false → postEvent s code st b = s) ∧
      evtEnabled s.ev.mask 7 = true ∧ evtEnabled s.ev.mask 9 = true ∧
      (s.ev.ring.length ≤ 32 → (postEvent s code st b).ev.ring.length ≤ 32) ∧
      (s.ev.ring.filter fun x => x.code == 7 || x.code == 9) <+:
        ((postEvent s code st b).ev.ring.filter fun x => x.code == 7 || x.code == 9) ∧
      (evtEnabled s.ev.mask code = true → s.ev.ring.length < 32 → ∃ x : Event, x.code = byte code ∧ x.body = b ∧
        x.status = statusCode st ∧ (postEvent s code st b).ev.ring = s.ev.ring ++ [x])) ∧
    (∀ (r : LedgerReq) (s : State),
      (s.keys.lcRetire = true → ledgerQueue s r = s) ∧
      (s.keys.lcRetire = false → (ledgerQueue s r).ledger.queue ++ (ledgerQueue s r).ledger.outside =
        s.ledger.queue ++ s.ledger.outside ++ [r]) ∧
      (s.ledger.queue.length ≤ 16 → (ledgerQueue s r).ledger.queue.length ≤ 16))

/-- An append whose RID is outside the ring's range is refused with PARAM_RANGE and one that would take SEQ above 0xFFFF_FFF0 with STORE_FULL, and the ring stays as it is; any other append with LEN 0 is OK, and after it the RID has no current record, on a ring whose SEQ is the highest of its slots. -/
def Obligations.RingAppendLimits : Prop :=
    ∀ (g : RingGeo) (r : Ring) (rid bad : Nat),
      (∀ payload : Bytes, rid < g.ridLo ∨ g.ridHi < rid → ringAppend g r rid payload bad = (r, .paramRange)) ∧
      (∀ payload : Bytes, g.ridLo ≤ rid → rid ≤ g.ridHi → 0xFFFFFFF0 < r.seq.toNat + (if r.twin then 2 else 1) →
        ringAppend g r rid payload bad = (r, .storeFull)) ∧
      (g.ridLo ≤ rid → rid ≤ g.ridHi → g.ridHi < 65536 → r.seq.toNat + (if r.twin then 2 else 1) ≤ 0xFFFFFFF0 →
        (∀ x ∈ r.slots, x.seq.toNat ≤ r.seq.toNat) →
        (ringAppend g r rid [] bad).2 = .ok ∧ ringRead (ringAppend g r rid [] bad).1 rid = none)

/-- An append in range, below the last SEQ, with a payload of at most P bytes (R305: 16 in RING_CTR, 48 in RING_SEC and JOURNAL), to a ring whose SEQ is the highest of its slots is OK and the RID then reads that payload, after any number of read-back mismatches and after the reclaims that the append waits for; where at least two ring pages are erased and no reclaim runs, every other RID reads as before. -/
def Obligations.RingAppendReadsBack : Prop :=
    ∀ (g : RingGeo) (r : Ring) (rid : Nat) (payload : Bytes) (bad : Nat),
      g.ridLo ≤ rid → rid ≤ g.ridHi → g.ridHi < 65536 → r.seq.toNat + (if r.twin then 2 else 1) ≤ 0xFFFFFFF0 →
      payload ≠ [] → payload.length ≤ 256 / g.spp - 16 → (∀ x ∈ r.slots, x.seq.toNat ≤ r.seq.toNat) →
      (ringAppend g r rid payload bad).2 = .ok ∧ ringRead (ringAppend g r rid payload bad).1 rid = some payload ∧
      (2 ≤ erasedRingPages g r → r.reclaim = false → ∀ q, q ≠ rid → ringRead (ringAppend g r rid payload bad).1 q = ringRead r q)

/-- A failure of the passive, HF or credential path: with fewer than four failures still in the path's window, it is added to the list and the path is not locked out by it; as the fifth, the lock-out runs from now for the path's duration and the list is empty. Either way the list and the end are appended to the path's RING_SEC record, the other two paths stay as they are, and a lock-out of the passive or HF path requests one ledger entry unless the device is Retired. -/
def Obligations.FailuresLockAPathOut : Prop :=
    ∀ (p : LockPath) (s : State),
      ((freshFails s p).length < 4 →
        lockOf (addFailure s p) p = { lockOf s p with fails := freshFails s p ++ [rtcNow s] } ∧ (addFailure s p).ledger = s.ledger) ∧
      (4 ≤ (freshFails s p).length → lockOf (addFailure s p) p = { fails := [], endAt := rtcNow s + lockSecs s p } ∧
        (p ≠ .credential → s.keys.lcRetire = false → ∃ r : LedgerReq, r.type.toNat = 7 ∧
          (addFailure s p).ledger.queue ++ (addFailure s p).ledger.outside = s.ledger.queue ++ s.ledger.outside ++ [r])) ∧
      (addFailure s p).orr = (appendSec s (lockRid p) (lockoutPayload (lockOf (addFailure s p) p))).orr ∧
      (∀ q, q ≠ p → lockOf (addFailure s p) q = lockOf s q)
end

