-- ==== Sys2Proof/Laws/Memory.lean ====
section
/-! SUPPORT. The addressed memories: every operation keeps the canonical form, a read after a write gives the byte written, a
write leaves every other byte alone, and the memories at reset are canonical. -/

namespace Sys2Proof.Machine

set_option Elab.async false

open Sys2Proof

/-- The canonical form as a recursion: the first address is below every later one and its byte is not 0. -/
theorem memWf_cons (c : Host.Cell) (m : Mem) :
    memWf (c :: m) = true ↔ c.2 ≠ 0 ∧ memWf m = true ∧ ∀ d ∈ m.head?, c.1 < d.1 := by
  cases m with
  | nil => simp [memWf]
  | cons d ds =>
    simp only [memWf, List.tail_cons, List.zip_cons_cons, List.all_cons, Bool.and_eq_true, List.head?_cons, Option.mem_some_iff]
    simp only [bne_iff_ne, decide_eq_true_eq]
    constructor
    · rintro ⟨⟨h1, h2, h3⟩, h4, h5⟩
      exact ⟨h1, ⟨⟨h2, h3⟩, h5⟩, fun e he => he ▸ h4⟩
    · rintro ⟨h1, ⟨⟨h2, h3⟩, h5⟩, h4⟩
      exact ⟨⟨h1, h2, h3⟩, h4 d rfl, h5⟩

@[simp] theorem memWf_nil : memWf [] = true := rfl

/-- In a canonical memory every address after the first is above it. -/
theorem memWf_lt {c : Host.Cell} {m : Mem} (h : memWf (c :: m) = true) : ∀ d ∈ m, c.1 < d.1 := by
  induction m generalizing c with
  | nil => simp
  | cons e es ih =>
    obtain ⟨-, h2, h3⟩ := (memWf_cons c (e :: es)).1 h
    intro d hd
    rcases List.mem_cons.1 hd with rfl | hd
    · exact h3 _ rfl
    · exact Nat.lt_trans (h3 e rfl) (ih h2 d hd)

/-- An address below every listed one reads 0. -/
theorem memRead_below {m : Mem} {a : Nat} (h : ∀ d ∈ m, a < d.1) : memRead m a = 0 := by
  cases m with
  | nil => rfl
  | cons c cs =>
    have := h c (List.mem_cons_self ..)
    have hne : (c.1 == a) = false := by simp; omega
    simp [memRead, hne, this]

theorem memRead_cons_ne {c : Host.Cell} {m : Mem} {a : Nat} (h : memWf (c :: m) = true) (hne : a ≠ c.1) :
    memRead (c :: m) a = memRead m a := by
  have hb : (c.1 == a) = false := by simp; omega
  simp only [memRead, hb, Bool.false_eq_true, if_false]
  split
  · exact (memRead_below fun d hd => Nat.lt_trans ‹_› (memWf_lt h d hd)).symm
  · rfl

/-- The head of a memory after a write is the old head or the byte written. -/
theorem memWrite_mem {m : Mem} {a : Nat} {b : Byte} {d : Host.Cell} (h : d ∈ memWrite m a b) : d ∈ m ∨ d = (a, b) := by
  induction m with
  | nil => simp only [memWrite] at h; split at h <;> simp_all
  | cons c cs ih =>
    simp only [memWrite] at h
    split at h
    · split at h
      · exact .inl h
      · rcases List.mem_cons.1 h with h | h
        · exact .inr h
        · exact .inl h
    · split at h
      · split at h
        · exact .inl (List.mem_cons_of_mem _ h)
        · rcases List.mem_cons.1 h with h | h
          · exact .inr h
          · exact .inl (List.mem_cons_of_mem _ h)
      · rcases List.mem_cons.1 h with h | h
        · exact .inl (h ▸ List.mem_cons_self ..)
        · rcases ih h with h | h
          · exact .inl (List.mem_cons_of_mem _ h)
          · exact .inr h

theorem memWf_of_lt {c : Host.Cell} {m : Mem} (h0 : c.2 ≠ 0) (h : memWf m = true) (hl : ∀ d ∈ m, c.1 < d.1) :
    memWf (c :: m) = true := by
  refine (memWf_cons c m).2 ⟨h0, h, fun d hd => hl d ?_⟩
  cases m with
  | nil => simp at hd
  | cons e es => simp at hd; simp [hd]

/-- A write keeps the canonical form. -/
theorem memWf_memWrite {m : Mem} {a : Nat} {b : Byte} (h : memWf m = true) : memWf (memWrite m a b) = true := by
  induction m with
  | nil => simp only [memWrite]; split <;> simp_all [memWf]
  | cons c cs ih =>
    obtain ⟨h1, h2, -⟩ := (memWf_cons c cs).1 h
    have hl := memWf_lt h
    simp only [memWrite]
    split
    · split
      · exact h
      · refine memWf_of_lt (by simp_all) h fun d hd => ?_
        rcases List.mem_cons.1 hd with rfl | hd
        · assumption
        · exact Nat.lt_trans ‹_› (hl d hd)
    · split
      · rename_i heq
        have heq : c.1 = a := by simpa using heq
        split
        · exact h2
        · exact memWf_of_lt (by simp_all) h2 fun d hd => heq ▸ hl d hd
      · rename_i hlt heq
        have heq : c.1 ≠ a := by simpa using heq
        refine memWf_of_lt h1 (ih h2) fun d hd => ?_
        rcases memWrite_mem hd with hd | rfl
        · exact hl d hd
        · show c.1 < a; omega

/-- A read of one byte after a write of one byte. -/
theorem memRead_memWrite {m : Mem} {a x : Nat} {b : Byte} (h : memWf m = true) :
    memRead (memWrite m a b) x = if x = a then b else memRead m x := by
  induction m with
  | nil =>
    have hax : (a == x) = decide (x = a) := by
      rw [Bool.eq_iff_iff, beq_iff_eq, decide_eq_true_eq]; exact eq_comm
    simp only [memWrite]
    split
    · have hb : b = 0 := by simp_all
      rw [hb]; split <;> rfl
    · by_cases hx : x = a
      · subst hx; simp [memRead]
      · simp only [memRead, hax, hx, decide_false, Bool.false_eq_true, if_false, ite_self]
  | cons c cs ih =>
    obtain ⟨h1, h2, -⟩ := (memWf_cons c cs).1 h
    have hl := memWf_lt h
    have hbelow : a < c.1 → memRead (c :: cs) a = 0 := fun hlt => memRead_below fun d hd => by
      rcases List.mem_cons.1 hd with rfl | hd
      · exact hlt
      · exact Nat.lt_trans hlt (hl d hd)
    simp only [memWrite]
    split
    · rename_i hlt
      by_cases hb : b = 0
      · by_cases hx : x = a
        · subst hx; simp only [hb]; simpa using hbelow hlt
        · simp [hb, hx]
      · have hb' : (b == 0) = false := by simpa using hb
        simp only [hb', Bool.false_eq_true, if_false]
        by_cases hx : x = a
        · subst hx; simp [memRead]
        · have hax : (a == x) = false := by simp; omega
          simp only [hx, if_false]
          conv => lhs; unfold memRead
          simp only [hax, Bool.false_eq_true, if_false]
          split
          · exact (memRead_below fun d hd => by
              rcases List.mem_cons.1 hd with rfl | hd
              · omega
              · have := hl d hd; omega).symm
          · rfl
    · split
      · rename_i heq
        have heq : c.1 = a := by simpa using heq
        by_cases hb : b = 0
        · simp only [hb, BEq.rfl, if_true]
          by_cases hx : x = a
          · subst hx; simp only [if_true]
            exact memRead_below fun d hd => heq ▸ hl d hd
          · simp only [hx, if_false]
            exact (memRead_cons_ne h (by omega)).symm
        · have hb' : (b == 0) = false := by simpa using hb
          simp only [hb', Bool.false_eq_true, if_false]
          by_cases hx : x = a
          · subst hx; simp [memRead]
          · have hw : memWf ((a, b) :: cs) = true := memWf_of_lt (by simpa using hb) h2 fun d hd => heq ▸ hl d hd
            simp only [hx, if_false]
            rw [memRead_cons_ne hw (by simpa using hx), memRead_cons_ne h (by omega)]
      · rename_i hlt heq
        have heq : c.1 ≠ a := by simpa using heq
        have hw : memWf (c :: memWrite cs a b) = true := by
          refine memWf_of_lt h1 (memWf_memWrite h2) fun d hd => ?_
          rcases memWrite_mem hd with hd | rfl
          · exact hl d hd
          · show c.1 < a; omega
        by_cases hx : x = c.1
        · subst hx
          simp [memRead, heq]
        · rw [memRead_cons_ne hw hx, ih h2, memRead_cons_ne h hx]

/-- Writing what an address already reads as changes nothing. -/
theorem memRead_memWrite_self {m : Mem} {a : Nat} {b : Byte} (h : memWf m = true) : memRead (memWrite m a b) a = b := by
  simp [memRead_memWrite h]

/-- Bytes stored at rising addresses keep the canonical form. -/
theorem memWf_memWriteBytes {m : Mem} {a : Nat} {bs : Bytes} (h : memWf m = true) : memWf (memWriteBytes m a bs) = true := by
  induction bs generalizing m a with
  | nil => exact h
  | cons b bs ih => exact ih (memWf_memWrite h)

/-- A read after bytes were stored: the byte stored there, or what was there before. -/
theorem memRead_memWriteBytes {m : Mem} {a x : Nat} {bs : Bytes} (h : memWf m = true) :
    memRead (memWriteBytes m a bs) x = if a ≤ x ∧ x < a + bs.length then bs.getD (x - a) 0 else memRead m x := by
  induction bs generalizing m a with
  | nil => rw [if_neg (by simp only [List.length_nil]; omega)]; rfl
  | cons b bs ih =>
    simp only [memWriteBytes, List.length_cons]
    rw [ih (memWf_memWrite h), memRead_memWrite h]
    by_cases h1 : a + 1 ≤ x ∧ x < a + 1 + bs.length
    · have h3 : x - a = (x - (a + 1)) + 1 := by omega
      rw [if_pos h1, if_pos (by omega), h3]; rfl
    · rw [if_neg h1]
      by_cases h4 : x = a
      · rw [if_pos h4, if_pos (by omega), h4, Nat.sub_self]; rfl
      · rw [if_neg h4, if_neg (by omega)]

theorem memWf_filter {m : Mem} {p : Host.Cell → Bool} (h : memWf m = true) : memWf (m.filter p) = true := by
  induction m with
  | nil => rfl
  | cons c cs ih =>
    obtain ⟨h1, h2, -⟩ := (memWf_cons c cs).1 h
    simp only [List.filter_cons]
    split
    · exact memWf_of_lt h1 (ih h2) fun d hd => memWf_lt h d (List.mem_filter.1 hd).1
    · exact ih h2

/-- Clearing an area keeps the canonical form. -/
theorem memWf_memClear {m : Mem} {a n : Nat} (h : memWf m = true) : memWf (memClear m a n) = true := memWf_filter h

/-- A read after an area was cleared. -/
theorem memRead_memClear {m : Mem} {a n x : Nat} (h : memWf m = true) :
    memRead (memClear m a n) x = if a ≤ x ∧ x < a + n then 0 else memRead m x := by
  induction m with
  | nil => simp [memClear, memRead]
  | cons c cs ih =>
    obtain ⟨h1, h2, -⟩ := (memWf_cons c cs).1 h
    have hl := memWf_lt h
    simp only [memClear, List.filter_cons] at ih ⊢
    split
    · rename_i hc
      have hw : memWf (c :: memClear cs a n) = true :=
        memWf_of_lt h1 (memWf_memClear h2) fun d hd => hl d (List.mem_filter.1 hd).1
      by_cases hx : x = c.1
      · subst hx
        have : ¬ (a ≤ c.1 ∧ c.1 < a + n) := by simp at hc; omega
        simp [memRead, this]
      · have := memRead_cons_ne hw hx
        simp only [memClear] at this
        rw [this, ih h2, memRead_cons_ne h hx]
    · rename_i hc
      have hc : a ≤ c.1 ∧ c.1 < a + n := by simp at hc; omega
      rw [ih h2]
      by_cases hx : x = c.1
      · subst hx; simp [hc]
      · rw [memRead_cons_ne h hx]

/-- Every addressed memory of the block is canonical at reset. -/
theorem reset_memories_wf :
    [State.reset.cel.win, State.reset.vert.buf, State.reset.vert.prog, State.reset.tn.rxbuf, State.reset.tn.txbuf,
     State.reset.tn.prog, State.reset.az.tsbuf, State.reset.az.prog, State.reset.az.key.port, State.reset.hf.txbuf,
     State.reset.hf.rxbuf, State.reset.gq.inBuf, State.reset.gq.outBuf, State.reset.host.stage,
     State.reset.host.rxqMem, State.reset.cmds.slots].all memWf = true := rfl

end Sys2Proof.Machine
end

