-- ==== Sys2Proof/Laws/Ops.lean ====
section
/-! SUPPORT. What the shared operations can do to the state: each lemma names every field that the operation may change and
says that all the others stay. -/

namespace Sys2Proof.Machine

set_option Elab.async false

open Sys2Proof

theorem drawBytes_frame (s : State) (n : Nat) :
    ∃ freeCtr', (drawBytes s n).2 = { s with freeCtr := freeCtr' } := ⟨_, rfl⟩

theorem drawNat_frame (s : State) (n : Nat) :
    ∃ freeCtr', (drawNat s n).2 = { s with freeCtr := freeCtr' } := ⟨_, rfl⟩

theorem postEvent_frame (s : State) (code : Nat) (st : Status) (b : Bytes) :
    ∃ ev', postEvent s code st b = { s with ev := ev' } := ⟨_, rfl⟩

theorem evtStore_frame (s : State) (k m a : Nat) (st : Status) :
    ∃ ev', evtStore s k m a st = { s with ev := ev' } := ⟨_, rfl⟩

theorem evtSessionEnd_frame (s : State) (a b c : Nat) (d : BitVec 4) (e : Nat) :
    ∃ ev', evtSessionEnd s a b c d e = { s with ev := ev' } := ⟨_, rfl⟩

theorem evtStartRefused_frame (s : State) (a : Nat) (st : Status) (b : Nat) :
    ∃ ev', evtStartRefused s a st b = { s with ev := ev' } := ⟨_, rfl⟩

theorem evtLockout_frame (s : State) (p : LockPath) (a b : Nat) :
    ∃ ev', evtLockout s p a b = { s with ev := ev' } := ⟨_, rfl⟩

theorem ledgerQueue_frame (s : State) (r : LedgerReq) :
    ∃ ledger', ledgerQueue s r = { s with ledger := ledger' } := by
  simp only [ledgerQueue]
  (repeat' split) <;> exact ⟨_, rfl⟩

theorem ledgerAdd_frame (s : State) (a b c : Nat) (x : Option (Fin 160)) (d : Bytes) :
    ∃ ledger', ledgerAdd s a b c x d = { s with ledger := ledger' } := by
  obtain ⟨y0, h⟩ := ledgerQueue_frame s (ledgerReq s a b c x d)
  exact ⟨_, by simp only [ledgerAdd]; rw [h]⟩

theorem postRecord_frame (s : State) (k l : Byte) (p : Bytes) :
    ∃ cmds', postRecord s k l p = { s with cmds := cmds' } := ⟨_, rfl⟩

theorem respond_frame (s : State) (sl : Fin 16) (o c : Nat) (st : Status) (r : Bytes) :
    ∃ cmds', respond s sl o c st r = { s with cmds := cmds' } := ⟨_, rfl⟩

theorem answerCmd_frame (s : State) (c : CmdRec) (st : Status) (r : Bytes) :
    ∃ cmds', answerCmd s c st r = { s with cmds := cmds' } := ⟨_, rfl⟩

theorem tbHold_frame (s : State) :
    ∃ cel', tbHold s = { s with cel := cel' } := by
  simp only [tbHold]
  (repeat' split) <;> exact ⟨_, rfl⟩

theorem tbRestart_frame (s : State) (x : TbSource) :
    ∃ cel', tbRestart s x = { s with cel := cel' } := by
  simp only [tbRestart]
  (repeat' split) <;> exact ⟨_, rfl⟩

theorem setSeq_frame (s : State) (e : SeqId) (q : Sequencer) :
    ∃ seqs', setSeq s e q = { s with seqs := seqs' } := by
  cases e <;> exact ⟨_, rfl⟩

theorem seqPast_frame (s : State) (e : SeqId) (n : Nat) (w : SeqWait) :
    ∃ seqs', seqPast s e n w = { s with seqs := seqs' } := by
  obtain ⟨y0, h⟩ := setSeq_frame s e { seqOf s e with pc := (seqOf s e).pc + n, wait := w }
  exact ⟨_, by simp only [seqPast]; rw [h]⟩

theorem seqResume_frame (s : State) (e : SeqId) :
    ∃ seqs', seqResume s e = { s with seqs := seqs' } := by
  obtain ⟨y0, h⟩ := setSeq_frame s e { seqOf s e with wait := .ready }
  exact ⟨_, by simp only [seqResume]; rw [h]⟩

theorem countFiring_frame (s : State) (n : Fin 128) (x : W16) :
    ∃ vert', countFiring s n x = { s with vert := vert' } := by
  simp only [countFiring]
  (repeat' split) <;> exact ⟨_, rfl⟩

theorem complete_frame (s : State) (n : Fin 128) (x : Status) :
    ∃ cel', complete s n x = { s with cel := cel' } := ⟨_, rfl⟩

theorem cutWindows_frame (l : List LfWindow) (s : State) :
    ∃ a b, cutWindows l s = { s with freeCtr := a, vert := b } := by
  induction l generalizing s with
  | nil => exact ⟨_, _, rfl⟩
  | cons w ws ih =>
    simp only [cutWindows]
    obtain ⟨a, b, h⟩ := ih { s with
      vert := writeRes { s.vert with windows := s.vert.windows.filter (· ≠ w) } w (freeMeas s.freeCtr) true
      freeCtr := s.freeCtr + 6 }
    exact ⟨a, b, by rw [h]⟩

theorem cutMask_frame (s : State) (m : Nat) :
    ∃ freeCtr' vert', cutMask s m = { s with freeCtr := freeCtr', vert := vert' } := by
  obtain ⟨y0, y1, h⟩ := cutWindows_frame (s.vert.windows.filter fun w => w.mask.toNat &&& m != 0 && decide (now s < w.stop)) s
  exact ⟨_, _, by simp only [cutMask]; rw [h]⟩

theorem vertIdle_frame (s : State) :
    ∃ freeCtr' vert', vertIdle s = { s with freeCtr := freeCtr', vert := vert' } := by
  obtain ⟨y0, y1, h⟩ := cutMask_frame s 7
  exact ⟨_, _, by simp only [vertIdle]; rw [h]⟩

theorem cutRx_frame (s : State) :
    ∃ freeCtr' tn', cutRx s = { s with freeCtr := freeCtr', tn := tn' } := by
  simp only [cutRx]
  (repeat' split) <;> exact ⟨_, _, rfl⟩

theorem tenneIdle_frame (s : State) :
    ∃ freeCtr' tn', tenneIdle s = { s with freeCtr := freeCtr', tn := tn' } := by
  obtain ⟨y0, y1, h⟩ := cutRx_frame s
  exact ⟨_, _, by simp only [tenneIdle]; rw [h]⟩

theorem cutTs_frame (s : State) (r : Fin 4) :
    ∃ freeCtr' az', cutTs s r = { s with freeCtr := freeCtr', az := az' } := ⟨_, _, rfl⟩

theorem cutLoop_frame (s : State) :
    ∃ freeCtr' az', cutLoop s = { s with freeCtr := freeCtr', az := az' } := by
  simp only [cutLoop]
  (repeat' split) <;> exact ⟨_, _, rfl⟩

theorem cutAzRx_frame (s : State) :
    ∃ freeCtr' az', cutAzRx s = { s with freeCtr := freeCtr', az := az' } := by
  simp only [cutAzRx]
  (repeat' split) <;> exact ⟨_, _, rfl⟩

theorem zeroiseSts_frame (s : State) :
    ∃ az', zeroiseSts s = { s with az := az' } := ⟨_, rfl⟩

theorem azBoundary_frame (s : State) :
    ∃ az', azBoundary s = { s with az := az' } := by
  simp only [azBoundary]
  (repeat' split) <;> exact ⟨_, rfl⟩

theorem azureIdle_frame (s : State) : ∃ a b c, azureIdle s = { s with freeCtr := a, az := b, clk := c } := by
  obtain ⟨a, b, h1⟩ := cutLoop_frame s
  obtain ⟨c, d, h2⟩ := cutAzRx_frame (cutLoop s)
  obtain ⟨e, h3⟩ := azBoundary_frame { cutAzRx (cutLoop s) with
    az := { (cutAzRx (cutLoop s)).az with rxA := none, rxB := none, txPort := none, synthOn := false, locked := false }
    clk := { (cutAzRx (cutLoop s)).clk with plluLock := false } }
  refine ⟨c, e, { s.clk with plluLock := false }, ?_⟩
  simp only [azureIdle]
  rw [h3, h2, h1]

theorem engineIdle_frame (s : State) (e : SeqId) :
    ∃ a b c d f, engineIdle s e = { s with freeCtr := a, vert := b, tn := c, az := d, clk := f } := by
  cases e
  · obtain ⟨a, b, h⟩ := vertIdle_frame s
    exact ⟨a, b, _, _, _, by simp only [engineIdle]; rw [h]⟩
  · obtain ⟨a, b, c, h⟩ := azureIdle_frame s
    exact ⟨a, _, _, b, c, by simp only [engineIdle]; rw [h]⟩
  · obtain ⟨a, b, h⟩ := tenneIdle_frame s
    exact ⟨a, _, b, _, _, by simp only [engineIdle]; rw [h]⟩

theorem endProgram_frame (s : State) (e : SeqId) (st : Status) :
    ∃ a b c d f g h, endProgram s e st =
      { s with freeCtr := a, cel := b, seqs := c, vert := d, tn := f, az := g, clk := h } := by
  simp only [endProgram]
  split
  · exact ⟨_, _, _, _, _, _, _, rfl⟩
  · rename_i n _
    obtain ⟨a, b, c, d, f, h1⟩ := engineIdle_frame s e
    obtain ⟨g, h2⟩ := setSeq_frame (engineIdle s e) e {}
    obtain ⟨i, h3⟩ := complete_frame (setSeq (engineIdle s e) e {}) n st
    exact ⟨a, i, g, b, c, d, f, by rw [h3, h2, h1]⟩

theorem elapse_frame (s : State) (n : Nat) :
    ∃ clock' cel' vert' rtc' bg', elapse s n = { s with clock := clock', cel := cel', vert := vert', rtc := rtc', bg := bg' } := ⟨_, _, _, _, _, rfl⟩

theorem elapseTo_frame (s : State) (t : Nat) :
    ∃ clock' cel' vert' rtc' bg', elapseTo s t = { s with clock := clock', cel := cel', vert := vert', rtc := rtc', bg := bg' } := by
  simp only [elapseTo]
  (repeat' split) <;> exact ⟨_, _, _, _, _, rfl⟩

theorem finishTimed_frame (s : State) (e : SeqId) (k : TimedOp) :
    ∃ freeCtr' tn' az', finishTimed s e k = { s with freeCtr := freeCtr', tn := tn', az := az' } := by
  simp only [finishTimed]
  (repeat' split) <;> exact ⟨_, _, _, rfl⟩

theorem settleSeq_frame (s : State) (e : SeqId) :
    ∃ a b c d f g h i j, settleSeq s e =
      { s with freeCtr := a, cel := b, seqs := c, vert := d, tn := f, az := g, clock := h, rtc := i, bg := j } := by
  simp only [settleSeq]
  split
  · rename_i t k _
    obtain ⟨a, b, c, d, e', h1⟩ := elapseTo_frame s t
    obtain ⟨f, h2⟩ := seqResume_frame (elapseTo s t) e
    obtain ⟨g, h, i, h3⟩ := finishTimed_frame (seqResume (elapseTo s t) e) e k
    split
    · exact ⟨g, b, f, c, h, i, a, d, e', by rw [h3, h2, h1]⟩
    · exact ⟨_, b, _, c, _, _, a, d, e', by rw [h1]⟩
  · exact ⟨_, _, _, _, _, _, _, _, _, rfl⟩

theorem settleDueSeq_frame (s : State) (e : SeqId) :
    ∃ a b c d f g h i j, settleDueSeq s e =
      { s with freeCtr := a, cel := b, seqs := c, vert := d, tn := f, az := g, clock := h, rtc := i, bg := j } := by
  simp only [settleDueSeq]
  split
  · split
    · exact settleSeq_frame s e
    · exact ⟨_, _, _, _, _, _, _, _, _, rfl⟩
  · exact ⟨_, _, _, _, _, _, _, _, _, rfl⟩

theorem stopProgram_frame (s : State) (e : SeqId) (st : Status) :
    ∃ a b c d f g h i j k, stopProgram s e st =
      { s with freeCtr := a, cel := b, seqs := c, vert := d, tn := f, az := g, clk := h, clock := i, rtc := j, bg := k } := by
  have aux : ∀ e, ∃ a b c d f g h i j k, endProgram (settleDueSeq s e) e st =
      { s with freeCtr := a, cel := b, seqs := c, vert := d, tn := f, az := g, clk := h, clock := i, rtc := j, bg := k } := by
    intro e
    obtain ⟨_, _, _, _, _, _, a, b, c, h1⟩ := settleDueSeq_frame s e
    obtain ⟨d, f, g, h, i, j, k, h2⟩ := endProgram_frame (settleDueSeq s e) e st
    exact ⟨d, f, g, h, i, j, k, a, b, c, by rw [h2, h1]⟩
  cases e
  · obtain ⟨a, b, c, d, e', h1⟩ := elapseTo_frame s (vertStopTick s)
    obtain ⟨f, g, h, i, j, k, l, h2⟩ := endProgram_frame (elapseTo s (vertStopTick s)) .vert st
    exact ⟨f, g, h, i, j, k, l, a, d, e', by simp only [stopProgram]; rw [h2, h1]⟩
  · exact aux .azure
  · exact aux .tenne

theorem sendShort_frame (s : State) (h : Bool) (k : Fin 8) (p : BitVec 17) :
    ∃ bar', sendShort s h k p = { s with bar := bar' } := by
  simp only [sendShort]
  (repeat' split) <;> exact ⟨_, rfl⟩

theorem takeShort_frame (s : State) (h : Bool) :
    ∃ bar', takeShort s h = { s with bar := bar' } := by
  simp only [takeShort]
  (repeat' split) <;> exact ⟨_, rfl⟩

theorem sendVerdict_frame (s : State) (f : VerdictFrame) :
    ∃ bar', sendVerdict s f = { s with bar := bar' } := by
  obtain ⟨y0, h⟩ := sendShort_frame { s with bar := { s.bar with awaiting := s.bar.awaiting ++ [f] } } true (if startGrant f.grant.toNat then 2 else 1) (verdictPayload f)
  exact ⟨_, by simp only [sendVerdict]; rw [h]⟩

theorem latchVerdict_frame (s : State) (f : VerdictFrame) : ∃ a b c, latchVerdict s f = { s with gq := a, bar := b, bg := c } := by
  simp only [latchVerdict]
  split
  · obtain ⟨a, h⟩ := sendVerdict_frame { s with
      gq := { s.gq with latch := some f }
      bg := { s.bg with pu := { s.bg.pu with grants := satInc s.bg.pu.grants } } } f
    exact ⟨_, a, _, by rw [h]⟩
  · exact ⟨_, _, _, rfl⟩

theorem sendBulk_frame (s : State) (h : Bool) (t : BulkType) (g : Fin 8) (a : W32) (d : Bytes) :
    ∃ bar', sendBulk s h t g a d = { s with bar := bar' } := ⟨_, rfl⟩

theorem takeBulk_frame (s : State) (h : Bool) :
    ∃ bar', takeBulk s h = { s with bar := bar' } := by
  simp only [takeBulk]
  (repeat' split) <;> exact ⟨_, rfl⟩

theorem returnCredit_frame (s : State) (h p : Bool) (n : Nat) : ∃ a, returnCredit s h p n = { s with bar := a } := by
  simp only [returnCredit]
  generalize setBulk s.bar h _ = x
  generalize BitVec.ofNat 17 _ = y
  obtain ⟨a, h1⟩ := sendShort_frame { s with bar := x } (!h) 5 y
  exact ⟨a, by rw [h1]⟩

theorem sendUnits_frame (n : Nat) (s : State) (u : Nat) (d : Bytes) : ∃ a, sendUnits s u d n = { s with bar := a } := by
  induction n generalizing s u d with
  | zero => exact ⟨_, rfl⟩
  | succ n ih =>
    simp only [sendUnits]
    obtain ⟨a, h⟩ := ih (sendBulk s true .write 0 (BitVec.ofNat 32 (64 * (u % 64))) (d.take 64)) (u + 1) (d.drop 64)
    exact ⟨a, by rw [h]; rfl⟩

theorem postRecordNow_frame (s : State) (p : Post) : ∃ a b c, postRecordNow s p = { s with bar := a, ev := b, cmds := c } := by
  obtain ⟨a, h⟩ := sendUnits_frame (recordUnits p.payload.length) s s.cmds.unitAt (recordBytes p s.ev.seq)
  exact ⟨a, _, _, by simp only [postRecordNow]; rw [h]⟩

theorem pumpOutbox_frame (n : Nat) (s : State) : ∃ a b c, pumpOutbox n s = { s with bar := a, ev := b, cmds := c } := by
  induction n generalizing s with
  | zero => exact ⟨_, _, _, rfl⟩
  | succ n ih =>
    simp only [pumpOutbox]
    split
    · exact ⟨_, _, _, rfl⟩
    · rename_i p ps _
      split
      · obtain ⟨a, b, c, h⟩ := ih (postRecordNow { s with cmds := { s.cmds with outbox := ps } } p)
        obtain ⟨d, e, f, h2⟩ := postRecordNow_frame { s with cmds := { s.cmds with outbox := ps } } p
        exact ⟨a, b, c, by rw [h, h2]⟩
      · exact ⟨_, _, _, rfl⟩

theorem pump_frame (s : State) :
    ∃ bar' ev' cmds', pump s = { s with bar := bar', ev := ev', cmds := cmds' } := by
  obtain ⟨y0, y1, y2, h⟩ := pumpOutbox_frame s.cmds.outbox.length s
  exact ⟨_, _, _, by simp only [pump]; rw [h]⟩

theorem postBulk_frame (s : State) (d : Bytes) :
    ∃ ev' cmds', postBulk s d = { s with ev := ev', cmds := cmds' } := ⟨_, _, rfl⟩

theorem irqSet_frame (s : State) (n : Nat) :
    ∃ host', irqSet s n = { s with host := host' } := ⟨_, rfl⟩

theorem sendVState_frame (s : State) : ∃ a b, sendVState s = { s with bar := a, host := b } := by
  simp only [sendVState]
  split
  · exact ⟨_, _, rfl⟩
  · obtain ⟨a, h⟩ := sendShort_frame s false 1 (vstatePayload s.host)
    exact ⟨a, _, by rw [h]⟩

theorem sendVStateIfChanged_frame (s : State) : ∃ a b, sendVStateIfChanged s = { s with bar := a, host := b } := by
  simp only [sendVStateIfChanged]
  split
  · exact ⟨_, _, rfl⟩
  · exact sendVState_frame s

theorem anomSet_frame (s : State) (n : Nat) :
    ∃ bg', anomSet s n = { s with bg := bg' } := ⟨_, rfl⟩

theorem permitStop_frame (s : State) (n : Nat) : ∃ a b, permitStop s n = { s with bar := a, host := b } := by
  simp only [permitStop]
  split
  · obtain ⟨a, b, h⟩ := sendVStateIfChanged_frame (irqSet { s with host := { s.host with pmt := { s.host.pmt with
      active := false, lastEnd := BitVec.ofNat 4 n } } } 6)
    exact ⟨a, b, by rw [h]; rfl⟩
  · exact ⟨_, _, rfl⟩

theorem endEntry_frame (s : State) (a b : Nat) : ∃ p e, endEntry s a b = { s with pres := p, ev := e } := by
  simp only [endEntry]
  split <;> exact ⟨_, _, rfl⟩

theorem endStart_frame (s : State) (a : Nat) : ∃ p e, endStart s a = { s with pres := p, ev := e } := by
  simp only [endStart]
  split <;> exact ⟨_, _, rfl⟩

theorem stopStart_frame (s : State) (a b : Nat) : ∃ p q e, stopStart s a b = { s with pres := p, bar := q, ev := e } := by
  simp only [stopStart]
  split
  · obtain ⟨q, h1⟩ := sendShort_frame s true 7 (BitVec.ofNat 17 (1 + 16 * b))
    obtain ⟨p, e, h2⟩ := endStart_frame (sendPermitStop s b) a
    exact ⟨p, q, e, by rw [h2]; simp only [sendPermitStop]; rw [h1]⟩
  · exact ⟨_, _, _, rfl⟩

theorem setLock_frame (s : State) (p : LockPath) (l : Lockout) :
    ∃ pres' creds', setLock s p l = { s with pres := pres', creds := creds' } := by
  cases p <;> exact ⟨_, _, rfl⟩

theorem appendSec_frame (s : State) (n : Nat) (d : Bytes) :
    ∃ orr', appendSec s n d = { s with orr := orr' } := by
  simp only [appendSec]
  (repeat' split) <;> exact ⟨_, rfl⟩

theorem saveLock_frame (s : State) (p : LockPath) :
    ∃ orr', saveLock s p = { s with orr := orr' } := by
  obtain ⟨y0, h⟩ := appendSec_frame s (lockRid p) (lockoutPayload (lockOf s p))
  exact ⟨_, by simp only [saveLock]; rw [h]⟩

theorem enterLockout_frame (s : State) (p : LockPath) :
    ∃ a b c d e, enterLockout s p = { s with pres := a, creds := b, ledger := c, orr := d, ev := e } := by
  obtain ⟨a, b, h1⟩ := setLock_frame s p { fails := [], endAt := rtcNow s + lockSecs s p }
  obtain ⟨d, h2⟩ := saveLock_frame (setLock s p { fails := [], endAt := rtcNow s + lockSecs s p }) p
  obtain ⟨e, h3⟩ := evtLockout_frame (saveLock (setLock s p { fails := [], endAt := rtcNow s + lockSecs s p }) p) p 0
    (rtcNow s + lockSecs s p)
  obtain ⟨c, h4⟩ := ledgerAdd_frame (evtLockout (saveLock (setLock s p { fails := [], endAt := rtcNow s + lockSecs s p }) p) p 0
    (rtcNow s + lockSecs s p)) 7 0 0 none ([byte (lockCode p), 0] ++ leBytes 4 (rtcNow s + lockSecs s p))
  simp only [enterLockout]
  split
  · exact ⟨a, b, _, d, e, by rw [h3, h2, h1]⟩
  · exact ⟨a, b, c, d, e, by rw [h4, h3, h2, h1]⟩

theorem addFailure_frame (s : State) (p : LockPath) :
    ∃ a b c d e, addFailure s p = { s with pres := a, creds := b, ledger := c, orr := d, ev := e } := by
  simp only [addFailure]
  split
  · exact enterLockout_frame s p
  · obtain ⟨a, b, h1⟩ := setLock_frame s p { (lockOf s p) with fails := freshFails s p ++ [rtcNow s] }
    obtain ⟨d, h2⟩ := saveLock_frame (setLock s p { (lockOf s p) with fails := freshFails s p ++ [rtcNow s] }) p
    exact ⟨a, b, _, d, _, by rw [h2, h1]⟩

theorem endLockout_frame (s : State) (p : LockPath) :
    ∃ a b c d, endLockout s p = { s with pres := a, creds := b, orr := c, ev := d } := by
  simp only [endLockout]
  split
  · obtain ⟨a, b, h1⟩ := setLock_frame s p { (lockOf s p) with endAt := 0 }
    obtain ⟨c, h2⟩ := saveLock_frame (setLock s p { (lockOf s p) with endAt := 0 }) p
    obtain ⟨d, h3⟩ := evtLockout_frame (saveLock (setLock s p { (lockOf s p) with endAt := 0 }) p) p 1 0
    exact ⟨a, b, c, d, by rw [h3, h2, h1]⟩
  · exact ⟨_, _, _, _, rfl⟩

theorem idleNote_frame (s : State) :
    ∃ pwr', idleNote s = { s with pwr := pwr' } := by
  simp only [idleNote]
  (repeat' split) <;> exact ⟨_, rfl⟩

theorem leaveFallback_frame (s : State) :
    ∃ cel' clk', leaveFallback s = { s with cel := cel', clk := clk' } := ⟨_, _, rfl⟩

theorem xoBack_frame (s : State) : ∃ cel' clk', xoBack s = { s with cel := cel', clk := clk' } := by
  simp only [xoBack]
  split
  · exact ⟨_, _, rfl⟩
  · split
    · exact ⟨_, _, rfl⟩
    · exact leaveFallback_frame s

theorem passEnd_frame (s : State) :
    ∃ a b c d e g h, passEnd s = { s with bar := a, ev := b, pwr := c, cmds := d, bg := e, cel := g, clk := h } := by
  obtain ⟨a, b, d, h1⟩ := pump_frame s
  obtain ⟨c, h2⟩ := idleNote_frame (pump s)
  obtain ⟨g, h, h4⟩ := xoBack_frame (idleNote (pump s))
  simp only [passEnd]
  split
  · exact ⟨{ a with fieldEnd := { a.fieldEnd with alive := a.fieldEnd.alive + 1 } }, b, c, d, _, g, h, by rw [h4, h2, h1]⟩
  · exact ⟨{ a with fieldEnd := { a.fieldEnd with alive := a.fieldEnd.alive + 1 } }, b, c, d, _, _, _, by rw [h2, h1]⟩

end Sys2Proof.Machine
end

