-- ==== Sys2Proof/Laws/State.lean ====
section
/-! SUPPORT. What `keepOtp`, `done`, the passing of time and the queue leave of every field of the state. -/

namespace Sys2Proof.Machine

set_option Elab.async false

open Sys2Proof

/-! ### `keepOtp`: only the queue, OTP and the host die's revision come from the old state -/

@[simp] theorem keepOtp_freeCtr (s t : State) : (keepOtp s t).freeCtr = t.freeCtr := rfl
@[simp] theorem keepOtp_clock (s t : State) : (keepOtp s t).clock = t.clock := rfl
@[simp] theorem keepOtp_lastRead (s t : State) : (keepOtp s t).lastRead = t.lastRead := rfl
@[simp] theorem keepOtp_cel (s t : State) : (keepOtp s t).cel = t.cel := rfl
@[simp] theorem keepOtp_seqs (s t : State) : (keepOtp s t).seqs = t.seqs := rfl
@[simp] theorem keepOtp_vert (s t : State) : (keepOtp s t).vert = t.vert := rfl
@[simp] theorem keepOtp_tn (s t : State) : (keepOtp s t).tn = t.tn := rfl
@[simp] theorem keepOtp_ctxs (s t : State) : (keepOtp s t).ctxs = t.ctxs := rfl
@[simp] theorem keepOtp_az (s t : State) : (keepOtp s t).az = t.az := rfl
@[simp] theorem keepOtp_pres (s t : State) : (keepOtp s t).pres = t.pres := rfl
@[simp] theorem keepOtp_hf (s t : State) : (keepOtp s t).hf = t.hf := rfl
@[simp] theorem keepOtp_tag (s t : State) : (keepOtp s t).tag = t.tag := rfl
@[simp] theorem keepOtp_creds (s t : State) : (keepOtp s t).creds = t.creds := rfl
@[simp] theorem keepOtp_tamper (s t : State) : (keepOtp s t).tamper = t.tamper := rfl
@[simp] theorem keepOtp_gq (s t : State) : (keepOtp s t).gq = t.gq := rfl
@[simp] theorem keepOtp_rtc (s t : State) : (keepOtp s t).rtc = t.rtc := rfl
@[simp] theorem keepOtp_ledger (s t : State) : (keepOtp s t).ledger = t.ledger := rfl
@[simp] theorem keepOtp_orr (s t : State) : (keepOtp s t).orr = t.orr := rfl
@[simp] theorem keepOtp_bar (s t : State) : (keepOtp s t).bar = t.bar := rfl
@[simp] theorem keepOtp_ev (s t : State) : (keepOtp s t).ev = t.ev := rfl
@[simp] theorem keepOtp_clk (s t : State) : (keepOtp s t).clk = t.clk := rfl
@[simp] theorem keepOtp_pwr (s t : State) : (keepOtp s t).pwr = t.pwr := rfl
@[simp] theorem keepOtp_cmds (s t : State) : (keepOtp s t).cmds = t.cmds := rfl
@[simp] theorem keepOtp_bg (s t : State) : (keepOtp s t).bg = t.bg := rfl
@[simp] theorem keepOtp_pending (s t : State) : (keepOtp s t).pending = s.pending := rfl
@[simp] theorem keepOtp_serial (s t : State) : (keepOtp s t).keys.serial = s.keys.serial := rfl
@[simp] theorem keepOtp_lcProv (s t : State) : (keepOtp s t).keys.lcProv = (s.keys.lcProv || t.keys.lcProv) := rfl
@[simp] theorem keepOtp_lcField (s t : State) : (keepOtp s t).keys.lcField = (s.keys.lcField || t.keys.lcField) := rfl
@[simp] theorem keepOtp_lcRetire (s t : State) : (keepOtp s t).keys.lcRetire = (s.keys.lcRetire || t.keys.lcRetire) := rfl
@[simp] theorem keepOtp_arb (s t : State) : (keepOtp s t).boot.arbDevice = Nat.max s.boot.arbDevice t.boot.arbDevice := rfl
@[simp] theorem keepOtp_revision (s t : State) : (keepOtp s t).host.revision = s.host.revision := rfl

/-- A state that agrees with the old one on the queue, the fuses and the revision is kept as it is. -/
theorem keepOtp_eq {s t : State} (hp : t.pending = s.pending) (hk : t.keys = s.keys) (hb : t.boot = s.boot)
    (hh : t.host.revision = s.host.revision) : keepOtp s t = t := by
  obtain ⟨⟩ := t
  simp only at hp hk hb hh
  subst hp hk hb
  simp [keepOtp, ← hh]

/-- The outcome of a command that keeps the queue, the fuses and the revision. -/
theorem done_eq {s t : State} (hp : t.pending = s.pending) (hk : t.keys = s.keys) (hb : t.boot = s.boot)
    (hh : t.host.revision = s.host.revision) : done s t = .next t := by
  rw [done, keepOtp_eq hp hk hb hh]

@[simp] theorem done_next (s t u : State) : (done s t = .next u) = (keepOtp s t = u) := by simp [done]

/-! ### Time: only the clocks, the duty accounts and the seconds spent in Chalk move -/

@[simp] theorem elapse_pending (s : State) (n : Nat) : (elapse s n).pending = s.pending := rfl
@[simp] theorem elapse_freeCtr (s : State) (n : Nat) : (elapse s n).freeCtr = s.freeCtr := rfl
@[simp] theorem elapse_lastRead (s : State) (n : Nat) : (elapse s n).lastRead = s.lastRead := rfl
@[simp] theorem elapse_seqs (s : State) (n : Nat) : (elapse s n).seqs = s.seqs := rfl
@[simp] theorem elapse_tn (s : State) (n : Nat) : (elapse s n).tn = s.tn := rfl
@[simp] theorem elapse_ctxs (s : State) (n : Nat) : (elapse s n).ctxs = s.ctxs := rfl
@[simp] theorem elapse_az (s : State) (n : Nat) : (elapse s n).az = s.az := rfl
@[simp] theorem elapse_pres (s : State) (n : Nat) : (elapse s n).pres = s.pres := rfl
@[simp] theorem elapse_hf (s : State) (n : Nat) : (elapse s n).hf = s.hf := rfl
@[simp] theorem elapse_tag (s : State) (n : Nat) : (elapse s n).tag = s.tag := rfl
@[simp] theorem elapse_keys (s : State) (n : Nat) : (elapse s n).keys = s.keys := rfl
@[simp] theorem elapse_creds (s : State) (n : Nat) : (elapse s n).creds = s.creds := rfl
@[simp] theorem elapse_tamper (s : State) (n : Nat) : (elapse s n).tamper = s.tamper := rfl
@[simp] theorem elapse_gq (s : State) (n : Nat) : (elapse s n).gq = s.gq := rfl
@[simp] theorem elapse_ledger (s : State) (n : Nat) : (elapse s n).ledger = s.ledger := rfl
@[simp] theorem elapse_orr (s : State) (n : Nat) : (elapse s n).orr = s.orr := rfl
@[simp] theorem elapse_bar (s : State) (n : Nat) : (elapse s n).bar = s.bar := rfl
@[simp] theorem elapse_host (s : State) (n : Nat) : (elapse s n).host = s.host := rfl
@[simp] theorem elapse_ev (s : State) (n : Nat) : (elapse s n).ev = s.ev := rfl
@[simp] theorem elapse_clk (s : State) (n : Nat) : (elapse s n).clk = s.clk := rfl
@[simp] theorem elapse_pwr (s : State) (n : Nat) : (elapse s n).pwr = s.pwr := rfl
@[simp] theorem elapse_boot (s : State) (n : Nat) : (elapse s n).boot = s.boot := rfl
@[simp] theorem elapse_cmds (s : State) (n : Nat) : (elapse s n).cmds = s.cmds := rfl

@[simp] theorem elapseTo_pending (s : State) (t : Nat) : (elapseTo s t).pending = s.pending := by
  simp only [elapseTo]; split <;> rfl
@[simp] theorem elapseTo_freeCtr (s : State) (t : Nat) : (elapseTo s t).freeCtr = s.freeCtr := by
  simp only [elapseTo]; split <;> rfl
@[simp] theorem elapseTo_lastRead (s : State) (t : Nat) : (elapseTo s t).lastRead = s.lastRead := by
  simp only [elapseTo]; split <;> rfl
@[simp] theorem elapseTo_seqs (s : State) (t : Nat) : (elapseTo s t).seqs = s.seqs := by
  simp only [elapseTo]; split <;> rfl
@[simp] theorem elapseTo_tn (s : State) (t : Nat) : (elapseTo s t).tn = s.tn := by
  simp only [elapseTo]; split <;> rfl
@[simp] theorem elapseTo_ctxs (s : State) (t : Nat) : (elapseTo s t).ctxs = s.ctxs := by
  simp only [elapseTo]; split <;> rfl
@[simp] theorem elapseTo_az (s : State) (t : Nat) : (elapseTo s t).az = s.az := by
  simp only [elapseTo]; split <;> rfl
@[simp] theorem elapseTo_pres (s : State) (t : Nat) : (elapseTo s t).pres = s.pres := by
  simp only [elapseTo]; split <;> rfl
@[simp] theorem elapseTo_hf (s : State) (t : Nat) : (elapseTo s t).hf = s.hf := by
  simp only [elapseTo]; split <;> rfl
@[simp] theorem elapseTo_tag (s : State) (t : Nat) : (elapseTo s t).tag = s.tag := by
  simp only [elapseTo]; split <;> rfl
@[simp] theorem elapseTo_keys (s : State) (t : Nat) : (elapseTo s t).keys = s.keys := by
  simp only [elapseTo]; split <;> rfl
@[simp] theorem elapseTo_creds (s : State) (t : Nat) : (elapseTo s t).creds = s.creds := by
  simp only [elapseTo]; split <;> rfl
@[simp] theorem elapseTo_tamper (s : State) (t : Nat) : (elapseTo s t).tamper = s.tamper := by
  simp only [elapseTo]; split <;> rfl
@[simp] theorem elapseTo_gq (s : State) (t : Nat) : (elapseTo s t).gq = s.gq := by
  simp only [elapseTo]; split <;> rfl
@[simp] theorem elapseTo_ledger (s : State) (t : Nat) : (elapseTo s t).ledger = s.ledger := by
  simp only [elapseTo]; split <;> rfl
@[simp] theorem elapseTo_orr (s : State) (t : Nat) : (elapseTo s t).orr = s.orr := by
  simp only [elapseTo]; split <;> rfl
@[simp] theorem elapseTo_bar (s : State) (t : Nat) : (elapseTo s t).bar = s.bar := by
  simp only [elapseTo]; split <;> rfl
@[simp] theorem elapseTo_host (s : State) (t : Nat) : (elapseTo s t).host = s.host := by
  simp only [elapseTo]; split <;> rfl
@[simp] theorem elapseTo_ev (s : State) (t : Nat) : (elapseTo s t).ev = s.ev := by
  simp only [elapseTo]; split <;> rfl
@[simp] theorem elapseTo_clk (s : State) (t : Nat) : (elapseTo s t).clk = s.clk := by
  simp only [elapseTo]; split <;> rfl
@[simp] theorem elapseTo_pwr (s : State) (t : Nat) : (elapseTo s t).pwr = s.pwr := by
  simp only [elapseTo]; split <;> rfl
@[simp] theorem elapseTo_boot (s : State) (t : Nat) : (elapseTo s t).boot = s.boot := by
  simp only [elapseTo]; split <;> rfl
@[simp] theorem elapseTo_cmds (s : State) (t : Nat) : (elapseTo s t).cmds = s.cmds := by
  simp only [elapseTo]; split <;> rfl

@[simp] theorem elapseToClock_pending (s : State) (t : Nat) : (elapseToClock s t).pending = s.pending := by
  simp only [elapseToClock]; split <;> rfl
@[simp] theorem elapseToClock_freeCtr (s : State) (t : Nat) : (elapseToClock s t).freeCtr = s.freeCtr := by
  simp only [elapseToClock]; split <;> rfl
@[simp] theorem elapseToClock_lastRead (s : State) (t : Nat) : (elapseToClock s t).lastRead = s.lastRead := by
  simp only [elapseToClock]; split <;> rfl
@[simp] theorem elapseToClock_seqs (s : State) (t : Nat) : (elapseToClock s t).seqs = s.seqs := by
  simp only [elapseToClock]; split <;> rfl
@[simp] theorem elapseToClock_tn (s : State) (t : Nat) : (elapseToClock s t).tn = s.tn := by
  simp only [elapseToClock]; split <;> rfl
@[simp] theorem elapseToClock_ctxs (s : State) (t : Nat) : (elapseToClock s t).ctxs = s.ctxs := by
  simp only [elapseToClock]; split <;> rfl
@[simp] theorem elapseToClock_az (s : State) (t : Nat) : (elapseToClock s t).az = s.az := by
  simp only [elapseToClock]; split <;> rfl
@[simp] theorem elapseToClock_pres (s : State) (t : Nat) : (elapseToClock s t).pres = s.pres := by
  simp only [elapseToClock]; split <;> rfl
@[simp] theorem elapseToClock_hf (s : State) (t : Nat) : (elapseToClock s t).hf = s.hf := by
  simp only [elapseToClock]; split <;> rfl
@[simp] theorem elapseToClock_tag (s : State) (t : Nat) : (elapseToClock s t).tag = s.tag := by
  simp only [elapseToClock]; split <;> rfl
@[simp] theorem elapseToClock_keys (s : State) (t : Nat) : (elapseToClock s t).keys = s.keys := by
  simp only [elapseToClock]; split <;> rfl
@[simp] theorem elapseToClock_creds (s : State) (t : Nat) : (elapseToClock s t).creds = s.creds := by
  simp only [elapseToClock]; split <;> rfl
@[simp] theorem elapseToClock_tamper (s : State) (t : Nat) : (elapseToClock s t).tamper = s.tamper := by
  simp only [elapseToClock]; split <;> rfl
@[simp] theorem elapseToClock_gq (s : State) (t : Nat) : (elapseToClock s t).gq = s.gq := by
  simp only [elapseToClock]; split <;> rfl
@[simp] theorem elapseToClock_ledger (s : State) (t : Nat) : (elapseToClock s t).ledger = s.ledger := by
  simp only [elapseToClock]; split <;> rfl
@[simp] theorem elapseToClock_orr (s : State) (t : Nat) : (elapseToClock s t).orr = s.orr := by
  simp only [elapseToClock]; split <;> rfl
@[simp] theorem elapseToClock_bar (s : State) (t : Nat) : (elapseToClock s t).bar = s.bar := by
  simp only [elapseToClock]; split <;> rfl
@[simp] theorem elapseToClock_host (s : State) (t : Nat) : (elapseToClock s t).host = s.host := by
  simp only [elapseToClock]; split <;> rfl
@[simp] theorem elapseToClock_ev (s : State) (t : Nat) : (elapseToClock s t).ev = s.ev := by
  simp only [elapseToClock]; split <;> rfl
@[simp] theorem elapseToClock_clk (s : State) (t : Nat) : (elapseToClock s t).clk = s.clk := by
  simp only [elapseToClock]; split <;> rfl
@[simp] theorem elapseToClock_pwr (s : State) (t : Nat) : (elapseToClock s t).pwr = s.pwr := by
  simp only [elapseToClock]; split <;> rfl
@[simp] theorem elapseToClock_boot (s : State) (t : Nat) : (elapseToClock s t).boot = s.boot := by
  simp only [elapseToClock]; split <;> rfl
@[simp] theorem elapseToClock_cmds (s : State) (t : Nat) : (elapseToClock s t).cmds = s.cmds := by
  simp only [elapseToClock]; split <;> rfl

@[simp] theorem elapseToRtc_pending (s : State) (t : Nat) : (elapseToRtc s t).pending = s.pending := by
  simp only [elapseToRtc]; split <;> rfl
@[simp] theorem elapseToRtc_freeCtr (s : State) (t : Nat) : (elapseToRtc s t).freeCtr = s.freeCtr := by
  simp only [elapseToRtc]; split <;> rfl
@[simp] theorem elapseToRtc_lastRead (s : State) (t : Nat) : (elapseToRtc s t).lastRead = s.lastRead := by
  simp only [elapseToRtc]; split <;> rfl
@[simp] theorem elapseToRtc_seqs (s : State) (t : Nat) : (elapseToRtc s t).seqs = s.seqs := by
  simp only [elapseToRtc]; split <;> rfl
@[simp] theorem elapseToRtc_tn (s : State) (t : Nat) : (elapseToRtc s t).tn = s.tn := by
  simp only [elapseToRtc]; split <;> rfl
@[simp] theorem elapseToRtc_ctxs (s : State) (t : Nat) : (elapseToRtc s t).ctxs = s.ctxs := by
  simp only [elapseToRtc]; split <;> rfl
@[simp] theorem elapseToRtc_az (s : State) (t : Nat) : (elapseToRtc s t).az = s.az := by
  simp only [elapseToRtc]; split <;> rfl
@[simp] theorem elapseToRtc_pres (s : State) (t : Nat) : (elapseToRtc s t).pres = s.pres := by
  simp only [elapseToRtc]; split <;> rfl
@[simp] theorem elapseToRtc_hf (s : State) (t : Nat) : (elapseToRtc s t).hf = s.hf := by
  simp only [elapseToRtc]; split <;> rfl
@[simp] theorem elapseToRtc_tag (s : State) (t : Nat) : (elapseToRtc s t).tag = s.tag := by
  simp only [elapseToRtc]; split <;> rfl
@[simp] theorem elapseToRtc_keys (s : State) (t : Nat) : (elapseToRtc s t).keys = s.keys := by
  simp only [elapseToRtc]; split <;> rfl
@[simp] theorem elapseToRtc_creds (s : State) (t : Nat) : (elapseToRtc s t).creds = s.creds := by
  simp only [elapseToRtc]; split <;> rfl
@[simp] theorem elapseToRtc_tamper (s : State) (t : Nat) : (elapseToRtc s t).tamper = s.tamper := by
  simp only [elapseToRtc]; split <;> rfl
@[simp] theorem elapseToRtc_gq (s : State) (t : Nat) : (elapseToRtc s t).gq = s.gq := by
  simp only [elapseToRtc]; split <;> rfl
@[simp] theorem elapseToRtc_ledger (s : State) (t : Nat) : (elapseToRtc s t).ledger = s.ledger := by
  simp only [elapseToRtc]; split <;> rfl
@[simp] theorem elapseToRtc_orr (s : State) (t : Nat) : (elapseToRtc s t).orr = s.orr := by
  simp only [elapseToRtc]; split <;> rfl
@[simp] theorem elapseToRtc_bar (s : State) (t : Nat) : (elapseToRtc s t).bar = s.bar := by
  simp only [elapseToRtc]; split <;> rfl
@[simp] theorem elapseToRtc_host (s : State) (t : Nat) : (elapseToRtc s t).host = s.host := by
  simp only [elapseToRtc]; split <;> rfl
@[simp] theorem elapseToRtc_ev (s : State) (t : Nat) : (elapseToRtc s t).ev = s.ev := by
  simp only [elapseToRtc]; split <;> rfl
@[simp] theorem elapseToRtc_clk (s : State) (t : Nat) : (elapseToRtc s t).clk = s.clk := by
  simp only [elapseToRtc]; split <;> rfl
@[simp] theorem elapseToRtc_pwr (s : State) (t : Nat) : (elapseToRtc s t).pwr = s.pwr := by
  simp only [elapseToRtc]; split <;> rfl
@[simp] theorem elapseToRtc_boot (s : State) (t : Nat) : (elapseToRtc s t).boot = s.boot := by
  simp only [elapseToRtc]; split <;> rfl
@[simp] theorem elapseToRtc_cmds (s : State) (t : Nat) : (elapseToRtc s t).cmds = s.cmds := by
  simp only [elapseToRtc]; split <;> rfl

@[simp] theorem elapse_clock (s : State) (n : Nat) : (elapse s n).clock = s.clock + n := rfl

@[simp] theorem elapse_keepOtp (s : State) (n : Nat) : keepOtp s (elapse s n) = elapse s n := keepOtp_eq rfl rfl rfl rfl

@[simp] theorem withFetchWord_eq (s : State) (n w : Nat) : s.withFetchWord n w = s := rfl

end Sys2Proof.Machine
end

