-- ==== Sys2Proof/Laws/Store.lean ====
section
/-! SUPPORT. The pages of Or's NV: what a commit of a page leaves, and what an append to a ring leaves of the ring (R297 to R309). -/

namespace Sys2Proof.Machine

set_option Elab.async false

open Sys2Proof

/-- A copy whose COMMIT is not programmed is not valid. -/
@[simp] theorem copyValid_written (data : Bytes) (seq txn : W32) : copyValid (copyWritten data seq txn) = false := rfl

/-- A committed copy is valid. -/
@[simp] theorem copyValid_committed (data : Bytes) (seq txn : W32) :
    copyValid { copyWritten data seq txn with commit := commitWord } = true := by
  simp [copyValid, copyWritten]

/-- A commit that stops before its COMMIT leaves the page's current copy as it was (R300, R301). -/
theorem currentCopy_nvProgram (g : NvPage) (data : Bytes) (txn : W32) : currentCopy (nvProgram g data txn) = currentCopy g := by
  have h : ∀ b, currentBank g = some b → targetBank g = !b := by intro b hb; simp [targetBank, hb]
  unfold nvProgram
  simp only [currentCopy]
  unfold currentBank at h ⊢
  cases h0 : copyValid g.c0 <;> cases h1 : copyValid g.c1 <;> simp only [h0, h1, Option.some.injEq, reduceCtorEq, forall_eq'] at h <;>
    simp only [Option.map_none, Option.map_some]
  · simp [targetBank, currentBank, h0, h1, setCopy]
  · rw [h]; simp [setCopy, h1]
  · rw [h]; simp [setCopy, h0]
  · rw [h]
    generalize (decide (g.c0.seq.toNat < g.c1.seq.toNat) || (g.c0.seq == g.c1.seq && g.c0.fixed && !g.c1.fixed)) = b
    cases b <;> simp [setCopy, h0, h1]

/-- A completed commit makes the copy that it wrote the current one, below the last PAGE_SEQ (R298 to R300). -/
theorem currentCopy_nvCommit (g : NvPage) (data : Bytes) (txn : W32)
    (h : ∀ c, currentCopy g = some c → c.seq.toNat < 0xFFFFFFFF) :
    currentCopy (nvCommit g data txn) = some { copyWritten data (nextSeq g) txn with commit := commitWord } := by
  have hs : ∀ x : W32, x.toNat < 0xFFFFFFFF → (x + 1).toNat = x.toNat + 1 := by
    intro x hx; rw [BitVec.toNat_add]; simp; omega
  have hq : ∀ c, currentCopy g = some c → (nextSeq g).toNat = c.seq.toNat + 1 := by
    intro c hc; simp only [nextSeq, hc]; exact hs _ (h c hc)
  have hb : ∀ b, currentBank g = some b → targetBank g = (!b) ∧ currentCopy g = some (if b then g.c1 else g.c0) := by
    intro b hb; simp [targetBank, currentCopy, hb]
  have hn : currentBank g = none → targetBank g = false := by intro hb; simp [targetBank, hb]
  have hv : ∀ b, currentBank g = some b → copyValid (if b then g.c1 else g.c0) = true := by
    intro b hb
    unfold currentBank at hb
    cases h0 : copyValid g.c0 <;> cases h1 : copyValid g.c1 <;> simp only [h0, h1, Option.some.injEq, reduceCtorEq] at hb <;>
      (try subst hb) <;> simp [h0, h1]
    split <;> assumption
  have hz : currentBank g = none → copyValid g.c1 = false := by
    intro hb
    unfold currentBank at hb
    cases h0 : copyValid g.c0 <;> cases h1 : copyValid g.c1 <;> simp_all
  unfold nvCommit
  generalize hy : { copyWritten data (nextSeq g) txn with commit := commitWord } = y
  have y1 : copyValid y = true := by rw [← hy]; exact copyValid_committed ..
  have y2 : y.seq = nextSeq g := by rw [← hy]; rfl
  cases hc : currentBank g with
  | none => simp [hn hc, setCopy, currentCopy, currentBank, y1, hz hc]
  | some b =>
    obtain ⟨t1, t2⟩ := hb b hc
    have t3 := hv b hc
    have t4 := hq _ t2
    rw [← y2] at t4
    rw [t1]
    cases b
    · simp only [Bool.false_eq_true, if_false] at t3 t4
      have t5 : g.c0.seq.toNat < y.seq.toNat := by omega
      simp [setCopy, currentCopy, currentBank, y1, t3, t5]
    · simp only [if_true] at t3 t4
      have t5 : ¬ y.seq.toNat < g.c1.seq.toNat := by omega
      have t6 : (y.seq == g.c1.seq) = false := by
        simp only [beq_eq_false_iff_ne, ne_eq]; intro e; rw [e] at t4; omega
      simp [setCopy, currentCopy, currentBank, y1, t3, t5, t6]

/-- Whether a commit took place: with at most one failed read-back (R300). -/
theorem commitNv_ok (g : NvPage) (data : Bytes) (txn : W32) (k : Nat) (o : Store) : (commitNv g data txn k o).2.2 = decide (k < 2) := by
  unfold commitNv; split <;> simp [*]

/-- What a commit leaves: the new content current, or the page WORN with the old one (R300). -/
theorem commitNv_content (g : NvPage) (data : Bytes) (txn : W32) (k : Nat) (o : Store)
    (h : ∀ c, currentCopy g = some c → c.seq.toNat < 0xFFFFFFFF) :
    currentCopy (commitNv g data txn k o).1 = some { copyWritten data (nextSeq g) txn with commit := commitWord } ∨
    ((commitNv g data txn k o).1.worn = true ∧ currentCopy (commitNv g data txn k o).1 = currentCopy g) := by
  unfold commitNv
  split
  · exact .inl (currentCopy_nvCommit g data txn h)
  · exact .inr ⟨rfl, currentCopy_nvProgram g data txn⟩

/-- A table entry that another index changes stays. -/
theorem vgetN_vmodN_ne {α : Type} {n : Nat} (v : Vector α n) (f : α → α) (d : α) {i j : Nat} (h : j ≠ i) :
    vgetN (vmodN v i f) j d = vgetN v j d := by
  unfold vgetN vmodN vmod
  by_cases hj : j < n <;> by_cases hi : i < n <;> simp [hj, hi]
  rw [Vector.getElem_set_ne]
  exact fun e => h e.symm

/-- The entry that an index changes. -/
theorem vgetN_vmodN_eq {α : Type} {n : Nat} (v : Vector α n) (f : α → α) (d : α) {i : Nat} (h : i < n) :
    vgetN (vmodN v i f) i d = f (vgetN v i d) := by
  unfold vgetN vmodN vmod
  simp [h]

/-! ### Rings -/

/-- Every slot's SEQ is at most `n`. -/
def SeqBelow (n : Nat) (r : Ring) : Prop := ∀ x ∈ r.slots, x.seq.toNat ≤ n

/-- A slot programmed at the write point leaves the ring's SEQ, and the bound where its own SEQ is within it. -/
theorem ringPut_bound {g : RingGeo} {n : Nat} {r : Ring} {x : RingSlot} (h : SeqBelow n r) (hx : x.seq.toNat ≤ n) :
    (ringPut g r x).seq = r.seq ∧ SeqBelow n (ringPut g r x) := by
  refine ⟨rfl, fun y hy => ?_⟩
  simp only [ringPut, List.mem_append, List.mem_singleton] at hy
  rcases hy with hy | rfl
  · exact h y hy
  · exact hx

/-- Copies of slots within the bound. -/
theorem ringPut_foldl_bound {g : RingGeo} {n : Nat} (l : List RingSlot) : ∀ {r : Ring}, SeqBelow n r → (∀ y ∈ l, y.seq.toNat ≤ n) →
    (l.foldl (fun q y => ringPut g q (asCopy y)) r).seq = r.seq ∧ SeqBelow n (l.foldl (fun q y => ringPut g q (asCopy y)) r) := by
  induction l with
  | nil => intro r h _; exact ⟨rfl, h⟩
  | cons y ys ih =>
    intro r h hl
    simp only [List.foldl_cons]
    exact ih (ringPut_bound (x := asCopy y) h (hl y (List.mem_cons_self ..))).2 fun z hz => hl z (List.mem_cons_of_mem _ hz)

/-- Reclaim copies records with their SEQ (R307). -/
theorem reclaimCopy_bound {g : RingGeo} {n : Nat} {r : Ring} (h : SeqBelow n r) :
    (reclaimCopy g r).seq = r.seq ∧ SeqBelow n (reclaimCopy g r) := by
  unfold reclaimCopy
  split
  · exact ⟨rfl, h⟩
  · exact ringPut_foldl_bound _ h fun y hy => h y (List.mem_filter.1 hy).1

/-- An erase removes slots. -/
theorem reclaimErase_bound {g : RingGeo} {n : Nat} {r : Ring} (h : SeqBelow n r) :
    (reclaimErase g r).seq = r.seq ∧ SeqBelow n (reclaimErase g r) := by
  unfold reclaimErase
  split
  · exact ⟨rfl, h⟩
  · exact ⟨rfl, fun x hx => h x (List.mem_filter.1 hx).1⟩

/-- A reclaim writes no new SEQ. -/
theorem ringReclaim_bound {g : RingGeo} {n : Nat} {r : Ring} (h : SeqBelow n r) :
    (ringReclaim g r).seq = r.seq ∧ SeqBelow n (ringReclaim g r) := by
  unfold ringReclaim
  split
  · exact reclaimErase_bound h
  · have a := reclaimCopy_bound (g := g) h
    have b := reclaimErase_bound (g := g) a.2
    exact ⟨b.1.trans a.1, b.2⟩

/-- The reclaims that an append waits for write no new SEQ. -/
theorem ringRoom_bound {g : RingGeo} {n : Nat} (k : Nat) : ∀ {r : Ring}, SeqBelow n r →
    (ringRoom g k r).1.seq = r.seq ∧ SeqBelow n (ringRoom g k r).1 := by
  induction k with
  | zero => intro r h; exact ⟨rfl, h⟩
  | succ k ih =>
    intro r h
    unfold ringRoom
    split
    · have a := ringReclaim_bound (g := g) h
      have b := ih a.2
      exact ⟨b.1.trans a.1, b.2⟩
    · exact ⟨rfl, h⟩

/-- Slots that read back wrong are within the bound with their record. -/
theorem putFailed_bound {g : RingGeo} {n : Nat} {x : RingSlot} (hx : x.seq.toNat ≤ n) (k : Nat) : ∀ {r : Ring}, SeqBelow n r →
    (putFailed g x k r).seq = r.seq ∧ SeqBelow n (putFailed g x k r) := by
  induction k with
  | zero => intro r h; exact ⟨rfl, h⟩
  | succ k ih =>
    intro r h
    exact ih (ringPut_bound (x := { x with commit := 0 }) h hx).2

/-- A slot that read back wrong is not valid: no RID reads it. -/
theorem ringSlot_putFailed {g : RingGeo} {x : RingSlot} {rid : Nat} (k : Nat) : ∀ {r : Ring},
    ringSlot (putFailed g x k r) rid = ringSlot r rid := by
  induction k with
  | zero => intro r; rfl
  | succ k ih =>
    intro r
    refine ih.trans ?_
    have hv : ∀ a, slotValid { x with commit := 0, addr := a } = false := fun _ => rfl
    simp only [ringSlot, ringPut, List.filter_append, List.filter_cons, hv, Bool.and_false, Bool.false_eq_true, if_false,
      List.filter_nil, List.append_nil]

/-- A record as it is programmed is valid. -/
theorem slotValid_newSlot (g : RingGeo) (seq : W32) (rid : Nat) (payload : Bytes) (a : Nat) :
    slotValid { newSlot g seq rid payload with addr := a } = true := by
  have h : (newSlot g seq rid payload).crc = slotCrc (newSlot g seq rid payload) := rfl
  have h2 : slotCrc { newSlot g seq rid payload with addr := a } = slotCrc (newSlot g seq rid payload) := rfl
  simp only [slotValid, h2, ← h, BEq.rfl, Bool.and_true]
  rfl

/-- A valid slot put last with the highest SEQ is its RID's current record (R305). -/
theorem ringSlot_ringPut {g : RingGeo} {r : Ring} {x : RingSlot} {n : Nat} (h : SeqBelow n r) (hn : n ≤ x.seq.toNat)
    (hv : slotValid { x with addr := r.wp } = true) :
    ringSlot (ringPut g r x) x.rid.toNat = some { x with addr := r.wp } := by
  simp only [ringSlot, ringPut, List.filter_append, List.foldl_append]
  have hf : (fun y : RingSlot => y.rid.toNat == x.rid.toNat && slotValid y) { x with addr := r.wp } = true := by simp [hv]
  simp only [List.filter_cons, hf, List.filter_nil, if_true, List.foldl_cons, List.foldl_nil]
  have key : ∀ (m : List RingSlot) (acc : Option RingSlot), (∀ y ∈ m, y.seq.toNat ≤ n) → (∀ y, acc = some y → y.seq.toNat ≤ n) →
      ∀ z, m.foldl (fun acc x => match acc with
        | none => some x
        | some y => if y.seq.toNat ≤ x.seq.toNat then some x else some y) acc = some z → z.seq.toNat ≤ n := by
    intro m
    induction m with
    | nil => intro acc _ ha z hz; exact ha z hz
    | cons e es ih =>
      intro acc hm ha z hz
      refine ih _ (fun y hy => hm y (List.mem_cons_of_mem _ hy)) ?_ z hz
      intro y hy
      dsimp only at hy
      split at hy
      · cases hy; exact hm _ (List.mem_cons_self ..)
      · split at hy
        · cases hy; exact hm _ (List.mem_cons_self ..)
        · cases hy; exact ha _ rfl
  split
  · rfl
  · rename_i z hz
    have hz2 := key _ _ (fun y hy => h y (List.mem_filter.1 hy).1) (by simp) z hz
    rw [if_pos (by omega)]

/-- A slot of another RID changes no record. -/
theorem ringSlot_ringPut_ne {g : RingGeo} {r : Ring} {x : RingSlot} {rid : Nat} (h : x.rid.toNat ≠ rid) :
    ringSlot (ringPut g r x) rid = ringSlot r rid := by
  simp [ringSlot, ringPut, List.filter_append, h]

end Sys2Proof.Machine
end

