-- ==== Sys2Proof/Tests/Support.lean ====
section
/-! SUPPORT. Small states from which the tests and the witnesses start. -/

namespace Sys2Proof.Tests

set_option Elab.async false

open Sys2Proof Sys2Proof.Machine

/-- Reset with the timebase running. -/
def sRun : State := { State.reset with cel := { tbRun := true } }

/-- Entry 3 of the launch table, the timebase running. -/
def sEntry (e : LaunchEntry) : State := { sRun with cel := { sRun.cel with entries := vset sRun.cel.entries 3 e } }

/-- A program that Vert runs for entry 3. -/
def sProg : State := { sEntry { count := 1, state := .running, action := 1 } with seqs := { vert := { entry := some 3 } } }

/-- A burst that counts: sixteen periods at amplitude 63, alone. -/
def bWit : LfBurst := { amp := 63, measurable := true, coherent := false, atNominal := true }

/-- The words of a program loaded at the start of an engine's program memory. -/
def putProg (s : State) (e : SeqId) (ws : List Nat) : State :=
  let m := memWriteBytes [] 0 (ws.flatMap (leBytes 2))
  match e with
  | .vert => { s with vert := { s.vert with prog := m } }
  | .azure => { s with az := { s.az with prog := m } }
  | .tenne => { s with tn := { s.tn with prog := m } }

/-- A program of the given words that an engine runs for entry 3. -/
def sWords (e : SeqId) (ws : List Nat) : State :=
  setSeq (putProg { sEntry { count := 1, state := .running, action := 1 } with az := { svc := 0x3F, pop := 0x3F } } e ws) e
    { entry := some 3 }

/-- A RELEASE firing posted to Gules's port, the island ready. -/
def sPosted : State :=
  let s := sEntry { count := 1, state := .posted, due := 1000, island := 3, action := 4 }
  { s with
    cel := { s.cel with ports := vmodN s.cel.ports 3 fun _ => [3] }
    clk := { s.clk with ready := 127, gate := 4095 } }

/-- A program that Tenné runs, and one that Azure runs. -/
def sTn : State := setSeq sRun .tenne { entry := some 3 }
def sAz : State := setSeq { sRun with az := { svc := 0x3F, pop := 0x3F } } .azure { entry := some 3 }


/-- Legal words for a job of each operation, on the slots of `sKeys`. -/
def wBase : JobWords :=
  { tag := 5, hold := false, prio := false, slot := 200, slot2 := 192, dataLen := 16, adLen := 0, mode := 0, dst := 0, area := 0,
    src := false, aux := 5 }

def wJob (op : JobOp) : JobWords :=
  match op with
  | .cmacVerify => { wBase with mode := 4 }
  | .aqmosAlias => { wBase with slot := 5 }
  | .aqmosVerify => { wBase with slot := 5 }
  | .stsDerive => { wBase with slot := 5, dst := 3 }
  | .nonce => { wBase with aux := 0 }
  | .ecdh => { wBase with aux := 192, slot2 := 201 }
  | .verdict => { wBase with prio := true }
  | _ => wBase

/-- A provisioned device with a key of every usage in slots 5 and 200, a peer's public key in slot 201 and context 5 enrolled. -/
def sKeys : State :=
  { sRun with
    keys := { lcProv := true
              slots := [5, 200, 201].foldl (fun v n => vmodN v n fun _ => { type := if n = 201 then .p256pub else .aes128, usage := if n = 5 then 0xFF else 0x7F, state := .valid, key := some [] }) ({} : KeyStore).slots }
    ctxs := vset sRun.ctxs 5 { valid := true } }

def jReady : Job :=
  { op := .hash, w := { wBase with tag := 5 }, order := 0, gen := 0, privileged := false, deep := true, phase := .ready }

/-- A job at tag 5. -/
def sJob (j : Job) : State := { sRun with gq := { jobs := vset ({} : Gules).jobs 5 (some j) } }

/-- The yard tag in a field, in a state of its inventory. -/
def sTag (x : TagState) : State := { sRun with tag := { powered := true, supplied := true, st := x } }

/-- The link up in Chalk, start-up passed. -/
def sUp : State :=
  { sRun with
    pwr := { pstate := .chalk }
    boot := { sRun.boot with step := 16 }
    bar := { link := .up } }

/-- The next short frame of a lane on the wire, its check correct under epoch 0. -/
def sNoSync (toHost : Bool) (kind : Fin 8) (x : BitVec 17) : State :=
  { sUp with
    bar := setPrio sUp.bar toHost { frames := [{ kind := kind, seq := false, payload := x, check := shortCheck 0 kind.val false x }] }
    host := { vs := { valid := true, standstill := true } } }

def sArrive (toHost : Bool) (kind : Fin 8) (x : BitVec 17) : State :=
  let s := sNoSync toHost kind x
  { s with bar := { s.bar with hostEnd := { synced := true }, fieldEnd := { synced := true } } }

/-- The high half of an epoch arrives at Argent after its low half. -/
def sEpoch (lo : W16) : State :=
  let s := sNoSync true 4 0x10005
  { s with bar := { s.bar with hostEnd := { rxLo := some lo } } }

/-- One bulk frame in a lane. -/
def sBulk (toHost : Bool) (f : BulkFrame) : State :=
  { sUp with bar := setBulk sUp.bar toHost { bulkLane sUp.bar toHost with frames := [f] } }

def sRcd : State :=
  let s := sBulk false { type := .rcdResolve, seq := 0, tag := 0, addr := 15, data := [] }
  { s with bar := { s.bar with rcd := [⟨0, 0x010020, 3, 0⟩] } }

/-- A frame of Argent that the field die has taken, and one whose copies differed. -/
def sAcked : State := { sUp with bar := { sUp.bar with toField := { frames := [⟨3, false, 5, 0, true, 0, none, false⟩] } } }
def sNaked : State := { sUp with bar := { sUp.bar with toField := { frames := [⟨3, false, 5, 0, true, 0, none, true⟩] } } }

/-- A command record in slot 0, and it alone in the queue. -/
def cmdRec (b : Bytes) : CmdRec := { slot := 0, bytes := b }
def sCmd (s : State) (b : Bytes) : State := { s with cmds := { s.cmds with queue := [cmdRec b] } }

/-- The image of slot A runs: a blank, a provisioned, a fielded device and one in servicing. -/
def sBlank : State := { sUp with boot := { sUp.boot with running := .slotA } }
def sProvd : State := { sBlank with keys := { lcProv := true } }
def sField : State := { sBlank with keys := { lcProv := true, lcField := true } }
/-- A challenge is outstanding, and slot 172 holds a key. -/
def sChal : State :=
  { sProvd with
    creds := { chal := some (zeros 16, 5) }
    keys := { sProvd.keys with slots := vset sProvd.keys.slots 172 { type := .p256pub, usage := 0x20, state := .valid, key := some [1] } } }
/-- A bundle's and the tag's keys are in slots 167 to 169. -/
def sTagKeys : State :=
  { sProvd with keys := { sProvd.keys with slots := [167, 168, 169].foldl (fun v n => vmodN v n fun k => { k with state := .valid }) sProvd.keys.slots } }
/-- Native partition 2 of three pages, without passwords. -/
def qPart : NativePart := { first := 150, pages := 3, readPw := none, writePw := none }
def sPart : State := setPart sBlank 2 (some qPart)
/-- Area 1 open, and open and complete; a verified bundle in area 2 and a verified image in area 0. -/
def sStage : State := { sBlank with cmds := { area1 := { opened := true, total := 200 } } }
def sStaged : State := { sBlank with cmds := { area1 := { opened := true, total := 200, received := 200 } } }
def sBundle : State := { sBlank with cmds := { area2 := { opened := true, verified := true } } }
def sImage : State := { sBlank with cmds := { area0 := { opened := true, verified := true } } }

/-- The image of slot B runs on trial. -/
def sTrial : State := { sBlank with boot := { sBlank.boot with running := .slotB, record := { trialSlot := some 1, stateB := .trial } } }

/-- Context 5 is tracked; a long command is under way; an event waits. -/
def sTrack : State := { sProvd with pres := { tracked := [{ ctx := 5, placement := {}, lastExchange := 0 }] } }
/-- As `sTrack`, with a key of the AQMOS use in slot 5. -/
def sProbe : State :=
  { sTrack with keys := { sTrack.keys with slots := vmodN sTrack.keys.slots 5 fun k => { k with state := .valid, usage := 0x80 } } }
def sLong (w : LongWork) : State :=
  { sBlank with cmds := { longs := [{ slot := 0, opcode := 0, ctag := 0, res := .none, work := w }] } }
def sEvent : Event := { code := 1, body := [] }
def sServ : State := { sBlank with keys := { lcProv := true, lcField := true, servicing := some { endAt := 100, mac := [] } } }

/-- A page whose copy 0 is valid and holds the bytes. -/
def nvHolds (d : Bytes) : NvPage := { c0 := { data := d, seq := 1, txn := 0, crc := copyCrc d 1 0, commit := commitWord } }

/-- A ring with a slot in every page. -/
def fullRing (g : RingGeo) : Ring :=
  { slots := (List.range g.pages).map fun p => { addr := g.spp * p, seq := 0, rid := 1, len := 0, copy := false, payload := [], crc := 0 } }
def fullCtr : State := { sBlank with orr := { sBlank.orr with ringCtr := fullRing geoCtr } }
def fullSec : State := { sBlank with orr := { sBlank.orr with ringSec := fullRing geoSec } }
def fullJournal : State := { sBlank with orr := { sBlank.orr with journal := fullRing geoJournal } }

def entryWit : EntrySession := { id := 1, doors := 1, deadline := 9, ctx := 5 }
def startWit : StartSession := { id := 1, ctx := 5, deadline := 9 }

/-- Context 5 is tracked and the passive path may run. -/
def sPassive : State := { sTrack with cmds := { bundle := some ⟨0, [], [(1, [0, 0, 0, 0, 1])]⟩ } }

/-- Context 5 holds a K_HF, and an H-Auth has been sent. -/
def hfProofState : State :=
  { sProvd with
    hf := { field := true, phase := .authSent }
    ctxs := vset sProvd.ctxs 5 { valid := true }
    keys := { sProvd.keys with slots := vmodN sProvd.keys.slots 21 fun k => { k with state := .valid } } }

/-- A job that ends orphaned; a tripped touch channel; sweeps may run; one UWB pair. -/
def jOrphan : Job := { jReady with phase := .running, orphaned := true }
def jSeg : Job := { jReady with op := .aeadOpen, w := { jReady.w with dst := 1 }, phase := .running }
def sTouch : State :=
  { sBlank with pwr := { sBlank.pwr with touch := vmod sBlank.pwr.touch 1 fun x => { x with en := true, tripped := true } } }
def sSweep : State := sBlank
def sPair : State := { sBlank with cmds := { bundle := some ⟨0, [], [(5, zeros 120 ++ [0, 1] ++ zeros 70)]⟩ } }

/-- Who signs a PROVISION. -/
theorem provisionSigner {u : State} (h : lcOf u = .blank) : credSigner u .provision = some Config.torvernKey := by
  simp [credSigner, h]

end Sys2Proof.Tests
end

