-- ==== Sys2Proof/WellFormed.lean ====
section
/-! DEFINITION. Operands that the world outside can deliver: lengths that the air and the links bound. No meaning checks
them. -/

namespace Sys2Proof

/-- Whether a command's operands lie within what its link can carry: a UHF frame has at most 216 bits (R121), a REPORT 16
octets (R134), a Select mask 255 bits (R216), the HF receive buffer 64 bytes (R228), a record of the last 32 bytes counts of
a legacy write however long it is (R319). DESIGN CHOICE, log 8. -/
def Instr.wellFormed : Instr → Bool
  | .tnRxFrameEnd _ _ _ _ _ _ _ payload => decide (payload.length ≤ 27)
  | .azRxFrameEnd _ _ _ _ _ _ _ _ _ _ payload => decide (payload.length ≤ 18)
  | .tagSelect _ _ _ _ mask _ => decide (mask.length ≤ 255)
  | .hfGoDone _ data _ _ => decide (data.length ≤ 64)
  | _ => true

end Sys2Proof
end

