-- ==== Sys2Proof/Tests/Slice0.lean ====
section
/-! SUPPORT. Tests: an ill-formed command for each check of WellFormed, the specification's worked examples, and one step on small
states. Every expected value is the specification's, or is worked out by hand from its rules. -/

namespace Sys2Proof.Tests

set_option Elab.async false

open Sys2Proof Sys2Proof.Machine

/-! ### WellFormed refuses what no link can carry -/

theorem test_wf_uhf_payload : Instr.wellFormed (.tnRxFrameEnd true 0 0 0 [] 0 0 (zeros 28)) = false := by decide
theorem test_wf_uhf_payload_limit : Instr.wellFormed (.tnRxFrameEnd true 0 0 0 [] 0 0 (zeros 27)) = true := by decide
theorem test_wf_report : Instr.wellFormed (.azRxFrameEnd true true true false 0 0 0 0 0 0 (zeros 19)) = false := by decide
theorem test_wf_select_mask : Instr.wellFormed (.tagSelect 4 0 1 0 (List.replicate 256 true) false) = false := by decide +kernel
theorem test_wf_hf_buffer : Instr.wellFormed (.hfGoDone 1 (zeros 65) 0 0) = false := by decide +kernel

/-! ### Worked examples -/

/-- 04, Hail and Prove on the air: VID 0x3A58, HAIL, N_H 0x9C are sent as 0x1D, 0x2C, 0x33, 0x94. -/
theorem test_hail_frame : beBytes 4 (hailBits 0x3A58 false 0x9C) = [0x1D, 0x2C, 0x33, 0x94] := by decide +kernel

/-- The same example: ALIAS 0x6E with BL 0 has P 1. -/
theorem test_hail_parity : hailParityOk [0x6E, 0x01] = true ∧ hailParityOk [0x6E, 0x00] = false := by decide +kernel

/-- The same example: axis byte 0xA4 is 102.0 dBµA/m, 0x7C is 82.0. -/
theorem test_axis_level : levelOf 0xA4 = 102000 ∧ levelOf 0x7C = 82000 := by decide +kernel

/-- 06, the worked Weigh: the axis bytes 0xA4, 0x7C and 0x91 give M_A 102.5 dBµA/m. -/
theorem test_magnitude : (tintMagnitude [0xA4, 0x7C, 0x91] + 50) / 100 = 1025 := by decide +kernel

/-- The slot program of entry 1. -/
def hailProgram : List Nat :=
  [0x1000, 0x20C8, 0x3000, 0x503F, 0xF108, 0x9D80, 0xE000, 0x4B00, 0x501E, 0x6080, 0x0A00, 0x7C80, 0xF300, 0xE005, 0x3700, 0x4000, 0]

/-- 04: the slot program passes R53 and R122; without its HALT it does not, nor with a stride of 39,800 ticks. -/
theorem test_tenne_program : tenneProgOk false (fun _ => 63) 0 hailProgram = true := by decide +kernel
theorem test_tenne_program_no_halt : tenneProgOk false (fun _ => 63) 0 (hailProgram.take 16) = false := by decide +kernel
theorem test_tenne_program_short_stride : tenneProgOk false (fun _ => 63) 0 (hailProgram.set 5 0x9B78) = false := by decide +kernel

/-- 03: the challenge program with LF0, LF2 and LF6 populated; refused where LF6 is not. -/
def tintProgram : List Nat :=
  [0x5000, 0xC350, 0x1000, 0x1402, 0x1806, 0x203F, 0x243F, 0x283F, 0x3000, 0x3455, 0x38AB, 0x6001, 0xE000, 0x4B00, 0x8120, 0x0000,
   0xE002, 0xB5C0, 0x6007, 0xE002, 0xBD40, 0x9E0F, 0xE003, 0x1380, 0x7007, 0x34AB, 0x3855, 0xE003, 0x2640, 0x6007, 0xE003, 0x2DC0,
   0x9E1F, 0xE003, 0x8400, 0x7007, 0]

theorem test_vert_program : vertProgOk 0x45 0 tintProgram = true := by decide +kernel
theorem test_vert_program_unpopulated : vertProgOk 0x05 0 tintProgram = false := by decide +kernel

/-- 05: the exchange of entry 11 on AZ_PHY[0] at its reset values. -/
def twrProgram : List Nat :=
  [0x1000, 0x20C8, 0x5000, 0xE000, 0x3FC0, 0x7000, 0x0B40, 0x6000, 0x3010, 0xE000, 0x7A80, 0x8101, 0x0F00, 0x4000, 0x3020, 0xE000,
   0xB680, 0x8303, 0x0F00, 0xE000, 0xD980, 0x4000, 0]

/-- Ports P0 to P2 populated, P0 the transmit port. -/
def twrTables : AzureTables := { pop := 7, txAllowed := 1, phy := fun _ => {}, txOk := true }

theorem test_azure_program : azureProgOk twrTables 0 twrProgram = true := by decide +kernel
theorem test_azure_program_no_tx : azureProgOk { twrTables with txOk := false } 0 twrProgram = false := by decide +kernel

/-- The timestamps of that exchange: POLL 31,948,800, RESP 57,507,833 with CFO +3,070, D_B1 25,559,104. -/
def twrRecords : Bytes :=
  padTo 12 (leBytes 5 31948800) ++ (leBytes 5 57507833 ++ [1, 212, 0] ++ leBytes 2 3414 ++ leBytes 2 3070) ++ zeros 24 ++
    [0xA3, 3] ++ beBytes 4 25559104 ++ zeros 10

/-- 05: the range of that exchange is 552.48 mm. -/
theorem test_range : (rangeUm (tofOf twrRecords false) + 5) / 10 = 55248 := by decide +kernel

/-- 14, a start request: the response with STATUS PENDING and RLEN 0. -/
theorem test_response_payload : rspPayload 0x0203 0x0041 .pending [] = [3, 2, 0x41, 0, 1, 0, 0, 0] := by decide +kernel

/-- 13, a snapshot read: 32 bytes from 0x01_0028 are cut to 24 at the 64-byte boundary. -/
theorem test_bridge_cut : bridgeCut 0x010028 32 = 24 := by decide +kernel

/-! ### One step -/

/-- R31: eight RTC periods with Celeste's clock stopped advance the count by 9,375 ticks. -/
theorem test_timebase_restart :
    (tbRestart { State.reset with clk := { gate := 0x400 }, cel := { timebase := 100, heldPeriods := 8 } } .xo).cel.timebase = 9475 := by decide +kernel

/-- R31: one period advances it by 1,172, the ceiling of 1,171.875. -/
theorem test_timebase_restart_ceil :
    (tbRestart { State.reset with clk := { gate := 0x400 }, cel := { heldPeriods := 1 } } .xo).cel.timebase = 1172 := by decide +kernel

/-- The part of the state that a command leaves. -/
def after {α : Type} (c : Instr) (s : State) (f : State → α) : Option α := match exec c s with
  | .next t => some (f t)
  | _ => none

/-- R61: a read of CEL_TB_LO delivers the low word and latches the high one. -/
theorem test_tb_lo_read :
    after .celTbLoRead { State.reset with cel := { timebase := 0x5_0000_0102 } } (fun t => (t.lastRead, t.cel.tbHiLatch)) =
      some ([2, 1, 0, 0], 5) := by decide +kernel

/-- R52: a WAIT_TB 5 ticks after T_L, reached at tick 1,000, ends the program with LAUNCH_LATE (0x0030 of R13). -/
theorem test_wait_tb_late :
    after (.waitTb .vert 5) { sWords .vert [0xE000, 5] with cel := { sProg.cel with timebase := 1000 } }
      (fun t => (t.cel.completions.map (·.status), (seqOf t .vert).entry)) = some ([statusCode .launchLate], none) := by
  decide +kernel

/-- R320: WREN sets WEL. -/
theorem test_wren : after .wren sBlank (fun t => t.orr.wel) = some true := by decide +kernel

/-- A queue of two commands: a step serves the first and leaves the second. -/
theorem test_step_queue : (match step { sBlank with pending := [.wren, .wrdi] } with
    | .next t => (t.orr.wel, t.pending)
    | _ => (false, [])) = (true, [.wrdi]) := by decide +kernel

end Sys2Proof.Tests
end

