-- ==== Sys2Proof/Tests/Slice0Wit.lean ====
section
/-! SUPPORT. States and operands that meet the hypotheses of every statement, one witness for each clause that has any. -/

namespace Sys2Proof.Tests

set_option Elab.async false

open Sys2Proof Sys2Proof.Machine

theorem wit_LaunchTableCommands :
    (∃ (n : Fin 128) (s : State), (cmdDone s = true) ∧ (entryActive (entryOf s n) = false) ∧ ((entryOf s n).count ≠ 0) ∧ (entryRangeBad s n (entryOf s n) = false) ∧ (s.boot.noBundle = false) ∧ ((s.clk.fallback && (entryOf s n).island.toNat == 1) = false) ∧ (startRefused s (entryOf s n) = false) ∧ ((!(entryOf s n).trig && decide (tickOf (entryOf s n) < now s + 128) && !(entryOf s n).lateOk) = false)) ∧
    (∃ (n : Fin 128) (s : State), (cmdDone s = true) ∧ (entryActive (entryOf s n) = false) ∧ ((entryOf s n).count = 0)) ∧
    (∃ (s : State), (cmdDone s = false)) ∧
    (∃ (n : Fin 128) (s : State), (cmdDone s = true) ∧ ((entryOf s n).state = .armed ∨ ((entryOf s n).state = .posted ∧ firesNow s n = false))) ∧
    (∃ (n : Fin 128) (s : State), (cmdDone s = true) ∧ ((entryOf s n).state = .running)) ∧
    (∃ (n : Fin 128) (q : SeqId) (s : State), (cmdDone s = true) ∧ ((entryOf s n).state = .running) ∧ (runsOn s n = some q)) ∧
    (∃ (n : Fin 128) (s : State), (cmdDone s = true) ∧ ((entryOf s n).state = .armed) ∧ (runsOn (cancelOrphans (retract s n) n) n = none)) ∧
    (∃ (s : State), (cmdDone s = true)) :=
  ⟨⟨3, sEntry { count := 1, tickLo := 1000, island := 3, action := 4 }, by decide +kernel⟩,
   ⟨3, State.reset, by decide +kernel⟩,
   ⟨{ State.reset with cel := { cmdDoneAt := 5 } }, by decide +kernel⟩,
   ⟨3, sEntry { count := 1, state := .armed }, by decide +kernel⟩,
   ⟨3, sEntry { count := 1, state := .running }, by decide +kernel⟩,
   ⟨3, .vert, sProg, by decide +kernel⟩,
   ⟨3, sEntry { count := 1, state := .armed }, by decide +kernel⟩,
   ⟨State.reset, by decide +kernel⟩⟩

theorem wit_LaunchPortCommands :
    (∃ (n : Fin 128) (t : State) (s : State), (postable (entryOf s n) = true) ∧ (t = elapseTo s ((entryOf s n).due - 4096)) ∧ ((entryOf t n).island.toNat < 5) ∧ ((vgetN t.cel.ports (entryOf t n).island.toNat []).length < 4) ∧ (earlierDue t n (entryOf t n) = false) ∧ ((entryOf t n).due ≤ now t + 4096)) ∧
    (∃ (island : Island) (n : Fin 128) (t : State) (s : State), (nextFiring s (islandIx island) = some n) ∧ (t = elapseTo s (fireAt (entryOf s n))) ∧ (fireAt (entryOf s n) ≤ now t) ∧ (((entryOf t n).late || !islandReady t (entryOf t n).island.toNat ||
        ((entryOf t n).action.toNat == 1 && islandBusy t (entryOf t n).island.toNat) ||
        ((entryOf t n).island.toNat == 2 && decide (t.tn.utx.phase = .sending))) = false) ∧ (firingBusy t (entryOf t n) = false) ∧ (((entryOf t n).tx && !synthReady t (entryOf t n).island.toNat) = false) ∧ (firingGranted t (entryOf t n) = true)) ∧
    (∃ (c : Completion) (cs : List Completion) (s : State), (s.cel.completions = c :: cs)) ∧
    (∃ (bankS : Bool) (groups : BitVec 7) (s : State), ((snapOf s bankS).busy = false) ∧ (groups ≠ 0)) ∧
    (∃ (bankS : Bool) (group : Fin 7) (t : State) (s : State), ((snapOf s bankS).busy = true) ∧ (bitAt (snapOf s bankS).pend.toNat group.val = true) ∧ (t = elapseTo s (snapOf s bankS).pendTs)) :=
  ⟨⟨3, _, sEntry { count := 1, state := .armed, due := 1000, island := 3, action := 4 }, by decide +kernel, rfl, by decide +kernel⟩,
   ⟨.gules, 3, _, sPosted, by decide +kernel, rfl, by decide +kernel⟩,
   ⟨⟨3, 0, 5, 4⟩, [], { State.reset with cel := { completions := [⟨3, 0, 5, 4⟩] } }, by decide +kernel⟩,
   ⟨true, 5, State.reset, by decide +kernel⟩,
   ⟨true, 2, _, { State.reset with cel := { snapS := { busy := true, pendTs := 16, pend := 4 } } }, by decide +kernel, by decide +kernel, rfl⟩⟩

theorem wit_SequencerInstructions :
    (∃ (e : SeqId) (u : State) (s : State), (u = settleSeq s e) ∧ (seqAt u e .halt 1 = true)) ∧
    (∃ (e : SeqId) (u : State) (s : State), (u = settleSeq s e) ∧ (seqAt u e .nop 1 = true)) ∧
    (∃ (e : SeqId) (off : BitVec 28) (u : State) (s : State), (u = settleSeq s e) ∧ (seqAt u e (.waitTb off.toNat) 2 = true) ∧ (now u ≤ waitTick (seqOf u e) off.toNat)) ∧
    (∃ (e : SeqId) (off : BitVec 28) (u : State) (s : State), (u = settleSeq s e) ∧ (seqAt u e (.waitTb off.toNat) 2 = true) ∧ (waitTick (seqOf u e) off.toNat < now u)) ∧
    (∃ (e : SeqId) (n : Fin 128) (t : Nat) (u : State) (s : State), ((seqOf s e).entry = some n) ∧ ((seqOf s e).wait = .tb t) ∧ (u = elapseTo s t) ∧ (t ≤ now u)) ∧
    (∃ (e : SeqId) (n : Byte) (stride : W16) (x64 : Bool) (u : State) (s : State), (u = settleSeq s e) ∧ (seqAt u e (.loopStart n.toNat (if x64 then 64 * stride.toNat else stride.toNat)) 2 = true)) ∧
    (∃ (e : SeqId) (f : LoopFrame) (fs : List LoopFrame) (u : State) (s : State), (u = settleSeq s e) ∧ (seqAt u e .loopEnd 1 = true) ∧ ((seqOf u e).loops = f :: fs) ∧ (f.i + 1 < f.reps)) ∧
    (∃ (e : SeqId) (f : LoopFrame) (fs : List LoopFrame) (u : State) (s : State), (u = settleSeq s e) ∧ (seqAt u e .loopEnd 1 = true) ∧ ((seqOf u e).loops = f :: fs) ∧ (f.reps ≤ f.i + 1)) :=
  ⟨⟨.vert, _, sWords .vert [0], rfl, by decide +kernel⟩,
   ⟨.vert, _, sWords .vert [1], rfl, by decide +kernel⟩,
   ⟨.vert, 100, _, sWords .vert [0xE000, 100], rfl, by decide +kernel⟩,
   ⟨.vert, 100, _, { sWords .vert [0xE000, 100] with cel := { sProg.cel with timebase := 500 } }, rfl, by decide +kernel⟩,
   ⟨.vert, 3, 700, _, setSeq sProg .vert { entry := some 3, wait := .tb 700 }, by decide +kernel, by decide +kernel, rfl, by decide +kernel⟩,
   ⟨.azure, 5, 7, true, _, sWords .azure [0xF205, 7], rfl, by decide +kernel⟩,
   ⟨.tenne, ⟨3, 0, 5, 7⟩, [], _, setSeq (sWords .tenne [0xF300]) .tenne { entry := some 3, loops := [⟨3, 0, 5, 7⟩] }, rfl, by decide +kernel⟩,
   ⟨.tenne, ⟨3, 2, 5, 7⟩, [], _, setSeq (sWords .tenne [0xF300]) .tenne { entry := some 3, loops := [⟨3, 2, 5, 7⟩] }, rfl, by decide +kernel⟩⟩

theorem wit_VertInstructions :
    (∃ (slot : Fin 3) (ch : Option (Fin 12)) (u : State) (t : State) (s : State), (u = settleSeq s .vert) ∧ (seqAt u .vert (.sel slot.val (ch.map (·.val))) 1 = true) ∧ (t = seqPast (elapse u 1) .vert 1 .ready)) ∧
    (∃ (slot : Fin 3) (amp : BitVec 6) (u : State) (s : State), (u = settleSeq s .vert) ∧ (seqAt u .vert (.setAmp slot.val amp.toNat) 1 = true)) ∧
    (∃ (slot : Fin 3) (ph : Byte) (u : State) (s : State), (u = settleSeq s .vert) ∧ (seqAt u .vert (.setPh slot.val ph.toNat) 1 = true)) ∧
    (∃ (slot : Fin 3) (add : Bool) (b : Fin 32) (u : State) (s : State), (u = settleSeq s .vert) ∧ (seqAt u .vert (.setPhBuf slot.val add b.val) 1 = true)) ∧
    (∃ (trim : Bool) (freq : W16) (u : State) (t : State) (s : State), (u = settleSeq s .vert) ∧ (seqAt u .vert (.setFreq trim freq.toNat) 2 = true) ∧ (t = seqPast (elapse u 2) .vert 2 .ready)) ∧
    (∃ (mask : BitVec 3) (u : State) (t : State) (s : State), (u = settleSeq s .vert) ∧ (seqAt u .vert (.driveOn mask.toNat) 1 = true) ∧ (t = seqPast (elapse u 1) .vert 1 .ready)) ∧
    (∃ (mask : BitVec 3) (u : State) (t : State) (s : State), (u = settleSeq s .vert) ∧ (seqAt u .vert (.driveOff mask.toNat) 1 = true) ∧ (t = cutMask (seqPast (elapse u 1) .vert 1 .ready) mask.toNat)) ∧
    (∃ (mask : BitVec 3) (n : Byte) (b : Byte) (u : State) (sd : LfSend) (s : State), (u = settleSeq s .vert) ∧ (seqAt u .vert (.send mask.toNat n.toNat b.toNat) 2 = true) ∧ (sd = { mask := mask, n := n.toNat, first := b.toNat, wt := u.vert.lastTb })) ∧
    (∃ (sd : LfSend) (t : State) (s : State), (s.vert.send = some sd) ∧ (t = elapseTo s (sd.wt + 4800 * sd.n)) ∧ (sd.wt + 4800 * sd.n ≤ now t)) ∧
    (∃ (mask : BitVec 3) (rcd : Fin 16) (periods : BitVec 4) (u : State) (t : State) (last : Nat) (x : LfWindow) (s : State), (u = settleSeq s .vert) ∧ (seqAt u .vert (.measure mask.toNat rcd.val periods.toNat) 1 = true) ∧ (t = seqPast (elapse u 1) .vert 1 .ready) ∧ (last = (windowEdges t.vert mask.toNat (now t) periods.toNat).foldl Nat.max (now t)) ∧ (x = { mask := mask, rcd := rcd, slots := t.vert.slot, uncomp := decide (t.vert.freq ≠ t.vert.nomFreq), periods := periods.toNat, start := (windowEdges t.vert mask.toNat (now t) 0).foldl Nat.min last, stop := last })) ∧
    (∃ (rcd : Fin 16) (i0 : BitVec 12) (i1 : BitVec 12) (i2 : BitVec 12) (p0 : Byte) (p1 : Byte) (p2 : Byte) (x : LfWindow) (t : State) (v : Vert) (s : State), (s.vert.windows.find? (fun x => x.rcd = rcd) = some x) ∧ (t = elapseTo s x.stop) ∧ (x.stop ≤ now t) ∧ (v = writeRes t.vert x (fun i => if i.val = 0 then (i0, p0) else if i.val = 1 then (i1, p1) else (i2, p2)) false)) :=
  ⟨⟨1, some 4, _, _, sWords .vert [0x1404], rfl, by decide +kernel, rfl⟩,
   ⟨1, 5, _, sWords .vert [0x2405], rfl, by decide +kernel⟩,
   ⟨1, 5, _, sWords .vert [0x3405], rfl, by decide +kernel⟩,
   ⟨1, true, 5, _, sWords .vert [0x4505], rfl, by decide +kernel⟩,
   ⟨true, 50000, _, _, sWords .vert [0x5001, 50000], rfl, by decide +kernel, rfl⟩,
   ⟨1, _, _, sWords .vert [0x6001], rfl, by decide +kernel, rfl⟩,
   ⟨1, _, _, sWords .vert [0x7001], rfl, by decide +kernel, rfl⟩,
   ⟨1, 8, 0, _, _, sWords .vert [0x8108, 0], rfl, by decide +kernel, rfl⟩,
   ⟨⟨1, 2, 0, 10⟩, _, { sProg with vert := { send := some ⟨1, 2, 0, 10⟩ } }, by decide +kernel, rfl, by decide +kernel⟩,
   ⟨1, 2, 3, _, _, _, _, sWords .vert [0x9223], rfl, by decide +kernel, rfl, rfl, rfl⟩,
   ⟨4, 0, 0, 0, 0, 0, 0, ⟨1, 4, Vector.replicate 3 {}, false, 3, 10, 90⟩, _, _, { sProg with vert := { windows := [⟨1, 4, Vector.replicate 3 {}, false, 3, 10, 90⟩] } }, by decide +kernel, rfl, by decide +kernel, rfl⟩⟩

theorem wit_VertMonitorEvents :
    (∃ (c : Fin 12) (phErr : Byte) (iMeas : BitVec 12) (residual : Byte) (b : LfBurst) (t : State) (s : State), ((s.vert.ch[c]).ended = some b) ∧ ((s.vert.ch[c]).cls = .normal) ∧ (b.measurable = true) ∧ ((s.pwr.vbatLow || s.pwr.vbatOvp || s.vert.vlfUv) = false) ∧ (t = modCh s c (fun x => noteBurst x b phErr iMeas residual)) ∧ ((t.vert.ch[c]).nOpen < 2) ∧ ((t.vert.ch[c]).nDetuned < 3) ∧ ((t.vert.ch[c]).nLow < 3)) ∧
    (∃ (c : Fin 12) (s : State), ((s.vert.ch[c]).cls = .normal ∨ (s.vert.ch[c]).cls = .lowCurrent)) ∧
    (∃ (c : Fin 12) (n : Nat) (t : State) (s : State), (ticksToCap 2000 s.vert (now s) c = some n) ∧ (s.cel.tbRun = true) ∧ (t = elapse s n)) ∧
    (∃ (t : State) (s : State), (s.vert.dutyHold = true) ∧ (t = (if s.vert.send.isSome || s.vert.slot.toList.any (fun x => x.driven || decide (now s < x.offAt)) then s else elapse s (ticksToLow s.vert))) ∧ (t.vert.ch.toList.all (fun x => decide (x.duty < dutyLow)) = true)) ∧
    (∃ (t : State) (s : State), (t = endProgram { s with vert := { s.vert with
      overtemp := true, hotAt := if s.vert.overtemp then s.vert.hotAt else s.clock } } .vert .antennaFault)) ∧
    (∃ (c : Fin 12) (t : State) (s : State), (seqRuns s .vert = false) ∧ (bitAt s.vert.svc.toNat c.val = true) ∧ (bitAt s.vert.trackDue.toNat c.val = true) ∧ (t = { s with vert := { s.vert with trackDue := s.vert.trackDue &&& ~~~(BitVec.ofNat 12 (2 ^ c.val)) } }) ∧ ((trackStep s.vert.ch[c] c).2 ≠ 0)) ∧
    (∃ (c : Fin 12) (f : Vector Byte 8) (g : Vector Byte 3) (cur : BitVec 12) (ph : Byte) (t : State) (s : State), (bitAt s.vert.pop.toNat c.val = true) ∧ (((s.vert.ch[c]).sweepReq || diagSweeps s c) = true) ∧ (sweepMay s = true) ∧ (seqRuns s .vert = false) ∧ ((s.cel.entries.toList.any fun e => e.island.toNat == 0 &&
        (e.state = .posted || e.state = .running || ((s.vert.ch[c]).sweepExtra && e.state = .armed))) = false) ∧ ((∀ p, nextPosting s 0 = some p → now s + 2400 * sweepDrives c ≤ p)) ∧ (t = diagSwept (sweepRun s c f g cur ph) c)) ∧
    (∃ (c : Fin 12) (p : Nat) (t : State) (s : State), (bitAt s.vert.pop.toNat c.val = true) ∧ (((s.vert.ch[c]).sweepReq || diagSweeps s c) = true) ∧ (sweepMay s = true) ∧ (seqRuns s .vert = false) ∧ ((s.cel.entries.toList.any fun e => e.island.toNat == 0 &&
        (e.state = .posted || e.state = .running || ((s.vert.ch[c]).sweepExtra && e.state = .armed))) = false) ∧ (nextPosting s 0 = some p) ∧ (p < now s + 2400 * sweepDrives c) ∧ (t = driveUntil c 8 2400 p s)) ∧
    (∃ (c : Fin 12) (s : State), (lfOut (s.vert.ch[c]).cls = true)) :=
  ⟨⟨4, 0, 400, 0, bWit, _, { State.reset with vert := { ch := vmap ({} : Vert).ch (fun x => { x with cls := .normal, ended := some bWit }) } }, by decide +kernel, by decide +kernel, by decide +kernel, by decide +kernel, rfl, by decide +kernel⟩,
   ⟨4, { State.reset with vert := { ch := vmap ({} : Vert).ch (fun x => { x with cls := .normal }) } }, by decide +kernel⟩,
   ⟨4, 0, _, { sRun with vert := { pop := 0xFFF, ch := vmap ({} : Vert).ch (fun x => { x with duty := dutyCap, cls := .normal }), slot := vset ({} : Vert).slot 0 { ch := some 4, amp := 63, driven := true, onAt := 0 } } }, by decide +kernel, by decide +kernel, rfl⟩,
   ⟨_, { sRun with vert := { dutyHold := true } }, by decide +kernel, rfl, by decide +kernel⟩,
   ⟨_, State.reset, rfl⟩,
   ⟨4, _, { State.reset with vert := { svc := 0xFFF, trackDue := 0xFFF, ch := vmap ({} : Vert).ch (fun x => { x with single := [100, 100, 100, 100, 100, 100, 100, 100] }) } }, by decide +kernel, by decide +kernel, by decide +kernel, rfl, by decide +kernel⟩,
   ⟨4, Vector.replicate 8 0, Vector.replicate 3 0, 100, 0, _, { sRun with vert := { pop := 0xFFF, ch := vmap ({} : Vert).ch (fun x => { x with sweepReq := true }) }, pwr := { pstate := .chalk } }, by decide +kernel, by decide +kernel, by decide +kernel, by decide +kernel, by decide +kernel, by decide +kernel, rfl⟩,
   ⟨4, 904, _, { sEntry { count := 1, state := .armed, due := 5000, action := 1 } with vert := { pop := 0xFFF, ch := vmap ({} : Vert).ch (fun x => { x with sweepReq := true }) }, pwr := { pstate := .chalk } }, by decide +kernel, by decide +kernel, by decide +kernel, by decide +kernel, by decide +kernel, by decide +kernel, by decide +kernel, rfl⟩,
   ⟨4, { State.reset with vert := { ch := vmap ({} : Vert).ch (fun x => { x with cls := .short }) } }, by decide +kernel⟩⟩

theorem wit_TenneInstructions :
    (∃ (n : Fin 8) (u : State) (t : State) (s : State), (u = settleSeq s .tenne) ∧ (seqAt u .tenne (.tnSynth n.val) 1 = true) ∧ (t = seqPast (elapse u 1) .tenne 1 .ready)) ∧
    (∃ (d : Byte) (u : State) (s : State), (u = settleSeq s .tenne) ∧ (seqAt u .tenne (.tnWaitLock d.toNat) 1 = true)) ∧
    (∃ (a : Nat) (t : State) (s : State), ((seqOf s .tenne).wait = .lock a) ∧ (t = elapseTo s a) ∧ (a ≤ now t) ∧ (seqRuns t .tenne = true)) ∧
    (∃ (u : State) (v : State) (s : State), (s.tn.synth.on = true) ∧ (s.tn.synth.locked = false) ∧ (v = (if s.tn.cache ||| BitVec.ofNat 8 (2 ^ s.tn.synth.entry.val) = s.tn.cache then s else markDirty s calBand)) ∧ (u = { v with tn := { s.tn with synth := { s.tn.synth with locked := true, lockedAt := now s }, cache := s.tn.cache ||| BitVec.ofNat 8 (2 ^ s.tn.synth.entry.val), utx := if s.tn.utx.phase = .synth then { s.tn.utx with phase := .sending } else s.tn.utx } })) ∧
    (∃ (s : State), (s.tn.synth.locked = true) ∧ (s.tn.utx.phase ≠ .sending) ∧ (s.tn.txOn = true) ∧ (seqRuns s .tenne = true)) ∧
    (∃ (s : State), (s.tn.synth.locked = true) ∧ (s.tn.utx.phase ≠ .sending) ∧ ((s.tn.txOn && seqRuns s .tenne) = false)) ∧
    (∃ (b : Fin 3) (u : State) (t : State) (s : State), (u = settleSeq s .tenne) ∧ (seqAt u .tenne (.tnRxOn b.val) 1 = true) ∧ (t = seqPast (elapse u 1) .tenne 1 .ready)) ∧
    (∃ (u : State) (t : State) (s : State), (u = settleSeq s .tenne) ∧ (seqAt u .tenne .tnRxOff 1 = true) ∧ (t = seqPast (elapse u 1) .tenne 1 .ready)) ∧
    (∃ (n : BitVec 6) (u : State) (s : State), (u = settleSeq s .tenne) ∧ (seqAt u .tenne (.dcoc n.toNat) 1 = true)) ∧
    (∃ (format : Fin 3) (idx : Bool) (r : Fin 8) (search : W16) (u : State) (s : State), (u = settleSeq s .tenne) ∧ (seqAt u .tenne (.tnRxFrame format.val idx r.val search.toNat) 2 = true)) ∧
    (∃ (sync : Bool) (toneLevel : Byte) (toneTicks : W16) (d : W16) (medians : Bytes) (payload : Bytes) (x : TnRxFrame) (at_ : Nat) (len : Nat) (cls : Nat) (t : State) (s : State), (s.tn.rxFrame = some x) ∧ (at_ = Nat.min d.toNat x.search) ∧ (len = formatBits x.format.val * bitPeriod s.tn.rxProfile.val) ∧ (cls = rxClass x.format sync (twoToneOf s toneLevel toneTicks.toNat) (searchEnergy s x.search medians) payload) ∧ (t = elapseTo s (x.start + (if sync then at_ + len else if cls = 0 then x.search else x.search + len)))) ∧
    (∃ (n : BitVec 4) (idx : Bool) (r : Fin 8) (u : State) (s : State), (u = settleSeq s .tenne) ∧ (seqAt u .tenne (.rssi n.toNat idx r.val) 1 = true)) ∧
    (∃ (b : Fin 3) (step : BitVec 6) (u : State) (v : State) (t : State) (s : State), (u = settleSeq s .tenne) ∧ (u.tn.synth.locked = true) ∧ (seqAt u .tenne (.tnTxOn b.val step.toNat) 1 = true) ∧ (v = settleSeq (elapseTo u (u.tn.synth.lockedAt + 768)) .tenne) ∧ (seqAt v .tenne (.tnTxOn b.val step.toNat) 1 = true) ∧ (t = seqPast (elapse v 385) .tenne 1 .ready)) ∧
    (∃ (u : State) (s : State), (u = settleSeq s .tenne) ∧ (seqAt u .tenne .tnTxFrame 1 = true)) ∧
    (∃ (u : State) (t : State) (s : State), (u = settleSeq s .tenne) ∧ (seqAt u .tenne .tnTxOff 1 = true) ∧ (t = seqPast (elapse u 1) .tenne 1 .ready)) :=
  ⟨⟨2, _, _, sWords .tenne [0x1002], rfl, by decide +kernel, rfl⟩,
   ⟨5, _, sWords .tenne [0x2005], rfl, by decide +kernel⟩,
   ⟨50, _, setSeq sRun .tenne { entry := some 3, wait := .lock 50 }, by decide +kernel, rfl, by decide +kernel⟩,
   ⟨_, _, { sTn with tn := { synth := { on := true } } }, by decide +kernel, by decide +kernel, rfl, rfl⟩,
   ⟨{ sTn with tn := { synth := { on := true, locked := true }, txOn := true } }, by decide +kernel⟩,
   ⟨{ sTn with tn := { synth := { on := true, locked := true } } }, by decide +kernel⟩,
   ⟨2, _, _, sWords .tenne [0x3002], rfl, by decide +kernel, rfl⟩,
   ⟨_, _, sWords .tenne [0x4000], rfl, by decide +kernel, rfl⟩,
   ⟨2, _, sWords .tenne [0x5002], rfl, by decide +kernel⟩,
   ⟨1, false, 2, 100, _, sWords .tenne [0x6102, 100], rfl, by decide +kernel⟩,
   ⟨true, 0, 0, 10, [], [1, 2], ⟨0, 1, 5, 100⟩, _, _, _, _, { sTn with tn := { rxFrame := some ⟨0, 1, 5, 100⟩ } }, by decide +kernel, rfl, rfl, rfl, rfl⟩,
   ⟨2, true, 3, _, sWords .tenne [0x7283], rfl, by decide +kernel⟩,
   ⟨1, 7, _, _, _, { sWords .tenne [0x8107] with tn := { (sWords .tenne [0x8107]).tn with synth := { on := true, locked := true } } }, rfl, by decide +kernel, by decide +kernel, rfl, by decide +kernel, rfl⟩,
   ⟨_, sWords .tenne [0x9300], rfl, by decide +kernel⟩,
   ⟨_, _, sWords .tenne [0xA000], rfl, by decide +kernel, rfl⟩⟩

theorem wit_UntimedTransmitAndCoexistence :
    (∃ (v : W32) (u : Utx) (s : State), (bitAt v.toNat 15 = true) ∧ (s.tn.utx.phase = .idle) ∧ (s.keys.svcLock = false) ∧ (u = utxFields s.tn.utx v) ∧ (u.profile.toNat = 1 ∨ u.profile.toNat = 2) ∧ (u.step.toNat ≤ pwrMaxOf s u.entry.toNat) ∧ (u.coex.toNat < 2)) ∧
    (∃ (t : State) (s : State), (s.tn.utx.phase = .waiting) ∧ (t = elapseTo s (near32 (now s) s.tn.utx.nb)) ∧ (t.keys.svcLock = false) ∧ (vbatNoTx t = false) ∧ (seqRuns t .tenne = false) ∧ ((vgetN t.cel.ports 2 []).isEmpty = true) ∧ (vcalRuns t = false) ∧ (utxGranted t = true) ∧ (near32 (now t) t.tn.utx.nb ≤ now t) ∧ (now t ≤ near32 (now t) t.tn.utx.dl)) ∧
    (∃ (t : State) (s : State), (s.tn.utx.phase = .waiting) ∧ (t = elapseTo s (near32 (now s) s.tn.utx.dl))) ∧
    (∃ (s : State), (s.tn.utx.phase = .sending)) ∧
    (∃ (pair : Fin 2) (level : Bool) (g : Vector CoexPair 2) (s : State), (s.clk.hostHeld = false) ∧ (g = vmod s.tn.coex pair (fun x => { x with gntPin := level }))) ∧
    (∃ (temp : Int) (a : Int) (u : State) (t : State) (s : State), (s.pwr.pstate = .chalk) ∧ (u = elapseChalk s (s.bg.times.vco + ticksPerSec)) ∧ (t = { u with bg := { u.bg with times := { u.bg.times with vco := chalkNow u } } }) ∧ (t.tn.vcal = none) ∧ (t.tn.cacheTemp = some a) ∧ (20 ≤ temp - a ∨ 20 ≤ a - temp)) ∧
    (∃ (temp : Int) (a : Int) (b : Int) (e : Nat) (u : State) (t : State) (v : State) (s : State), (s.pwr.pstate = .chalk) ∧ (u = elapseChalk s (s.bg.times.vco + ticksPerSec)) ∧ (t = { u with bg := { u.bg with times := { u.bg.times with vco := chalkNow u } } }) ∧ (t.tn.vcal = some (e, a)) ∧ (e ≤ now t) ∧ (v = markDirty { t with tn := { t.tn with vcal := none, refill := false, cache := 0xFF, cacheTemp := some a } } calBand) ∧ (v.tn.cacheTemp = some b) ∧ (temp - b < 20 ∧ b - temp < 20)) :=
  ⟨⟨0x8008, _, State.reset, by decide +kernel, by decide +kernel, by decide +kernel, rfl, by decide +kernel⟩,
   ⟨_, { sRun with tn := { utx := { phase := .waiting, nb := 5, dl := 50 } } }, by decide +kernel, rfl, by decide +kernel⟩,
   ⟨_, { sRun with tn := { utx := { phase := .waiting } } }, by decide +kernel, rfl⟩,
   ⟨{ sRun with tn := { utx := { phase := .sending } } }, by decide +kernel⟩,
   ⟨1, true, _, State.reset, by decide +kernel, rfl⟩,
   ⟨60, 20, _, _, { sUp with tn := { cacheTemp := some 20 } }, by decide +kernel, rfl, rfl, by decide +kernel⟩,
   ⟨60, 50, 50, 7, _, _, _, { sUp with tn := { vcal := some (7, 50) } }, by decide +kernel, rfl, rfl, by decide +kernel, by decide +kernel, rfl, by decide +kernel⟩⟩

theorem wit_AzureInstructions :
    (∃ (n : Fin 8) (u : State) (t : State) (s : State), (u = settleSeq s .azure) ∧ (seqAt u .azure (.azPhy n.val) 1 = true) ∧ (t = seqPast (elapse u 1) .azure 1 .ready)) ∧
    (∃ (d : Byte) (u : State) (s : State), (u = settleSeq s .azure) ∧ (seqAt u .azure (.azWaitLock d.toNat) 1 = true)) ∧
    (∃ (a : Nat) (t : State) (s : State), ((seqOf s .azure).wait = .lock a) ∧ (t = elapseTo s a) ∧ (a ≤ now t)) ∧
    (∃ (u : State) (s : State), (s.az.synthOn = true) ∧ (s.az.locked = false) ∧ (u = { s with az := { s.az with locked := true, lockedAt := now s }, clk := { s.clk with plluLock := true } })) ∧
    (∃ (s : State), (s.az.locked = true) ∧ (seqRuns s .azure = true)) ∧
    (∃ (a : Fin 6) (b : Option (Fin 6)) (u : State) (v : State) (t : State) (s : State), (u = settleSeq s .azure) ∧ (seqAt u .azure (.azRxOn a.val (portCode b)) 1 = true) ∧ ((a :: b.toList).all (fun x => portIn u x) = true) ∧ (v = settleSeq u .azure) ∧ (seqAt v .azure (.azRxOn a.val (portCode b)) 1 = true) ∧ (t = seqPast (elapse v 193) .azure 1 .ready)) ∧
    (∃ (a : Fin 6) (b : Option (Fin 6)) (u : State) (s : State), (u = settleSeq s .azure) ∧ (seqAt u .azure (.azRxOn a.val (portCode b)) 1 = true) ∧ ((a :: b.toList).all (fun x => portIn u x) = false)) ∧
    (∃ (u : State) (t : State) (s : State), (u = settleSeq s .azure) ∧ (seqAt u .azure .azRxOff 1 = true) ∧ (t = seqPast (elapse u 1) .azure 1 .ready)) ∧
    (∃ (b : Fin 6) (back : BitVec 6) (u : State) (v : State) (t : State) (s : State), (u = settleSeq s .azure) ∧ (seqAt u .azure (.azTxOn b.val back.toNat) 1 = true) ∧ (portIn u b = true) ∧ (u.az.locked = true) ∧ (v = settleSeq (elapseTo u (u.az.lockedAt + 768)) .azure) ∧ (seqAt v .azure (.azTxOn b.val back.toNat) 1 = true) ∧ (t = seqPast (elapse v 1) .azure 1 .ready)) ∧
    (∃ (u : State) (t : State) (s : State), (u = settleSeq s .azure) ∧ (seqAt u .azure .azTxOff 1 = true) ∧ (t = seqPast (elapse u 1) .azure 1 .ready)) ∧
    (∃ (final : Bool) (r : Fin 4) (lead : W16) (a : Fin 6) (u : State) (v : State) (t : State) (mark : Nat) (s : State), (u = settleSeq s .azure) ∧ (seqAt u .azure (.azTxFrame final r.val lead.toNat) 2 = true) ∧ (u.az.txPort = some a) ∧ (portIn u a = true) ∧ (u.az.key.valid = true ∧ (final = true ∨ u.az.key.used ≠ 2)) ∧ (v = settleSeq u .azure) ∧ (seqAt v .azure (.azTxFrame final r.val lead.toNat) 2 = true) ∧ (mark = u.az.lastTb + lead.toNat) ∧ (t = seqPast v .azure 2 (.til (mark + ticksAfter (phyNow v)) (.azTx r mark)))) ∧
    (∃ (report : Bool) (r : Fin 4) (search : W16) (u : State) (v : State) (t : State) (s : State), (u = settleSeq s .azure) ∧ (seqAt u .azure (.azRxFrame report r.val search.toNat) 2 = true) ∧ ((u.az.rxA.toList ++ u.az.rxB.toList).all (fun x => portIn u x) = true) ∧ (u.az.key.valid = true) ∧ (v = settleSeq u .azure) ∧ (seqAt v .azure (.azRxFrame report r.val search.toNat) 2 = true) ∧ (t = seqPast v .azure 2 .op)) ∧
    (∃ (r : Fin 4) (lead : W16) (a : Fin 6) (u : State) (s : State), (u = settleSeq s .azure) ∧ (seqAt u .azure (.azTxFrame false r.val lead.toNat) 2 = true) ∧ (u.az.txPort = some a) ∧ (portIn u a = true) ∧ (u.az.key.valid = false ∨ u.az.key.used = 2)) ∧
    (∃ (report : Bool) (r : Fin 4) (search : W16) (u : State) (s : State), (u = settleSeq s .azure) ∧ (seqAt u .azure (.azRxFrame report r.val search.toNat) 2 = true) ∧ ((u.az.rxA.toList ++ u.az.rxB.toList).all (fun x => portIn u x) = true) ∧ (u.az.key.valid = false)) ∧
    (∃ (received : Bool) (firstPath : Bool) (phrOk : Bool) (nlos : Bool) (delay : W16) (frac : BitVec 11) (stsq : Byte) (rssi : Byte) (pdoa : W16) (cfo : W16) (payload : Bytes) (x : AzRxFrame) (got : Bool) (psdu : Bytes) (cls : Nat) (mark : Nat) (bit : BitVec 4) (t : State) (a : Azure) (s : State), (s.az.rxFrame = some x) ∧ (x.report = false) ∧ (got = (received && rxTakes (phyNow s) delay.toNat x.search)) ∧ (psdu = padTo (psduLen (phyNow s) false) payload) ∧ (cls = azFrameClass (phyNow s) got firstPath phrOk stsq psdu) ∧ (mark = x.start + (if got then delay.toNat else x.search)) ∧ (bit = BitVec.ofNat 4 (2 ^ x.rcd.val)) ∧ (t = elapseTo s (if got then mark + ticksAfter (phyNow s) else mark)) ∧ (a = putTs { t.az with rxFrame := none } x.rcd (tsRecord (rxStamp s s.az.rxA mark frac.toNat) cls false false false nlos stsq rssi (if s.az.rxB.isSome then pdoa else 0) cfo))) ∧
    (∃ (a : Fin 6) (b : Fin 6) (r : Fin 4) (u : State) (v : State) (t : State) (s : State), (u = settleSeq s .azure) ∧ (seqAt u .azure (.loopback a.val b.val r.val) 1 = true) ∧ (portIn u a = true) ∧ (portIn u b = true) ∧ (v = settleSeq u .azure) ∧ (seqAt v .azure (.loopback a.val b.val r.val) 1 = true) ∧ (t = seqPast v .azure 1 .op)) ∧
    (∃ (decoded : Bool) (nlos : Bool) (delay : W16) (frac : BitVec 11) (stsq : Byte) (rssi : Byte) (cfo : W16) (l : AzLoop) (got : Bool) (mark : Nat) (t : State) (a : Azure) (s : State), (s.az.loop = some l) ∧ (got = (decoded && decide (delay.toNat + ticksAfter (phyNow s) ≤ 12800))) ∧ (mark = l.start + (if got then delay.toNat else 12800)) ∧ (t = elapseTo s (if got then mark + ticksAfter (phyNow s) else mark)) ∧ (a = putTs t.az l.rcd (tsRecord (rxStamp s (some l.rx) mark frac.toNat) (b2n got) false false false nlos stsq rssi 0 cfo))) :=
  ⟨⟨2, _, _, sWords .azure [0x1002], rfl, by decide +kernel, rfl⟩,
   ⟨5, _, sWords .azure [0x2005], rfl, by decide +kernel⟩,
   ⟨50, _, setSeq sRun .azure { entry := some 3, wait := .lock 50 }, by decide +kernel, rfl, by decide +kernel⟩,
   ⟨_, { sAz with az := { synthOn := true } }, by decide +kernel, by decide +kernel, rfl⟩,
   ⟨{ sAz with az := { locked := true } }, by decide +kernel⟩,
   ⟨1, some 2, _, _, _, sWords .azure [0x3120], rfl, by decide +kernel, by decide +kernel, rfl, by decide +kernel, rfl⟩,
   ⟨1, some 2, _, { sWords .azure [0x3120] with az := { (sWords .azure [0x3120]).az with svc := 0 } }, rfl, by decide +kernel⟩,
   ⟨_, _, sWords .azure [0x4000], rfl, by decide +kernel, rfl⟩,
   ⟨1, 7, _, _, _, { sWords .azure [0x5107] with az := { (sWords .azure [0x5107]).az with locked := true } }, rfl, by decide +kernel, by decide +kernel, by decide +kernel, rfl, by decide +kernel, rfl⟩,
   ⟨_, _, sWords .azure [0x6000], rfl, by decide +kernel, rfl⟩,
   ⟨true, 1, 50, 2, _, _, _, _, { sWords .azure [0x7201, 50] with az := { (sWords .azure [0x7201, 50]).az with txPort := some 2, key := { valid := true } } }, rfl, by decide +kernel, by decide +kernel, by decide +kernel, by decide +kernel, rfl, by decide +kernel, rfl, rfl⟩,
   ⟨true, 1, 50, _, _, _, { sWords .azure [0x8301, 50] with az := { (sWords .azure [0x8301, 50]).az with rxA := some 2, key := { valid := true } } }, rfl, by decide +kernel, by decide +kernel, by decide +kernel, rfl, by decide +kernel, rfl⟩,
   ⟨1, 50, 2, _, { sWords .azure [0x7001, 50] with az := { (sWords .azure [0x7001, 50]).az with txPort := some 2, key := { valid := true, used := 2 } } }, rfl, by decide +kernel⟩,
   ⟨true, 1, 50, _, { sWords .azure [0x8301, 50] with az := { (sWords .azure [0x8301, 50]).az with rxA := some 2 } }, rfl, by decide +kernel⟩,
   ⟨true, true, true, false, 10, 5, 200, 9, 0, 0, [], ⟨false, 1, 5, 100⟩, _, _, _, _, _, _, _, { sAz with az := { rxFrame := some ⟨false, 1, 5, 100⟩ } }, by decide +kernel, by decide +kernel, rfl, rfl, rfl, rfl, rfl, rfl, rfl⟩,
   ⟨1, 2, 0, _, _, _, sWords .azure [0x9120], rfl, by decide +kernel, by decide +kernel, by decide +kernel, rfl, by decide +kernel, rfl⟩,
   ⟨true, false, 10, 5, 200, 9, 0, ⟨1, 2, 0, 5⟩, _, _, _, _, { sAz with az := { loop := some ⟨1, 2, 0, 5⟩ } }, by decide +kernel, rfl, rfl, rfl, rfl⟩⟩

theorem wit_UwbPortTripsAndStsKey :
    (∃ (b : Fin 6) (s : State), (s.az.txPort = some b) ∧ ((s.az.ports[b]).cls = .normal ∨ (s.az.ports[b]).cls = .weak)) ∧
    (∃ (t : State) (s : State), (s.az.key.valid = true) ∧ (t = elapseTo s (s.az.key.loadedAt + 3840000)) ∧ (s.az.key.loadedAt + 3840000 ≤ now t)) ∧
    (∃ (s : State), (s.az.key.valid = true) ∧ (seqRuns s .azure = true)) ∧
    (∃ (s : State), (s.az.key.valid = true) ∧ (seqRuns s .azure = false)) :=
  ⟨⟨2, { sAz with az := { sAz.az with txPort := some 2, ports := vmap sAz.az.ports (fun x => { x with cls := .normal }) } }, by decide +kernel⟩,
   ⟨_, { sAz with az := { key := { valid := true, loadedAt := 5 } } }, by decide +kernel, rfl, by decide +kernel⟩,
   ⟨{ sAz with az := { key := { valid := true } } }, by decide +kernel⟩,
   ⟨{ sRun with az := { key := { valid := true } } }, by decide +kernel⟩⟩

theorem wit_JobSubmissions :
    (∃ (w : JobWords) (s : State), (mayAccept s .aeadSeal w s.gq.privileged)) ∧
    (∃ (w : JobWords) (s : State), (mayAccept s .aeadOpen w s.gq.privileged)) ∧
    (∃ (w : JobWords) (s : State), (mayAccept s .cmac w s.gq.privileged)) ∧
    (∃ (w : JobWords) (s : State), (mayAccept s .cmacVerify w s.gq.privileged)) ∧
    (∃ (w : JobWords) (s : State), (mayAccept s .kdf w s.gq.privileged)) ∧
    (∃ (w : JobWords) (s : State), (mayAccept s .nonce w s.gq.privileged)) ∧
    (∃ (w : JobWords) (s : State), (mayAccept s .aqmosAlias w s.gq.privileged)) ∧
    (∃ (w : JobWords) (s : State), (mayAccept s .aqmosVerify w s.gq.privileged)) ∧
    (∃ (w : JobWords) (s : State), (mayAccept s .stsDerive w s.gq.privileged)) ∧
    (∃ (w : JobWords) (s : State), (mayAccept s .hash w s.gq.privileged)) ∧
    (∃ (w : JobWords) (s : State), (mayAccept s .ecdsaSign w s.gq.privileged)) ∧
    (∃ (w : JobWords) (s : State), (mayAccept s .ecdsaVerify w s.gq.privileged)) ∧
    (∃ (w : JobWords) (s : State), (mayAccept s .ecdh w s.gq.privileged)) ∧
    (∃ (w : JobWords) (s : State), (mayAccept s .random w s.gq.privileged)) ∧
    (∃ (w : JobWords) (s : State), (mayAccept s .importKey w s.gq.privileged)) ∧
    (∃ (w : JobWords) (s : State), (mayAccept s .invalidate w s.gq.privileged)) ∧
    (∃ (w : JobWords) (s : State), (mayAccept s .verdict w s.gq.privileged)) ∧
    (∃ (pm : Bool) (w : JobWords) (s : State), (mayAccept s .keyWrite w pm)) ∧
    (∃ (pm : Bool) (w : JobWords) (s : State), (mayAccept s .tagLoad w pm)) :=
  ⟨⟨wJob .aeadSeal, sKeys, by decide +kernel⟩,
   ⟨wJob .aeadOpen, sKeys, by decide +kernel⟩,
   ⟨wJob .cmac, sKeys, by decide +kernel⟩,
   ⟨wJob .cmacVerify, sKeys, by decide +kernel⟩,
   ⟨wJob .kdf, sKeys, by decide +kernel⟩,
   ⟨wJob .nonce, sKeys, by decide +kernel⟩,
   ⟨wJob .aqmosAlias, sKeys, by decide +kernel⟩,
   ⟨wJob .aqmosVerify, sKeys, by decide +kernel⟩,
   ⟨wJob .stsDerive, sKeys, by decide +kernel⟩,
   ⟨wJob .hash, sKeys, by decide +kernel⟩,
   ⟨wJob .ecdsaSign, sKeys, by decide +kernel⟩,
   ⟨wJob .ecdsaVerify, sKeys, by decide +kernel⟩,
   ⟨wJob .ecdh, sKeys, by decide +kernel⟩,
   ⟨wJob .random, sKeys, by decide +kernel⟩,
   ⟨wJob .importKey, sKeys, by decide +kernel⟩,
   ⟨wJob .invalidate, sKeys, by decide +kernel⟩,
   ⟨wJob .verdict, sKeys, by decide +kernel⟩,
   ⟨true, wJob .keyWrite, sKeys, by decide +kernel⟩,
   ⟨true, wJob .tagLoad, sKeys, by decide +kernel⟩⟩

theorem wit_GulesServices :
    (∃ (t : Fin 48) (j : Job) (e : Nat) (u : State) (v : State) (s : State), (pickJob s = some (t, j, e)) ∧ (jobAt s t = some j) ∧ (startRefusal s j e = none) ∧ (u = (if (opUse j.op).isSome then remaskWait s j.w.slot.toNat else s)) ∧ (v = (loadShares u j e).2)) ∧
    (∃ (tag : BitVec 6) (j : Job) (s : State), (vgetN s.gq.jobs tag.toNat none = some j) ∧ (j.phase = .done)) ∧
    (∃ (tag : Fin 48) (j : Job) (s : State), (jobAt s tag = some j) ∧ (j.phase = .held)) ∧
    (∃ (d : JobDone) (ds : List JobDone) (s : State), (s.gq.dones = d :: ds)) ∧
    (∃ (n : Fin 224) (s : State), ((orphansWaiting s).find? (fun n => !slotInUse s n) = some n)) ∧
    (∃ (ctx : Fin 160) (a : Nat) (l : List Nat) (t : State) (s : State), (proofTicks s.gq.proofs[ctx] = a :: l) ∧ (t = elapseTo s (l.foldl Nat.min a + 384001))) ∧
    (∃ (failA : Bool) (failB : Bool) (t : State) (s : State), (s.gq.katDue = true) ∧ (t = katRun { s with gq := { s.gq with katDue := false } } failA failB) ∧ ((t.gq.mismatches.filter fun a => decide (now t ≤ a + 10 * ticksPerSec)).length < 3)) ∧
    (∃ (failA : Bool) (failB : Bool) (due : Nat) (t : State) (u : State) (s : State), (s.pwr.pstate = .chalk) ∧ (due = s.bg.times.kat + 60 * ticksPerSec) ∧ (t = countLate (elapseChalk s due) due (60 * ticksPerSec)) ∧ (u = { t with gq := { t.gq with engAOut := t.gq.engAOut || failA, engBOut := t.gq.engBOut || failB } })) ∧
    (∃ (due : Nat) (t : State) (s : State), (s.pwr.pstate = .chalk) ∧ (due = s.bg.times.remask + 5 * ticksPerSec) ∧ (t = countLate (elapseChalk s due) due (5 * ticksPerSec))) ∧
    (∃ (s : State), (s.gq.trngOut = false)) ∧
    (∃ (s : State), (s.gq.trngRestart = true)) ∧
    (∃ (s : State), (s.gq.trngRestart = true) ∧ (2 ≤ s.gq.trngFails)) ∧
    (∃ (t : State) (s : State), (t = elapseTo s (s.gq.drbgAt + ticksPerSec))) :=
  ⟨⟨5, jReady, 8, _, _, sJob jReady, by decide +kernel, by decide +kernel, by decide +kernel, rfl, rfl⟩,
   ⟨5, { jReady with phase := .done }, sJob { jReady with phase := .done }, by decide +kernel⟩,
   ⟨5, { jReady with phase := .held }, sJob { jReady with phase := .held }, by decide +kernel⟩,
   ⟨⟨5, .ok, 9⟩, [], { State.reset with gq := { dones := [⟨5, .ok, 9⟩] } }, by decide +kernel⟩,
   ⟨5, { State.reset with keys := { slots := vset ({} : KeyStore).slots 5 { type := .aes128, state := .orphaned, key := some [] } } }, by decide +kernel⟩,
   ⟨5, 100, [], _, { sRun with gq := { proofs := vset ({} : Gules).proofs 5 { hf := some (100, 3) } } }, by decide +kernel, rfl⟩,
   ⟨false, true, _, { State.reset with gq := { katDue := true } }, by decide +kernel, rfl, by decide +kernel⟩,
   ⟨false, true, _, _, _, sUp, by decide +kernel, rfl, rfl, rfl⟩,
   ⟨_, _, sUp, by decide +kernel, rfl, rfl⟩,
   ⟨State.reset, by decide +kernel⟩,
   ⟨{ State.reset with gq := { trngRestart := true } }, by decide +kernel⟩,
   ⟨{ State.reset with gq := { trngRestart := true, trngFails := 2 } }, by decide +kernel⟩,
   ⟨_, sRun, rfl⟩⟩

theorem wit_YardTagInventory :
    (∃ (u : State) (k : Bytes) (s : State), (u = s1Settle (keptFlags { s with tag := ridSettle s.tag })) ∧ (u.tag.kRid = some k)) ∧
    (∃ (target : BitVec 3) (action : BitVec 3) (bank : BitVec 2) (pointer : W16) (mask : List Bool) (t : State) (v : Bool) (s : State), (t = tagCommand s) ∧ (t.tag.powered = true) ∧ (target.toNat < 4) ∧ (v = selectAct action.toNat (selectMatch t bank.toNat pointer.toNat mask) false (bitAt t.tag.inventoried.toNat target.toNat))) ∧
    (∃ (t : State) (s : State), (t = tagCommand s) ∧ (t.tag.powered = true)) ∧
    (∃ (dr : Bool) (miller : BitVec 2) (trext : Bool) (sel : BitVec 2) (session : Fin 4) (target : Bool) (q : BitVec 4) (t : State) (x : Tag) (y : Tag) (s : State), (t = tagCommand s) ∧ (t.tag.powered = true) ∧ (y = (if tagSingled t.tag && t.tag.session = session then invertFlag t.clock t.tag else t.tag)) ∧ (x = { y with session := session, q := q.toNat, dr := dr, miller := miller, trext := trext }) ∧ ((if sel = 2 then !x.sl else if sel = 3 then x.sl else true) = true) ∧ (bitAt x.inventoried.toNat session.val = target)) ∧
    (∃ (session : Fin 4) (upDn : BitVec 3) (t : State) (s : State), (t = tagCommand s) ∧ (t.tag.powered = true) ∧ (t.tag.session = session) ∧ (upDn = 6 ∨ upDn = 0 ∨ upDn = 3) ∧ (t.tag.st = .arbitrate ∨ t.tag.st = .reply)) ∧
    (∃ (session : Fin 4) (t : State) (s : State), (t = tagCommand s) ∧ (t.tag.powered = true) ∧ (t.tag.session = session) ∧ (t.tag.st = .arbitrate) ∧ ((if t.tag.slotCtr = 0 then 32767 else t.tag.slotCtr - 1) ≠ 0)) ∧
    (∃ (rn : W16) (t : State) (s : State), (t = tagCommand s) ∧ (t.tag.powered = true) ∧ (t.tag.st = .reply) ∧ (rn = t.tag.rn16)) ∧
    (∃ (t : State) (s : State), (t = tagCommand s) ∧ (t.tag.powered = true) ∧ (t.tag.st ≠ .ready)) ∧
    (∃ (rn : W16) (t : State) (s : State), (t = tagCommand s) ∧ (t.tag.powered = true) ∧ (t.tag.st = .acknowledged) ∧ (rn = t.tag.rn16)) :=
  ⟨⟨_, [], { State.reset with tag := { kRid := some [], supplied := true } }, rfl, by decide +kernel⟩,
   ⟨2, 0, 1, 0, [], _, _, sTag .ready, rfl, by decide +kernel, by decide +kernel, rfl⟩,
   ⟨_, sTag .ready, rfl, by decide +kernel⟩,
   ⟨false, 0, false, 0, 2, false, 0, _, _, _, sTag .ready, rfl, by decide +kernel, rfl, rfl, by decide +kernel⟩,
   ⟨0, 6, _, sTag .arbitrate, rfl, by decide +kernel⟩,
   ⟨0, _, sTag .arbitrate, rfl, by decide +kernel⟩,
   ⟨0, _, sTag .reply, rfl, by decide +kernel, by decide +kernel, rfl⟩,
   ⟨_, sTag .reply, rfl, by decide +kernel⟩,
   ⟨0, _, sTag .acknowledged, rfl, by decide +kernel, by decide +kernel, rfl⟩⟩

theorem wit_YardTagMemoryAndSecurity :
    (∃ (handle : W16) (bank : BitVec 2) (word : W16) (count : Byte) (t : State) (u : State) (d : Bytes) (s : State), (t = tagReach s) ∧ (tagOpen t handle = true) ∧ (u = (if bank = 3 then touchWords t word.toNat (if count = 0 then 1024 - word.toNat else count.toNat) else t)) ∧ (tagReadBank u bank.toNat word.toNat count.toNat = .inr d)) ∧
    (∃ (handle : W16) (word : W16) (data : W16) (energy : Bool) (t : State) (u : State) (s : State), (t = tagReach s) ∧ (tagOpen t handle = true) ∧ ((tagHarvest t.tag && !energy) = false) ∧ (word.toNat < 1024) ∧ (mayWriteUser t.tag word.toNat = true) ∧ (stewardWriting t.tag = false) ∧ (u = tagData (tagWriteAt t (wordPage word.toNat) (2 * (word.toNat % 32)) (leBytes 2 data.toNat)) [])) ∧
    (∃ (handle : W16) (mask : BitVec 10) (t : State) (s : State), (t = tagCommand s) ∧ (tagOpen t handle = true) ∧ (t.tag.st = .secured) ∧ (mask.toNat < 4) ∧ (t.tag.userPerma = false)) ∧
    (∃ (handle : W16) (keyId : Byte) (m : TagMethod) (t : State) (u : State) (s : State), (t = tagCommand s) ∧ (tagOpen t handle = true) ∧ (t.tag.authFails < 16) ∧ (m ≠ .unsupported) ∧ (m ≠ .tam1) ∧ ((tagKey t.tag keyId.toNat).isSome = true) ∧ (u = { t with freeCtr := t.freeCtr + 1, tag := { t.tag with authTried := true, authFails := 0, authKey := some keyId.toNat, nAuthOk := satInc t.tag.nAuthOk, st := if keyId = 1 then .secured else t.tag.st } })) ∧
    (∃ (handle : W16) (tid : BitVec 2) (t : State) (s : State), (t = tagCommand s) ∧ (tagOpen t handle = true) ∧ (t.tag.st = .secured) ∧ (tid ≠ 3)) ∧
    (∃ (handle : W16) (t : State) (s : State), (t = tagCommand s) ∧ (tagOpen t handle = true)) ∧
    (∃ (a : TagAccess) (as : List TagAccess) (t : State) (s : State), (s.tag.steward = a :: as) ∧ (a.cmd = none) ∧ (s.tag.readerHold = true ∨ s.orr.ash = true) ∧ (t = elapseTo s (a.since + 25 * 38400))) ∧
    (∃ (s : State), (s.tag.supplied = false)) ∧
    (∃ (tear : TagTear) (s : State), (s.tag.supplied = true) ∧ (tearTarget s tear = none)) ∧
    (∃ (point : TagPoint) (pg : Fin 32) (data : Mem) (word : Fin 1024) (x : W16) (u : State) (t : State) (v : State) (s : State), (s.tag.supplied = false) ∧ (u = { s with freeCtr := s.freeCtr + 1, tag := ridSettle s.tag }) ∧ (tearTarget u (.reader word x) = some (pg, data)) ∧ (t = touchPage u pg) ∧ (v = setTagPage t pg (tearPage t.freeCtr (tagPage t pg) data point))) :=
  ⟨⟨0, 3, 0, 2, _, _, [0, 0, 0, 0], sTag .openState, rfl, by decide +kernel, rfl, by decide +kernel⟩,
   ⟨0, 3, 7, true, _, _, sTag .openState, rfl, by decide +kernel, by decide +kernel, by decide +kernel, by decide +kernel, by decide +kernel, rfl⟩,
   ⟨0, 2, _, sTag .secured, rfl, by decide +kernel⟩,
   ⟨0, 1, .mam1, _, _, { sTag .openState with tag := { (sTag .openState).tag with key1 := some [] } }, rfl, by decide +kernel, by decide +kernel, by decide +kernel, by decide +kernel, by decide +kernel, rfl⟩,
   ⟨0, 2, _, sTag .secured, rfl, by decide +kernel⟩,
   ⟨0, _, sTag .secured, rfl, by decide +kernel⟩,
   ⟨{ since := 0 }, [], _, { sRun with tag := { steward := [{ since := 0 }], readerHold := true } }, by decide +kernel, by decide +kernel, by decide +kernel, rfl⟩,
   ⟨{ sRun with tag := { powered := true } }, by decide +kernel⟩,
   ⟨.nothing, sTag .openState, by decide +kernel⟩,
   ⟨.step2, 0, [(6, 7)], 3, 7, _, _, _, { sTag .openState with tag := { (sTag .openState).tag with supplied := false } }, by decide +kernel, rfl, by decide +kernel, rfl, rfl⟩⟩

theorem wit_BarrierShortFrames :
    (∃ (x : BitVec 17) (t : State) (s : State), (arrival s.bar true 1 = .frame x) ∧ (t = takeShort s true) ∧ (t.bar.hostEnd.synced = true)) ∧
    (∃ (x : BitVec 17) (t : State) (s : State), (arrival s.bar true 2 = .frame x) ∧ (t = takeShort s true) ∧ (t.bar.hostEnd.synced = true) ∧ (vehicleAllows t.host.vs = true) ∧ (t.host.pmt.readbackFault = false)) ∧
    (∃ (x : BitVec 17) (t : State) (s : State), (arrival s.bar true 2 = .frame x) ∧ (t = takeShort s true) ∧ (t.bar.hostEnd.synced = true) ∧ (vehicleAllows t.host.vs = false)) ∧
    (∃ (x : BitVec 17) (t : State) (s : State), (arrival s.bar true 2 = .frame x) ∧ (t = takeShort s true) ∧ (t.bar.hostEnd.synced = false)) ∧
    (∃ (x : BitVec 17) (t : State) (s : State), (arrival s.bar true 2 = .frame x) ∧ (t = takeShort s true) ∧ (t.bar.hostEnd.synced = true) ∧ (vehicleAllows t.host.vs = true) ∧ (t.host.pmt.readbackFault = true)) ∧
    (∃ (x : BitVec 17) (t : State) (s : State), (arrival s.bar true 1 = .frame x) ∧ (t = takeShort s true) ∧ (t.bar.hostEnd.synced = false)) ∧
    (∃ (x : BitVec 17) (s : State), (arrival s.bar false 1 = .frame x)) ∧
    (∃ (x : BitVec 17) (s : State), (arrival s.bar false 2 = .frame x)) ∧
    (∃ (x : BitVec 17) (t : State) (s : State), (arrival s.bar true 3 = .frame x) ∧ (t = heard (takeShort s true) true (byte (bitsOf x 7 0)))) ∧
    (∃ (x : BitVec 17) (s : State), (arrival s.bar false 3 = .frame x)) ∧
    (∃ (toHost : Bool) (x : BitVec 17) (t : State) (e : BarEnd) (s : State), (arrival s.bar toHost 4 = .frame x) ∧ (t = takeShort s toHost) ∧ (e = endOf t.bar toHost) ∧ (bitAt x.toNat 16 = false) ∧ (e.rxHi = none)) ∧
    (∃ (toHost : Bool) (x : BitVec 17) (lo : W16) (t : State) (e : BarEnd) (s : State), (arrival s.bar toHost 4 = .frame x) ∧ (t = takeShort s toHost) ∧ (e = endOf t.bar toHost) ∧ (bitAt x.toNat 16 = true) ∧ (e.rxLo = some lo)) ∧
    (∃ (x : BitVec 17) (t : State) (s : State), (arrival s.bar true 6 = .frame x) ∧ (t = takeShort s true)) ∧
    (∃ (x : BitVec 17) (t : State) (s : State), (arrival s.bar false 6 = .frame x) ∧ (t = takeShort s false)) ∧
    (∃ (x : BitVec 17) (s : State), (controlNext s true 1 = true) ∧ (arrival s.bar true 7 = .frame x)) ∧
    (∃ (x : BitVec 17) (r : Nat) (s : State), (controlNext s false 1 = true) ∧ (arrival s.bar false 7 = .frame x) ∧ ((bitsOf x 7 4, r) ∈ [(1, 7), (2, 2), (3, 8), (4, 10)])) :=
  ⟨⟨5, _, sArrive true 1 5, by decide +kernel, rfl, by decide +kernel⟩,
   ⟨5, _, sArrive true 2 5, by decide +kernel, rfl, by decide +kernel⟩,
   ⟨5, _, { sArrive true 2 5 with host := {} }, by decide +kernel, rfl, by decide +kernel⟩,
   ⟨5, _, sNoSync true 2 5, by decide +kernel, rfl, by decide +kernel⟩,
   ⟨5, _, { sArrive true 2 5 with host := { (sArrive true 2 5).host with pmt := { readbackFault := true } } }, by decide +kernel, rfl, by decide +kernel⟩,
   ⟨5, _, sNoSync true 1 5, by decide +kernel, rfl, by decide +kernel⟩,
   ⟨5, sArrive false 1 5, by decide +kernel⟩,
   ⟨5, sArrive false 2 5, by decide +kernel⟩,
   ⟨5, _, sArrive true 3 5, by decide +kernel, rfl⟩,
   ⟨5, sArrive false 3 5, by decide +kernel⟩,
   ⟨true, 5, _, _, sArrive true 4 5, by decide +kernel, rfl, rfl, by decide +kernel⟩,
   ⟨true, 0x10005, 7, _, _, sEpoch 7, by decide +kernel, rfl, rfl, by decide +kernel⟩,
   ⟨5, _, sArrive true 6 5, by decide +kernel, rfl⟩,
   ⟨5, _, sArrive false 6 5, by decide +kernel, rfl⟩,
   ⟨17, sArrive true 7 17, by decide +kernel⟩,
   ⟨33, 2, sArrive false 7 33, by decide +kernel⟩⟩

theorem wit_BarrierBulkFramesAndCredits :
    (∃ (f : BulkFrame) (s : State), (bulkArrival s.bar true .write = some f) ∧ (f.data.isEmpty = false)) ∧
    (∃ (f : BulkFrame) (s : State), (bulkArrival s.bar false .write = some f) ∧ (f.data.isEmpty = false)) ∧
    (∃ (f : BulkFrame) (a : Nat) (t : State) (d : Bytes) (s : State), (bulkArrival s.bar false .read = some f) ∧ (f.addr.toNat = 0x01000000 + a) ∧ (t = returnCredit (takeBulk s false) false true 1) ∧ ((s.bar.rcd.any fun c => c.addr == a) = false) ∧ (f.data.isEmpty = false) ∧ (bridgeWords t a (f.data.length / 4) = some d) ∧ (bridgeRcd a = false)) ∧
    (∃ (f : BulkFrame) (a : Nat) (t : State) (u : State) (d : Bytes) (s : State), (bulkArrival s.bar false .read = some f) ∧ (f.addr.toNat = 0x01000000 + a) ∧ (t = returnCredit (takeBulk s false) false true 1) ∧ ((s.bar.rcd.any fun c => c.addr == a) = false) ∧ (f.data.isEmpty = false) ∧ (bridgeWords t a (f.data.length / 4) = some d) ∧ (bridgeRcd a = true) ∧ (u = sendBulk t true .completion f.tag 0 d)) ∧
    (∃ (f : BulkFrame) (a : Nat) (t : State) (s : State), (bulkArrival s.bar false .read = some f) ∧ (f.addr.toNat = 0x01000000 + a) ∧ (t = returnCredit (takeBulk s false) false true 1) ∧ ((s.bar.rcd.any fun c => c.addr == a) = false) ∧ (f.data.isEmpty = false) ∧ (bridgeWords t a (f.data.length / 4) = none)) ∧
    (∃ (f : BulkFrame) (a : Nat) (t : State) (s : State), (bulkArrival s.bar false .read = some f) ∧ (f.addr.toNat = 0x01000000 + a) ∧ (t = returnCredit (takeBulk s false) false true 1) ∧ ((s.bar.rcd.any fun c => c.addr == a) = true)) ∧
    (∃ (f : BulkFrame) (t : State) (s : State), (bulkArrival s.bar true .completion = some f) ∧ (t = takeBulk s true)) ∧
    (∃ (f : BulkFrame) (x : RcdCopy) (t : State) (s : State), (bulkArrival s.bar false .rcdResolve = some f) ∧ (t = takeBulk s false) ∧ (t.bar.rcd.find? (fun c => c.tag == f.tag) = some x)) ∧
    (∃ (x : RcdCopy) (xs : List RcdCopy) (t : State) (s : State), (s.bar.rcd = x :: xs) ∧ (t = elapseToClock s (x.since + 38400))) ∧
    (∃ (toHost : Bool) (n : BitVec 17) (t : State) (l : BulkLane) (s : State), (arrival s.bar toHost 5 = .frame n) ∧ (bitsOf n 1 0 = 1) ∧ (t = takeShort s toHost) ∧ (l = bulkLane t.bar (!toHost))) ∧
    (∃ (n : BitVec 17) (t : State) (l : BulkLane) (s : State), (arrival s.bar true 5 = .frame n) ∧ (bitsOf n 1 0 = 0) ∧ (t = takeShort s true) ∧ (l = bulkLane t.bar false)) ∧
    (∃ (toHost : Bool) (payload : BitVec 17) (l : PrioLane) (n : Nat) (f : ShortFrame) (s : State), (s.bar.link = .up) ∧ (bitAt payload.toNat 1 = false) ∧ (bitAt payload.toNat 0 = false) ∧ (l = prioLane s.bar (!toHost)) ∧ (ackedAt l payload true = some (n, f)) ∧ (f.taken = true) ∧ (f.mismatch = false)) ∧
    (∃ (payload : BitVec 17) (l : BulkLane) (s : State), (s.bar.link = .up) ∧ (bitAt payload.toNat 1 = false) ∧ (bitAt payload.toNat 0 = true) ∧ (l = s.bar.bulkToHost)) ∧
    (∃ (toHost : Bool) (payload : BitVec 17) (l : PrioLane) (n : Nat) (f : ShortFrame) (t : State) (s : State), (s.bar.link = .up) ∧ (bitAt payload.toNat 1 = true) ∧ (bitAt payload.toNat 0 = false) ∧ (l = prioLane s.bar (!toHost)) ∧ (ackedAt l payload false = some (n, f)) ∧ (f.mismatch = true) ∧ (t = { s with bar := setPrio s.bar (!toHost) (dropShort l n) })) ∧
    (∃ (toHost : Bool) (f : ShortFrame) (fs : List ShortFrame) (s : State), (s.bar.link = .up) ∧ ((prioLane s.bar toHost).frames = f :: fs) ∧ (f.failed < 3)) ∧
    (∃ (toHost : Bool) (f : ShortFrame) (fs : List ShortFrame) (s : State), (s.bar.link = .up) ∧ ((prioLane s.bar toHost).frames = f :: fs) ∧ (3 ≤ f.failed)) ∧
    (∃ (toHost : Bool) (noise : BitVec 38) (n : Nat) (f : ShortFrame) (s : State), (s.bar.link = .up) ∧ (nextShort (prioLane s.bar toHost) = some (n, f)) ∧ (onWire toHost n f = true) ∧ (bitsPass (receiverEnd s.bar toHost).epoch (shortImage f ^^^ noise) = false)) :=
  ⟨⟨{ type := .write, seq := 0, tag := 0, addr := 0, data := [1] }, sBulk true { type := .write, seq := 0, tag := 0, addr := 0, data := [1] }, by decide +kernel⟩,
   ⟨{ type := .write, seq := 0, tag := 0, addr := 0, data := [1] }, sBulk false { type := .write, seq := 0, tag := 0, addr := 0, data := [1] }, by decide +kernel⟩,
   ⟨{ type := .read, seq := 0, tag := 0, addr := 0x0106000C, data := [0, 0, 0, 0] }, 0x06000C, _, [0, 0, 0, 0], sBulk false { type := .read, seq := 0, tag := 0, addr := 0x0106000C, data := [0, 0, 0, 0] }, by decide +kernel, by decide +kernel, rfl, by decide +kernel⟩,
   ⟨{ type := .read, seq := 0, tag := 0, addr := 0x01070000, data := [0, 0, 0, 0] }, 0x070000, _, _, [0, 0, 0, 0], sBulk false { type := .read, seq := 0, tag := 0, addr := 0x01070000, data := [0, 0, 0, 0] }, by decide +kernel, by decide +kernel, rfl, by decide +kernel, by decide +kernel, by decide +kernel, by decide +kernel, rfl⟩,
   ⟨{ type := .read, seq := 0, tag := 0, addr := 0x01FF0000, data := [0, 0, 0, 0] }, 0xFF0000, _, sBulk false { type := .read, seq := 0, tag := 0, addr := 0x01FF0000, data := [0, 0, 0, 0] }, by decide +kernel, by decide +kernel, rfl, by decide +kernel⟩,
   ⟨{ type := .read, seq := 0, tag := 0, addr := 0x01070000, data := [0, 0, 0, 0] }, 0x070000, _, { sBulk false { type := .read, seq := 0, tag := 0, addr := 0x01070000, data := [0, 0, 0, 0] } with bar := { (sBulk false { type := .read, seq := 0, tag := 0, addr := 0x01070000, data := [0, 0, 0, 0] }).bar with rcd := [⟨0, 0x070000, 3, 0⟩] } }, by decide +kernel, by decide +kernel, rfl, by decide +kernel⟩,
   ⟨{ type := .completion, seq := 0, tag := 0, addr := 0, data := [1] }, _, sBulk true { type := .completion, seq := 0, tag := 0, addr := 0, data := [1] }, by decide +kernel, rfl⟩,
   ⟨{ type := .rcdResolve, seq := 0, tag := 0, addr := 15, data := [] }, ⟨0, 0x010020, 3, 0⟩, _, sRcd, by decide +kernel, rfl, by decide +kernel⟩,
   ⟨⟨0, 0x010020, 3, 0⟩, [], _, sRcd, by decide +kernel, rfl⟩,
   ⟨true, 1, _, _, sArrive true 5 1, by decide +kernel, by decide +kernel, rfl, rfl⟩,
   ⟨4, _, _, sArrive true 5 4, by decide +kernel, by decide +kernel, rfl, rfl⟩,
   ⟨true, 12, _, 0, ⟨3, false, 5, 0, true, 0, none, false⟩, sAcked, by decide +kernel, by decide +kernel, by decide +kernel, rfl, by decide +kernel⟩,
   ⟨1, _, sUp, by decide +kernel, by decide +kernel, by decide +kernel, rfl⟩,
   ⟨true, 14, _, 0, ⟨3, false, 5, 0, true, 0, none, true⟩, _, sNaked, by decide +kernel, by decide +kernel, by decide +kernel, rfl, by decide +kernel, by decide +kernel, rfl⟩,
   ⟨false, ⟨3, false, 5, 0, true, 0, none, false⟩, [], sAcked, by decide +kernel⟩,
   ⟨false, ⟨3, false, 5, 0, true, 3, none, false⟩, [], { sAcked with bar := { sAcked.bar with toField := { frames := [⟨3, false, 5, 0, true, 3, none, false⟩] } } }, by decide +kernel⟩,
   ⟨true, 2, 0, ⟨1, false, 5, shortCheck 0 1 false 5, false, 0, none, false⟩, sArrive true 1 5, by decide +kernel⟩⟩

theorem wit_BarrierTimersAndLink :
    (∃ (t : State) (e : BarEnd) (s : State), (s.bar.link = .up) ∧ (t = elapseToClock s (s.bar.hostEnd.beatAt + 38400)) ∧ (e = { t.bar.hostEnd with beatAt := t.clock, alive := t.bar.hostEnd.alive + 1 })) ∧
    (∃ (t : State) (s : State), (s.bar.link = .up) ∧ (s.pwr.pstate = .chalk) ∧ (t = elapseToClock s (s.bar.fieldEnd.beatAt + 38400))) ∧
    (∃ (s : State), (s.bar.slept = false) ∧ (s.bar.hostEnd.silent = false)) ∧
    (∃ (t : State) (s : State), (s.bar.slept = false) ∧ (s.bar.fieldEnd.silent = false) ∧ (s.pwr.pstate = .chalk) ∧ (t = elapseToClock s (s.bar.fieldEnd.heardAt + 3 * 38400))) ∧
    (∃ (t : State) (s : State), (s.bar.link = .up) ∧ (s.bar.hostEnd.silent = false) ∧ (s.bar.stewardStall = false) ∧ (t = elapseToClock s (s.bar.hostEnd.rxAliveAt + 10 * 38400))) ∧
    (∃ (host : Bool) (s : State), (s.bar.link = .up) ∧ ((endOf s.bar host).synced = false)) ∧
    (∃ (s : State), (s.bar.link = .training) ∧ (s.clock ≤ s.bar.trainSince + 1920) ∧ (s.bar.retrain = false)) ∧
    (∃ (s : State), (s.bar.link = .training) ∧ (s.clock ≤ s.bar.trainSince + 1920) ∧ (s.bar.retrain = true)) ∧
    (∃ (s : State), (s.bar.link = .up)) ∧
    (∃ (s : State), (s.bar.link = .up)) ∧
    (∃ (t : State) (s : State), (s.bar.link = .training) ∧ (s.bar.retrain = false) ∧ (t = grantsChecked (linkDown (elapseToClock s (s.bar.trainSince + 1920)) false))) ∧
    (∃ (s : State), (s.bar.link = .down) ∧ (linkPowered s = true)) ∧
    (∃ (t : State) (s : State), (linkPowered s = true) ∧ (s.bar.slept = false) ∧ (s.bar.link = .down) ∧ (t = elapseToClock s (s.bar.trainSince + 38400))) ∧
    (∃ (s : State), (s.pwr.entering.isSome = true)) ∧
    (∃ (s : State), (s.bar.link ≠ .up) ∧ (s.pwr.pstate = .chalk) ∧ (toDeliver s = true) ∧ (s.bar.wakeFrom = none)) ∧
    (∃ (n : Nat) (t : State) (s : State), (s.bar.link ≠ .up) ∧ (s.pwr.pstate = .chalk) ∧ (toDeliver s = true) ∧ (s.bar.wakeFrom = some n) ∧ (s.bar.wakes < 10) ∧ (t = elapseToClock s (n + 384000 * s.bar.wakes))) ∧
    (∃ (s : State), (s.host.pmt.active = true)) ∧
    (∃ (f : VerdictFrame × Nat) (fs : List (VerdictFrame × Nat)) (t : State) (s : State), (s.bar.heldEntry = f :: fs) ∧ (t = elapseTo s (f.2 + 2 * 38400000))) ∧
    (∃ (t : State) (s : State), ((s.bar.awaiting.any fun f => startGrant f.grant.toNat) = false) ∧ (t = { s with
        host := { revision := s.host.revision }
        bar := { s.bar with
          link := .down, retrain := false, slept := false, trainSince := s.clock
          hostEnd := {}, stewardStall := false, toHost := {}, toField := {}
          bulkToHost := { creditP := 64 }, bulkToField := { creditP := 32, creditN := 8 }, awaiting := [] }
        cmds := { s.cmds with
          outbox := s.cmds.posted.map (·.1) ++ s.cmds.outbox, posted := [], unitAt := 0, repostWait := true } })) :=
  ⟨⟨_, _, sUp, by decide +kernel, rfl, rfl⟩,
   ⟨_, sUp, by decide +kernel, by decide +kernel, rfl⟩,
   ⟨sUp, by decide +kernel⟩,
   ⟨_, sUp, by decide +kernel, by decide +kernel, by decide +kernel, rfl⟩,
   ⟨_, sUp, by decide +kernel, by decide +kernel, by decide +kernel, rfl⟩,
   ⟨true, sUp, by decide +kernel⟩,
   ⟨{ sUp with bar := { link := .training } }, by decide +kernel⟩,
   ⟨{ sUp with bar := { link := .training, retrain := true } }, by decide +kernel⟩,
   ⟨sUp, by decide +kernel⟩,
   ⟨sUp, by decide +kernel⟩,
   ⟨_, { sUp with bar := { link := .training } }, by decide +kernel, by decide +kernel, rfl⟩,
   ⟨{ sUp with bar := {} }, by decide +kernel⟩,
   ⟨_, { sUp with bar := {} }, by decide +kernel, by decide +kernel, by decide +kernel, rfl⟩,
   ⟨{ sUp with pwr := { sUp.pwr with entering := some .umber } }, by decide +kernel⟩,
   ⟨{ sUp with bar := {}, cmds := { outbox := [{ kind := 1, slot := 0, payload := [] }] } }, by decide +kernel⟩,
   ⟨0, _, { sUp with bar := { wakeFrom := some 0, wakes := 1 }, cmds := { outbox := [{ kind := 1, slot := 0, payload := [] }] } }, by decide +kernel, by decide +kernel, by decide +kernel, by decide +kernel, by decide +kernel, rfl⟩,
   ⟨{ sUp with host := { pmt := { active := true } } }, by decide +kernel⟩,
   ⟨(⟨1, 2, 3, 4, 5⟩, 9), [], _, { sUp with bar := { heldEntry := [(⟨1, 2, 3, 4, 5⟩, 9)] } }, by decide +kernel, rfl⟩,
   ⟨_, sUp, by decide +kernel, rfl⟩⟩

theorem wit_HostSpiAndMailbox :
    (∃ (addr : W16) (n : BitVec 13) (l : List Nat) (s : State), (s.clk.hostHeld = false) ∧ (l = addrRun addr.toNat n.toNat)) ∧
    (∃ (s : State), (s.clk.hostHeld = false)) ∧
    (∃ (addr : BitVec 24) (count : Byte) (s : State), (s.clk.hostHeld = false) ∧ (breadBad s addr.toNat count.toNat = true)) ∧
    (∃ (addr : BitVec 24) (count : Byte) (tag : Fin 8) (t : State) (s : State), (s.clk.hostHeld = false) ∧ (breadBad s addr.toNat count.toNat = false) ∧ (s.bar.link = .up) ∧ (s.bar.hostEnd.silent = false) ∧ (s.host.bridge.find? (fun r => r.addr == addr.toNat && r.count == count.toNat) = none) ∧ (freeTag s.host.bridge = some tag) ∧ (s.bar.bulkToField.creditN ≠ 0) ∧ (t = sendBulk s false .read tag (BitVec.ofNat 32 (0x01000000 + addr.toNat)) (zeros (bridgeCut addr.toNat count.toNat)))) ∧
    (∃ (addr : BitVec 24) (count : Byte) (s : State), (s.clk.hostHeld = false) ∧ (breadBad s addr.toNat count.toNat = false) ∧ (s.bar.link ≠ .up)) ∧
    (∃ (addr : BitVec 24) (count : Byte) (r : BridgeRead) (s : State), (s.clk.hostHeld = false) ∧ (breadBad s addr.toNat count.toNat = false) ∧ (s.bar.link = .up) ∧ (s.bar.hostEnd.silent = false) ∧ (s.host.bridge.find? (fun r => r.addr == addr.toNat && r.count == count.toNat) = some r) ∧ (r.done = none)) ∧
    (∃ (addr : BitVec 24) (count : Byte) (clocked : Byte) (r : BridgeRead) (x : W16) (d : Bytes) (t : State) (n : Nat) (s : State), (s.clk.hostHeld = false) ∧ (breadBad s addr.toNat count.toNat = false) ∧ (s.bar.link = .up) ∧ (s.bar.hostEnd.silent = false) ∧ (s.host.bridge.find? (fun r => r.addr == addr.toNat && r.count == count.toNat) = some r) ∧ (r.done = some (x, d)) ∧ (x.toNat = 0) ∧ (n = Nat.min clocked.toNat d.length) ∧ (t = sendResolve { s with host := { s.host with bridge := s.host.bridge.filter fun x => x.tag != r.tag } } r (2 ^ Nat.min 4 n - 1))) ∧
    (∃ (r : BridgeRead) (t : State) (s : State), (s.clk.hostHeld = false) ∧ (s.host.bridge.find? (fun r => r.done.isSome) = some r) ∧ (t = elapseToClock s (r.since + 38400))) ∧
    (∃ (addr : BitVec 24) (data : Bytes) (t : State) (s : State), (s.clk.hostHeld = false) ∧ (addr.toNat = 0x010020 ∨ addr.toNat = 0x06000C) ∧ (4 ≤ data.length) ∧ (s.host.bwrite = none) ∧ (s.bar.link ≠ .up) ∧ (t = { s with lastRead := miso s (3 + data.length) [] })) ∧
    (∃ (addr : BitVec 24) (data : Bytes) (t : State) (s : State), (s.clk.hostHeld = false) ∧ (addr.toNat = 0x010020 ∨ addr.toNat = 0x06000C) ∧ (4 ≤ data.length) ∧ (s.host.bwrite = none) ∧ (s.bar.link = .up) ∧ (waitingWrites s.bar.bulkToField < s.bar.bulkToField.creditP) ∧ (t = { s with lastRead := miso s (3 + data.length) [], host := { s.host with bwrite := none } })) ∧
    (∃ (addr : BitVec 24) (data : Bytes) (t : State) (s : State), (s.clk.hostHeld = false) ∧ (addr.toNat = 0x010020 ∨ addr.toNat = 0x06000C) ∧ (4 ≤ data.length) ∧ (s.host.bwrite = none) ∧ (s.bar.link = .up) ∧ (s.bar.bulkToField.creditP ≤ waitingWrites s.bar.bulkToField) ∧ (t = { s with lastRead := miso s (3 + data.length) [] })) ∧
    (∃ (addr : BitVec 24) (data : Bytes) (s : State), (s.clk.hostHeld = false) ∧ ((addr.toNat ≠ 0x010020 ∧ addr.toNat ≠ 0x06000C) ∨ data.length < 4)) ∧
    (∃ (s : State), (s.clk.hostHeld = false)) ∧
    (∃ (v : W32) (t : State) (s : State), (s.clk.hostHeld = false) ∧ (bitsOf v 12 4 ≠ 0) ∧ (bitsOf v 12 4 ≤ 256) ∧ (bitAt s.host.mbBusy.toNat (bitsOf v 3 0) = false) ∧ (s.host.stageLeft = 0) ∧ (s.bar.link = .up) ∧ (t = sendBulk (stageSend s (256 * bitsOf v 3 0) 0 (memReadBytes s.host.stage 0 (bitsOf v 12 4)) (ceilDiv (bitsOf v 12 4) 64))
      false .write 0 0x1000 (leBytes 4 (bitsOf v 3 0 + 16 * bitsOf v 12 4)))) ∧
    (∃ (v : W32) (s : State), (s.clk.hostHeld = false) ∧ (bitsOf v 12 4 = 0 ∨ 256 < bitsOf v 12 4 ∨ bitAt s.host.mbBusy.toNat (bitsOf v 3 0) = true)) ∧
    (∃ (r : RxRecord) (rs : List RxRecord) (s : State), (s.clk.hostHeld = false) ∧ (visibleRecords s.host = r :: rs)) ∧
    (∃ (s : State), (s.clk.hostHeld = false) ∧ (s.bar.link ≠ .up)) ∧
    (∃ (n : BitVec 3) (l : List Nat) (s : State), (s.clk.hostHeld = false) ∧ (l = addrRun 0x0224 (Nat.min 4 n.toNat))) ∧
    (∃ (s : State), (s.clk.hostHeld = false)) :=
  ⟨⟨0, 4, _, State.reset, by decide +kernel, rfl⟩,
   ⟨State.reset, by decide +kernel⟩,
   ⟨0, 3, State.reset, by decide +kernel⟩,
   ⟨0x050000, 4, 0, _, sUp, by decide +kernel, by decide +kernel, by decide +kernel, by decide +kernel, by decide +kernel, by decide +kernel, by decide +kernel, rfl⟩,
   ⟨0x050000, 4, State.reset, by decide +kernel⟩,
   ⟨0x050000, 4, ⟨1, 0x050000, 4, 4, 0, none⟩, { sUp with host := { bridge := [⟨1, 0x050000, 4, 4, 0, none⟩] } }, by decide +kernel⟩,
   ⟨0x050000, 4, 4, ⟨1, 0x050000, 4, 4, 0, some (0, [1, 2, 3, 4])⟩, 0, [1, 2, 3, 4], _, 4, { sUp with host := { bridge := [⟨1, 0x050000, 4, 4, 0, some (0, [1, 2, 3, 4])⟩] } }, by decide +kernel, by decide +kernel, by decide +kernel, by decide +kernel, by decide +kernel, by decide +kernel, by decide +kernel, rfl, rfl⟩,
   ⟨⟨1, 0, 4, 4, 0, some (0, [])⟩, _, { sUp with host := { bridge := [⟨1, 0, 4, 4, 0, some (0, [])⟩] } }, by decide +kernel, by decide +kernel, rfl⟩,
   ⟨0x010020, [1, 2, 3, 4], _, State.reset, by decide +kernel, by decide +kernel, by decide +kernel, by decide +kernel, by decide +kernel, rfl⟩,
   ⟨0x010020, [1, 2, 3, 4], _, { sUp with bar := { sUp.bar with bulkToField := { creditP := 32, creditN := 8 } } }, by decide +kernel, by decide +kernel, by decide +kernel, by decide +kernel, by decide +kernel, by decide +kernel, rfl⟩,
   ⟨0x06000C, [1, 2, 3, 4, 5], _, { sUp with bar := { sUp.bar with bulkToField := {} } }, by decide +kernel, by decide +kernel, by decide +kernel, by decide +kernel, by decide +kernel, by decide +kernel, rfl⟩,
   ⟨0, [1, 2, 3, 4], State.reset, by decide +kernel⟩,
   ⟨State.reset, by decide +kernel⟩,
   ⟨0x85, _, sUp, by decide +kernel, by decide +kernel, by decide +kernel, by decide +kernel, by decide +kernel, by decide +kernel, rfl⟩,
   ⟨5, sUp, by decide +kernel⟩,
   ⟨⟨1, 3, 0, false, 0, [], 0, 1, true, false⟩, [], { sUp with host := { rxq := [⟨1, 3, 0, false, 0, [], 0, 1, true, false⟩] } }, by decide +kernel⟩,
   ⟨State.reset, by decide +kernel⟩,
   ⟨4, _, State.reset, by decide +kernel, rfl⟩,
   ⟨State.reset, by decide +kernel⟩⟩

theorem wit_HostVehicleStateAndPermit :
    (∃ (v : W32) (s : State), (s.clk.hostHeld = false) ∧ (s.host.vs.srcCan = false) ∧ (crc8J1850 [s.host.vs.dataId, byte (bitsOf v 7 0), byte (bitsOf v 15 8)] = bitsOf v 23 16) ∧ (cntOk s.host.vs.lastCnt (BitVec.ofNat 4 (bitsOf v 11 8)) = true)) ∧
    (∃ (v : W32) (s : State), (s.clk.hostHeld = false) ∧ (s.host.vs.srcCan = false) ∧ (crc8J1850 [s.host.vs.dataId, byte (bitsOf v 7 0), byte (bitsOf v 15 8)] ≠ bitsOf v 23 16 ∨ cntOk s.host.vs.lastCnt (BitVec.ofNat 4 (bitsOf v 11 8)) = false)) ∧
    (∃ (s : State), (s.clk.hostHeld = false) ∧ (s.host.vs.srcCan = true)) ∧
    (∃ (s : State), (s.clk.hostHeld = false) ∧ (s.bar.link ≠ .down)) ∧
    (∃ (v : W32) (t : VehicleState) (s : State), (s.clk.hostHeld = false) ∧ (s.host.vs.lock = false) ∧ (bitAt v.toNat 0 = s.host.vs.srcCan) ∧ (t = { s.host.vs with
        srcCan := bitAt v.toNat 0, dataId := BitVec.ofNat 8 (bitsOf v 15 8)
        timeout := if 10 ≤ bitsOf v 25 16 ∧ bitsOf v 25 16 ≤ 1000 then BitVec.ofNat 10 (bitsOf v 25 16) else s.host.vs.timeout
        lock := bitAt v.toNat 26 })) ∧
    (∃ (s : State), (s.clk.hostHeld = false) ∧ (s.host.vs.lock = true)) ∧
    (∃ (s : State), (s.clk.hostHeld = false)) ∧
    (∃ (t : State) (s : State), (s.clk.hostHeld = false) ∧ (s.host.vs.valid = true) ∧ (s.host.vs.srcCan = false) ∧ (t = elapseToClock s (s.host.vs.lastAccept + 38400 * s.host.vs.timeout.toNat))) ∧
    (∃ (level : Bool) (n : Nat) (t : State) (s : State), (s.clk.hostHeld = false) ∧ (n = sampleDue s) ∧ (t = elapseToClock s n) ∧ (t.host.pmt.readbackFault = false) ∧ (level = (permitPins t.host.pmt n).1)) ∧
    (∃ (level : Bool) (n : Nat) (t : State) (s : State), (s.clk.hostHeld = false) ∧ (n = sampleDue s) ∧ (t = elapseToClock s n) ∧ (t.host.pmt.readbackFault = false) ∧ (level ≠ (permitPins t.host.pmt n).1) ∧ (t.host.pmt.wrong = 0)) ∧
    (∃ (level : Bool) (n : Nat) (t : State) (u : Permit) (s : State), (s.clk.hostHeld = false) ∧ (n = sampleDue s) ∧ (t = elapseToClock s n) ∧ (t.host.pmt.readbackFault = false) ∧ (level ≠ (permitPins t.host.pmt n).1) ∧ (1 ≤ t.host.pmt.wrong) ∧ (u = { t.host.pmt with fb := level, fbNext := n + 19200, wrong := t.host.pmt.wrong + 1 })) ∧
    (∃ (a : State) (s : State), (s.clk.hostHeld = false) ∧ (s.host.pmt.readbackFault = false) ∧ (a = readbackSample s (!(permitPins s.host.pmt (sampleDue s)).1))) ∧
    (∃ (s : State), (s.clk.hostHeld = false) ∧ (s.host.pmt.readbackFault = true) ∧ (200 ≤ s.host.pmt.correct)) ∧
    (∃ (s : State), (s.clk.hostHeld = false) ∧ (s.host.pmt.correct < 200)) ∧
    (∃ (d : Fin 4) (high : Bool) (t : State) (m : BitVec 4) (s : State), (s.clk.hostHeld = false) ∧ (bitAt s.host.doors.en.toNat d.val = true) ∧ (high ≠ bitAt s.host.doors.pol.toNat d.val) ∧ (bitAt s.host.doors.debounced.toNat d.val = false) ∧ (t = elapseToClock s (doorSample8 s)) ∧ (m = BitVec.ofNat 4 (2 ^ d.val))) ∧
    (∃ (d : Fin 4) (high : Bool) (t : State) (m : BitVec 4) (s : State), (s.clk.hostHeld = false) ∧ (bitAt s.host.doors.en.toNat d.val = true) ∧ (high = bitAt s.host.doors.pol.toNat d.val) ∧ (bitAt s.host.doors.debounced.toNat d.val = true) ∧ (t = elapseToClock s (doorSample8 s)) ∧ (m = BitVec.ofNat 4 (2 ^ d.val))) :=
  ⟨⟨0xF10000, State.reset, by decide +kernel⟩,
   ⟨5, State.reset, by decide +kernel⟩,
   ⟨{ State.reset with host := { vs := { srcCan := true } } }, by decide +kernel⟩,
   ⟨sUp, by decide +kernel⟩,
   ⟨0x400, _, State.reset, by decide +kernel, by decide +kernel, by decide +kernel, rfl⟩,
   ⟨{ State.reset with host := { vs := { lock := true } } }, by decide +kernel⟩,
   ⟨State.reset, by decide +kernel⟩,
   ⟨_, { State.reset with host := { vs := { valid := true } } }, by decide +kernel, by decide +kernel, by decide +kernel, rfl⟩,
   ⟨false, _, _, State.reset, by decide +kernel, rfl, rfl, by decide +kernel, rfl⟩,
   ⟨true, _, _, State.reset, by decide +kernel, rfl, rfl, by decide +kernel⟩,
   ⟨true, _, _, _, { State.reset with host := { pmt := { wrong := 1 } } }, by decide +kernel, rfl, rfl, by decide +kernel, by decide +kernel, by decide +kernel, rfl⟩,
   ⟨_, State.reset, by decide +kernel, by decide +kernel, rfl⟩,
   ⟨{ State.reset with host := { pmt := { readbackFault := true, correct := 200 } } }, by decide +kernel⟩,
   ⟨State.reset, by decide +kernel⟩,
   ⟨2, true, _, _, State.reset, by decide +kernel, by decide +kernel, by decide +kernel, by decide +kernel, rfl, rfl⟩,
   ⟨2, false, _, _, { State.reset with host := { doors := { debounced := 15 } } }, by decide +kernel, by decide +kernel, rfl, by decide +kernel, rfl, rfl⟩⟩

theorem wit_LegacyWindowCommands :
    (∃ (s : State), (s.clk.hostHeld = false) ∧ (lwActs s = true) ∧ (s.keys.svcLock = false)) ∧
    (∃ (s : State), (s.clk.hostHeld = false) ∧ (lwActs s = true)) ∧
    (∃ (s : State), (s.clk.hostHeld = false) ∧ (s.pwr.pstate = .chalk) ∧ (s.keys.svcLock = true)) ∧
    (∃ (s : State), (s.clk.hostHeld = false) ∧ (lwServes s = true)) ∧
    (∃ (s : State), (s.clk.hostHeld = false) ∧ (lwActs s = true) ∧ (welOn s = true)) ∧
    (∃ (s : State), (s.clk.hostHeld = false) ∧ (lwActs s = true)) ∧
    (∃ (addr : W16) (data : Bytes) (s : State), (s.clk.hostHeld = false) ∧ (lwActs s = true) ∧ (welOn s = true) ∧ (data.isEmpty = false) ∧ (lwProtected (lwBp s.orr) (addr.toNat % 8192) = false)) ∧
    (∃ (s : State), (s.clk.hostHeld = false) ∧ (s.pwr.pstate ≠ .chalk)) ∧
    (∃ (s : State), (s.clk.hostHeld = false) ∧ (s.pwr.pstate ≠ .chalk)) ∧
    (∃ (s : State), (s.clk.hostHeld = false) ∧ (s.pwr.pstate ≠ .chalk)) ∧
    (∃ (s : State), (s.clk.hostHeld = false) ∧ (s.pwr.pstate ≠ .chalk)) ∧
    (∃ (s : State), (s.clk.hostHeld = false) ∧ (s.pwr.pstate ≠ .chalk)) ∧
    (∃ (s : State), (s.clk.hostHeld = false) ∧ (s.pwr.pstate ≠ .chalk)) ∧
    (∃ (addr : W16) (s : State), (s.clk.hostHeld = false) ∧ (lwActs s = true) ∧ (welOn s = true) ∧ (lwProtected (lwBp s.orr) (addr.toNat % 8192) = true)) ∧
    (∃ (s : State), (s.clk.hostHeld = false) ∧ (lwActs s = true) ∧ (welOn s = false)) ∧
    (∃ (s : State), (s.clk.hostHeld = false) ∧ (lwActs s = true) ∧ (welOn s = false)) :=
  ⟨⟨sUp, by decide +kernel⟩,
   ⟨sUp, by decide +kernel⟩,
   ⟨{ sUp with keys := { svcLock := true } }, by decide +kernel⟩,
   ⟨sUp, by decide +kernel⟩,
   ⟨{ sUp with orr := { wel := true } }, by decide +kernel⟩,
   ⟨sUp, by decide +kernel⟩,
   ⟨5, [7], { sUp with orr := { wel := true } }, by decide +kernel⟩,
   ⟨{ sUp with pwr := { sUp.pwr with pstate := .umber } }, by decide +kernel⟩,
   ⟨{ sUp with pwr := { sUp.pwr with pstate := .umber } }, by decide +kernel⟩,
   ⟨{ sUp with pwr := { sUp.pwr with pstate := .umber } }, by decide +kernel⟩,
   ⟨{ sUp with pwr := { sUp.pwr with pstate := .umber } }, by decide +kernel⟩,
   ⟨{ sUp with pwr := { sUp.pwr with pstate := .umber } }, by decide +kernel⟩,
   ⟨{ sUp with pwr := { sUp.pwr with pstate := .umber } }, by decide +kernel⟩,
   ⟨5, { sUp with orr := { wel := true, lwStatus := nvHolds (padTo 32 [3]) } }, by decide +kernel⟩,
   ⟨{ sUp with keys := { svcLock := true }, orr := { wel := true } }, by decide +kernel⟩,
   ⟨{ sUp with keys := { svcLock := true }, orr := { wel := true } }, by decide +kernel⟩⟩

theorem wit_CanAndJ1939 :
    (∃ (data : Vector Byte 8) (s : State), (s.clk.hostHeld = false) ∧ (canOn s.host.can = true) ∧ (canEng s.host.can = true) ∧ (s.host.vs.srcCan = false) ∧ ((crc8J1850 (s.host.can.dataIdEng :: data.toList.drop 1) == byteAt data.toList 0) = true)) ∧
    (∃ (data : Vector Byte 8) (d : Bytes) (t : State) (s : State), (s.clk.hostHeld = false) ∧ (canOn s.host.can = true) ∧ (canEng s.host.can = true) ∧ (d = data.toList) ∧ (s.host.vs.srcCan = true) ∧ ((crc8J1850 (s.host.can.dataIdEng :: d.drop 1) == byteAt d 0) = true) ∧ (cntOk s.host.vs.lastCnt (BitVec.ofNat 4 (byteAt d 1)) = true) ∧ (t = reportAccepted s (BitVec.ofNat 4 (byteAt d 1)) (byteAt d 1 / 16))) ∧
    (∃ (data : Vector Byte 8) (d : Bytes) (s : State), (s.clk.hostHeld = false) ∧ (canOn s.host.can = true) ∧ (canEng s.host.can = true) ∧ (d = data.toList) ∧ (s.host.vs.srcCan = true) ∧ ((crc8J1850 (s.host.can.dataIdEng :: d.drop 1) == byteAt d 0) = false)) ∧
    (∃ (s : State), (s.clk.hostHeld = false) ∧ (canSends s.host.can = true) ∧ (canEng s.host.can = true) ∧ (immoChanged s = true)) ∧
    (∃ (s : State), (s.clk.hostHeld = false) ∧ (canSends s.host.can = true) ∧ (canEng s.host.can = true)) ∧
    (∃ (data : Vector Byte 8) (d : Bytes) (s : State), (s.clk.hostHeld = false) ∧ (d = data.toList) ∧ (canOn s.host.can = true) ∧ (canJ1939 s.host.can = true) ∧ (byteAt d 0 = 0x4C) ∧ (byteAt d 6 ≤ 1) ∧ (s.host.can.xfer = none) ∧ (byteAt d 5 ≠ 0) ∧ (byteAt d 5 ≤ 27) ∧ (s.bar.link = .up)) ∧
    (∃ (data : Vector Byte 8) (d : Bytes) (s : State), (s.clk.hostHeld = false) ∧ (d = data.toList) ∧ (canOn s.host.can = true) ∧ (canJ1939 s.host.can = true) ∧ (byteAt d 0 = 0x4C) ∧ (byteAt d 6 ≤ 1) ∧ (s.host.can.xfer.isSome = true)) ∧
    (∃ (data : Vector Byte 8) (d : Bytes) (s : State), (s.clk.hostHeld = false) ∧ (d = data.toList) ∧ (canOn s.host.can = true) ∧ (canJ1939 s.host.can = true) ∧ (byteAt d 0 = 0x4C) ∧ (byteAt d 6 ≤ 1) ∧ (s.host.can.xfer = none) ∧ (byteAt d 5 = 0 ∨ 27 < byteAt d 5)) ∧
    (∃ (x : J1939Export) (s : State), (s.clk.hostHeld = false) ∧ (s.host.can.xfer = some x) ∧ (x.record = none)) ∧
    (∃ (x : J1939Export) (r : Bytes) (s : State), (s.clk.hostHeld = false) ∧ (s.host.can.xfer = some x) ∧ (x.record = some r) ∧ (x.cm = false) ∧ (canSends s.host.can = true)) ∧
    (∃ (x : J1939Export) (r : Bytes) (n : Byte) (b : Byte) (s : State), (s.clk.hostHeld = false) ∧ (s.host.can.xfer = some x) ∧ (x.record = some r) ∧ (x.cm = true) ∧ (canSends s.host.can = true) ∧ (n ≠ 0) ∧ (b ≠ 0) ∧ (b.toNat ≤ ceilDiv r.length 7)) ∧
    (∃ (x : J1939Export) (s : State), (s.clk.hostHeld = false) ∧ (s.host.can.xfer = some x) ∧ (x.cm = true) ∧ (x.record.isSome = true)) ∧
    (∃ (s : State), (s.clk.hostHeld = false) ∧ (bitAt s.host.can.ctrl.toNat 0 = true)) ∧
    (∃ (s : State), (s.clk.hostHeld = false) ∧ (bitAt s.host.can.ctrl.toNat 0 = true) ∧ (s.host.can.errState = 2)) :=
  ⟨⟨#v[byte (crc8J1850 (List.replicate 8 0)), 0, 0, 0, 0, 0, 0, 0], { State.reset with host := { can := { ctrl := 0x77 } } }, by decide +kernel⟩,
   ⟨#v[byte (crc8J1850 (List.replicate 8 0)), 0, 0, 0, 0, 0, 0, 0], _, _, { State.reset with host := { vs := { srcCan := true }, can := { ctrl := 0x77 } } }, by decide +kernel, by decide +kernel, by decide +kernel, rfl, by decide +kernel, by decide +kernel, by decide +kernel, rfl⟩,
   ⟨#v[byte (crc8J1850 (List.replicate 8 0) + 1), 0, 0, 0, 0, 0, 0, 0], _, { State.reset with host := { vs := { srcCan := true }, can := { ctrl := 0x77 } } }, by decide +kernel, by decide +kernel, by decide +kernel, rfl, by decide +kernel⟩,
   ⟨{ sUp with host := { can := { ctrl := 0x77 } } }, by decide +kernel⟩,
   ⟨{ State.reset with host := { can := { ctrl := 0x77 } } }, by decide +kernel⟩,
   ⟨#v[0x4C, 0, 0, 0, 0, 3, 0, 0], _, { sUp with host := { can := { ctrl := 0x77 } } }, by decide +kernel, rfl, by decide +kernel⟩,
   ⟨#v[0x4C, 0, 0, 0, 0, 3, 0, 0], _, { sUp with host := { can := { ctrl := 0x77, xfer := some { first := 0, count := 1, cm := false, since := 0 } } } }, by decide +kernel, rfl, by decide +kernel⟩,
   ⟨#v[0x4C, 0, 0, 0, 0, 0, 0, 0], _, { sUp with host := { can := { ctrl := 0x77 } } }, by decide +kernel, rfl, by decide +kernel⟩,
   ⟨{ first := 0, count := 1, cm := false, since := 0 }, { sUp with host := { can := { xfer := some { first := 0, count := 1, cm := false, since := 0 } } } }, by decide +kernel⟩,
   ⟨{ first := 0, count := 1, cm := false, since := 0, record := some [1] }, [1], { sUp with host := { can := { ctrl := 0x77, xfer := some { first := 0, count := 1, cm := false, since := 0, record := some [1] } } } }, by decide +kernel⟩,
   ⟨{ first := 0, count := 1, cm := true, since := 0, record := some [1] }, [1], 1, 1, { sUp with host := { can := { ctrl := 0x77, xfer := some { first := 0, count := 1, cm := true, since := 0, record := some [1] } } } }, by decide +kernel⟩,
   ⟨{ first := 0, count := 1, cm := true, since := 0, record := some [1] }, { sUp with host := { can := { ctrl := 0x77, xfer := some { first := 0, count := 1, cm := true, since := 0, record := some [1] } } } }, by decide +kernel⟩,
   ⟨{ sUp with host := { can := { ctrl := 0x77 } } }, by decide +kernel⟩,
   ⟨{ sUp with host := { can := { ctrl := 0x77, errState := 2 } } }, by decide +kernel⟩⟩

theorem wit_RegisterWrites :
    (∃ (n : Fin 128) (s : State), (entryActive (entryOf s n) = false)) ∧
    (∃ (n : Fin 128) (s : State), (entryActive (entryOf s n) = true)) ∧
    (∃ (v : W32) , (8000 ≤ bitsOf v 15 0) ∧ (bitsOf v 15 0 ≤ 60000)) :=
  ⟨⟨3, State.reset, by decide +kernel⟩,
   ⟨3, sEntry { state := .armed }, by decide +kernel⟩,
   ⟨0xC350, by decide +kernel⟩⟩

theorem wit_SystemCommands :
    (∃ (c : CmdRec) (rest : List CmdRec) (t : State) (s : State), (nextServed s 0x0101 c rest) ∧ (t = taken s rest) ∧ (c.bytes.length = 4) ∧ (t.boot.running ≠ .none)) ∧
    (∃ (c : CmdRec) (rest : List CmdRec) (t : State) (s : State), (nextServed s 0x0102 c rest) ∧ (t = taken s rest) ∧ (c.bytes.length ≤ 252)) ∧
    (∃ (c : CmdRec) (rest : List CmdRec) (x : Bytes) (u : State) (t : State) (s : State), (nextServed s 0x0102 c rest) ∧ (t = taken s rest) ∧ (252 < c.bytes.length) ∧ (c.bytes.length ≤ 256) ∧ (x = (drawBytes t 3).1) ∧ (u = (drawBytes t 3).2)) ∧
    (∃ (c : CmdRec) (rest : List CmdRec) (t : State) (s : State), (nextServed s 0x0103 c rest) ∧ (t = taken s rest) ∧ (c.bytes.length = 4)) ∧
    (∃ (c : CmdRec) (rest : List CmdRec) (t : State) (s : State), (nextServed s 0x0104 c rest) ∧ (t = taken s rest) ∧ (c.bytes.length = 12) ∧ (leAt c.bytes 8 2 ≤ 1023) ∧ (byteAt c.bytes 10 = 0) ∧ (byteAt c.bytes 11 = 0)) ∧
    (∃ (c : CmdRec) (rest : List CmdRec) (x : Bytes) (issued : Nat) (u : State) (t : State) (s : State), (nextServed s 0x0104 c rest) ∧ (t = taken s rest) ∧ (c.bytes.length = 76) ∧ (leAt c.bytes 8 2 ≤ 1023) ∧ (byteAt c.bytes 10 = 1) ∧ (byteAt c.bytes 11 = 0) ∧ (t.creds.chal = some (x, issued)) ∧ ((slotAt t 172).state = .valid) ∧ (rtcNow t ≤ issued + 600) ∧ (u = { t with creds := { t.creds with chal := none } })) ∧
    (∃ (c : CmdRec) (rest : List CmdRec) (t : State) (s : State), (nextServed s 0x0105 c rest) ∧ (t = taken s rest) ∧ (c.bytes.length = 8) ∧ (byteAt c.bytes 4 = 0) ∧ (allZero (slice c.bytes 5 3) = true)) ∧
    (∃ (c : CmdRec) (rest : List CmdRec) (t : State) (s : State), (nextServed s 0x0105 c rest) ∧ (t = taken s rest) ∧ (c.bytes.length = 8) ∧ (byteAt c.bytes 4 = 1) ∧ (allZero (slice c.bytes 5 3) = true)) ∧
    (∃ (c : CmdRec) (rest : List CmdRec) (x : RestTarget) (t : State) (s : State), (nextServed s 0x0106 c rest) ∧ (t = taken s rest) ∧ (c.bytes.length = 8) ∧ (1 ≤ byteAt c.bytes 4) ∧ (byteAt c.bytes 4 ≤ 3) ∧ (allZero (slice c.bytes 5 3) = true) ∧ (x = restOf (byteAt c.bytes 4)) ∧ (x ≠ .amber ∨ (amberEn t = true ∧ t.keys.svcLock = false)) ∧ (approachRuns t = false) ∧ (sessionOpen t = false) ∧ (t.pres.startReq = none) ∧ (t.cmds.longs = [])) ∧
    (∃ (c : CmdRec) (rest : List CmdRec) (t : State) (s : State), (nextServed s 0x0107 c rest) ∧ (t = taken s rest) ∧ (c.bytes.length = 8) ∧ (leAt c.bytes 4 2 % 2 = 0) ∧ (leAt c.bytes 4 2 < 4096) ∧ (leAt c.bytes 6 2 = 0)) :=
  ⟨⟨cmdRec ([1, 1, 0, 0]), [], _, sCmd (sBlank) ([1, 1, 0, 0]), by decide +kernel, rfl, by decide +kernel⟩,
   ⟨cmdRec ([2, 1, 0, 0, 7, 8]), [], _, sCmd (sBlank) ([2, 1, 0, 0, 7, 8]), by decide +kernel, rfl, by decide +kernel⟩,
   ⟨cmdRec ([2, 1, 0, 0] ++ zeros 250), [], _, _, _, sCmd (sBlank) ([2, 1, 0, 0] ++ zeros 250), by decide +kernel, rfl, by decide +kernel, by decide +kernel, rfl, rfl⟩,
   ⟨cmdRec ([3, 1, 0, 0]), [], _, sCmd (sBlank) ([3, 1, 0, 0]), by decide +kernel, rfl, by decide +kernel⟩,
   ⟨cmdRec ([4, 1, 0, 0, 9, 0, 0, 0, 0, 2, 0, 0]), [], _, sCmd (sBlank) ([4, 1, 0, 0, 9, 0, 0, 0, 0, 2, 0, 0]), by decide +kernel, rfl, by decide +kernel⟩,
   ⟨cmdRec ([4, 1, 0, 0, 9, 0, 0, 0, 0, 2, 1, 0] ++ zeros 64), [], zeros 16, 5, _, _, sCmd (sChal) ([4, 1, 0, 0, 9, 0, 0, 0, 0, 2, 1, 0] ++ zeros 64), by decide +kernel, rfl, by decide +kernel, by decide +kernel, by decide +kernel, by decide +kernel, by decide +kernel, by decide +kernel, by decide +kernel, rfl⟩,
   ⟨cmdRec ([5, 1, 0, 0, 0, 0, 0, 0]), [], _, sCmd (sBlank) ([5, 1, 0, 0, 0, 0, 0, 0]), by decide +kernel, rfl, by decide +kernel⟩,
   ⟨cmdRec ([5, 1, 0, 0, 1, 0, 0, 0]), [], _, sCmd (sBlank) ([5, 1, 0, 0, 1, 0, 0, 0]), by decide +kernel, rfl, by decide +kernel⟩,
   ⟨cmdRec ([6, 1, 0, 0, 1, 0, 0, 0]), [], _, _, sCmd (sBlank) ([6, 1, 0, 0, 1, 0, 0, 0]), by decide +kernel, rfl, by decide +kernel, by decide +kernel, by decide +kernel, by decide +kernel, rfl, by decide +kernel⟩,
   ⟨cmdRec ([7, 1, 0, 0, 2, 1, 0, 0]), [], _, sCmd (sBlank) ([7, 1, 0, 0, 2, 1, 0, 0]), by decide +kernel, rfl, by decide +kernel⟩⟩

theorem wit_PresenceCommands :
    (∃ (c : CmdRec) (rest : List CmdRec) (t : State) (s : State), (nextServed s 0x0201 c rest) ∧ (t = taken s rest) ∧ (c.bytes.length = 8) ∧ (byteAt c.bytes 4 ≤ 1) ∧ (byteAt c.bytes 5 ≤ 1) ∧ (leAt c.bytes 6 2 = 0)) ∧
    (∃ (c : CmdRec) (rest : List CmdRec) (t : State) (s : State), (nextServed s 0x0202 c rest) ∧ (t = taken s rest) ∧ (c.bytes.length = 8) ∧ (lcOf t = .provisioned ∨ lcOf t = .fielded) ∧ (byteAt c.bytes 4 ≠ 0) ∧ (byteAt c.bytes 4 ≤ 15) ∧ (allZero (slice c.bytes 5 3) = true)) ∧
    (∃ (c : CmdRec) (rest : List CmdRec) (t : State) (s : State), (nextServed s 0x0203 c rest) ∧ (t = taken s rest) ∧ (c.bytes.length = 4) ∧ (lcOf t = .provisioned ∨ lcOf t = .fielded)) ∧
    (∃ (c : CmdRec) (rest : List CmdRec) (t : State) (s : State), (nextServed s 0x0204 c rest) ∧ (t = taken s rest) ∧ (c.bytes.length = 8) ∧ (byteAt c.bytes 4 ≤ 3) ∧ (byteAt c.bytes 5 ≤ 1) ∧ (leAt c.bytes 6 2 = 0) ∧ (vgetN t.cmds.doors (byteAt c.bytes 4) none = some (byteAt c.bytes 5 == 1))) ∧
    (∃ (c : CmdRec) (rest : List CmdRec) (u : State) (t : State) (s : State), (nextServed s 0x0204 c rest) ∧ (t = taken s rest) ∧ (c.bytes.length = 8) ∧ (byteAt c.bytes 4 ≤ 3) ∧ (byteAt c.bytes 5 ≤ 1) ∧ (leAt c.bytes 6 2 = 0) ∧ (vgetN t.cmds.doors (byteAt c.bytes 4) none ≠ some (byteAt c.bytes 5 == 1)) ∧ (ledgerHostRoom t = true) ∧ (u = ledgerAdd { t with cmds := { t.cmds with doors := vmodN t.cmds.doors (byteAt c.bytes 4) fun _ => some (byteAt c.bytes 5 == 1) } }
      4 0 0 none [byte (byteAt c.bytes 4), byte (b2n (byteAt c.bytes 5 == 1)), 1])) ∧
    (∃ (c : CmdRec) (rest : List CmdRec) (t : State) (s : State), (nextServed s 0x0205 c rest) ∧ (t = taken s rest) ∧ (c.bytes.length = 4)) :=
  ⟨⟨cmdRec ([1, 2, 0, 0, 1, 1, 0, 0]), [], _, sCmd (sProvd) ([1, 2, 0, 0, 1, 1, 0, 0]), by decide +kernel, rfl, by decide +kernel⟩,
   ⟨cmdRec ([2, 2, 0, 0, 1, 0, 0, 0]), [], _, sCmd (sField) ([2, 2, 0, 0, 1, 0, 0, 0]), by decide +kernel, rfl, by decide +kernel⟩,
   ⟨cmdRec ([3, 2, 0, 0]), [], _, sCmd (sField) ([3, 2, 0, 0]), by decide +kernel, rfl, by decide +kernel⟩,
   ⟨cmdRec ([4, 2, 0, 0, 1, 1, 0, 0]), [], _, sCmd ({ sField with cmds := { doors := vmodN sField.cmds.doors 1 fun _ => some true } }) ([4, 2, 0, 0, 1, 1, 0, 0]), by decide +kernel, rfl, by decide +kernel⟩,
   ⟨cmdRec ([4, 2, 0, 0, 1, 1, 0, 0]), [], _, _, sCmd (sField) ([4, 2, 0, 0, 1, 1, 0, 0]), by decide +kernel, rfl, by decide +kernel, by decide +kernel, by decide +kernel, by decide +kernel, by decide +kernel, by decide +kernel, rfl⟩,
   ⟨cmdRec ([5, 2, 0, 0]), [], _, sCmd (sField) ([5, 2, 0, 0]), by decide +kernel, rfl, by decide +kernel⟩⟩

theorem wit_RosterCommands :
    (∃ (c : CmdRec) (rest : List CmdRec) (t : State) (s : State), (nextServed s 0x0301 c rest) ∧ (t = taken s rest) ∧ (c.bytes.length = 8) ∧ (byteAt c.bytes 4 ≤ 1) ∧ (byteAt c.bytes 5 = 0xC5) ∧ (leAt c.bytes 6 2 = 0) ∧ (genSpent t slotRw = false) ∧ (genSpent t slotEpoch = false)) ∧
    (∃ (c : CmdRec) (rest : List CmdRec) (x : Fin 160) (r : State × Status) (t : State) (s : State), (nextServed s 0x0302 c rest) ∧ (t = taken s rest) ∧ (c.bytes.length = 205) ∧ (t.keys.depot = false) ∧ (byteAt c.bytes 4 ≤ 15) ∧ (allZero (slice c.bytes 5 3) = true) ∧ (ctxN (byteAt c.bytes 4) = some x) ∧ (byteAt c.bytes 17 = x.val) ∧ (((List.finRange 160).any fun y => y ≠ x && (t.ctxs[y]).valid && (t.ctxs[y]).id == BitVec.ofNat 64 (beAt c.bytes 8 8)) = false) ∧ (r = importWrapped t (c.bytes.drop 16))) ∧
    (∃ (c : CmdRec) (rest : List CmdRec) (x : Fin 160) (r : State × Status) (t : State) (s : State), (nextServed s 0x0303 c rest) ∧ (t = taken s rest) ∧ (c.bytes.length = 197) ∧ (t.keys.depot = false) ∧ (byteAt c.bytes 4 ≤ 15) ∧ (allZero (slice c.bytes 5 3) = true) ∧ (ctxN (byteAt c.bytes 4) = some x) ∧ ((t.ctxs[x]).valid = true) ∧ ((slotAt t (slotKt x)).state = .valid) ∧ (byteAt c.bytes 9 = 16 + x.val) ∧ (r = importWrapped t (c.bytes.drop 8))) ∧
    (∃ (c : CmdRec) (rest : List CmdRec) (x : Fin 160) (u : State) (t : State) (s : State), (nextServed s 0x0304 c rest) ∧ (t = taken s rest) ∧ (c.bytes.length = 8) ∧ (t.keys.depot = false) ∧ (byteAt c.bytes 4 ≤ 15) ∧ (allZero (slice c.bytes 5 3) = true) ∧ (ctxN (byteAt c.bytes 4) = some x) ∧ (genSpent t (slotKt x) = false) ∧ (genSpent t (slotKhf x) = false) ∧ (u = (invalidate (invalidate t (slotKt x)).1 (slotKhf x)).1)) ∧
    (∃ (c : CmdRec) (rest : List CmdRec) (r : State × Status) (t : State) (s : State), (nextServed s 0x0305 c rest) ∧ (t = taken s rest) ∧ (c.bytes.length = 4) ∧ (t.keys.depot = true) ∧ (t.cmds.area1.verified = true) ∧ (unheld t .staging = true) ∧ (r = loadBatch t t.cmds.area1.body)) ∧
    (∃ (c : CmdRec) (rest : List CmdRec) (t : State) (s : State), (nextServed s 0x0306 c rest) ∧ (t = taken s rest) ∧ (c.bytes.length = 8) ∧ (byteAt c.bytes 5 ≠ 0) ∧ (byteAt c.bytes 5 ≤ 15) ∧ (leAt c.bytes 6 2 = 0) ∧ (byteAt c.bytes 4 + byteAt c.bytes 5 ≤ (if t.keys.depot then 160 else 16))) :=
  ⟨⟨cmdRec ([1, 3, 0, 0, 1, 0xC5, 0, 0]), [], _, sCmd (sProvd) ([1, 3, 0, 0, 1, 0xC5, 0, 0]), by decide +kernel, rfl, by decide +kernel⟩,
   ⟨cmdRec ([2, 3, 0, 0, 3, 0, 0, 0, 0, 0, 0, 0, 0, 0, 0, 9, 0, 3] ++ zeros 187), [], 3, _, _, sCmd (sProvd) ([2, 3, 0, 0, 3, 0, 0, 0, 0, 0, 0, 0, 0, 0, 0, 9, 0, 3] ++ zeros 187), by decide +kernel, rfl, by decide +kernel, by decide +kernel, by decide +kernel, by decide +kernel, by decide +kernel, by decide +kernel, by decide +kernel, rfl⟩,
   ⟨cmdRec ([3, 3, 0, 0, 5, 0, 0, 0, 0, 21] ++ zeros 187), [], 5, _, _, sCmd ({ sKeys with pwr := sBlank.pwr, boot := sBlank.boot }) ([3, 3, 0, 0, 5, 0, 0, 0, 0, 21] ++ zeros 187), by decide +kernel, rfl, by decide +kernel, by decide +kernel, by decide +kernel, by decide +kernel, by decide +kernel, by decide +kernel, by decide +kernel, by decide +kernel, rfl⟩,
   ⟨cmdRec ([4, 3, 0, 0, 5, 0, 0, 0]), [], 5, _, _, sCmd (sProvd) ([4, 3, 0, 0, 5, 0, 0, 0]), by decide +kernel, rfl, by decide +kernel, by decide +kernel, by decide +kernel, by decide +kernel, by decide +kernel, by decide +kernel, by decide +kernel, rfl⟩,
   ⟨cmdRec ([5, 3, 0, 0]), [], _, _, sCmd ({ sProvd with keys := { sProvd.keys with depot := true }, cmds := { area1 := { verified := true } } }) ([5, 3, 0, 0]), by decide +kernel, rfl, by decide +kernel, by decide +kernel, by decide +kernel, by decide +kernel, rfl⟩,
   ⟨cmdRec ([6, 3, 0, 0, 2, 3, 0, 0]), [], _, sCmd (sProvd) ([6, 3, 0, 0, 2, 3, 0, 0]), by decide +kernel, rfl, by decide +kernel⟩⟩

theorem wit_KeyAndAttestationCommands :
    (∃ (c : CmdRec) (rest : List CmdRec) (r : State × Status) (t : State) (s : State), (nextServed s 0x0401 c rest) ∧ (t = taken s rest) ∧ (c.bytes.length = 193) ∧ (lcOf t = .provisioned) ∧ (byteAt c.bytes 5 = 168 ∨ byteAt c.bytes 5 = 169) ∧ (r = importWrapped t (c.bytes.drop 4))) ∧
    (∃ (c : CmdRec) (rest : List CmdRec) (t : State) (s : State), (nextServed s 0x0402 c rest) ∧ (t = taken s rest) ∧ (c.bytes.length = 4) ∧ (lcOf t = .provisioned) ∧ ((slotAt t 167).state = .valid) ∧ ((slotAt t 168).state = .valid) ∧ ((slotAt t 169).state = .valid)) ∧
    (∃ (c : CmdRec) (rest : List CmdRec) (head : Bytes) (t : State) (s : State), (nextServed s 0x0403 c rest) ∧ (t = taken s rest) ∧ (c.bytes.length = 4) ∧ (unheld t .signing = true) ∧ (head = point65 (Config.ecPublic ((slotAt t 166).key.getD [])) ++ leBytes 4 t.keys.importSeq.toNat ++ [0, 0, 0])) ∧
    (∃ (c : CmdRec) (rest : List CmdRec) (n : Fin 224) (t : State) (s : State), (nextServed s 0x0404 c rest) ∧ (t = taken s rest) ∧ (c.bytes.length = 8) ∧ (allZero (slice c.bytes 5 3) = true) ∧ (byteAt c.bytes 4 = n.val)) ∧
    (∃ (c : CmdRec) (rest : List CmdRec) (t : State) (s : State), (nextServed s 0x0405 c rest) ∧ (t = taken s rest) ∧ (12 ≤ c.bytes.length) ∧ (c.bytes.length ≤ 36) ∧ (unheld t .signing = true)) ∧
    (∃ (c : CmdRec) (rest : List CmdRec) (t : State) (s : State), (nextServed s 0x0406 c rest) ∧ (t = taken s rest) ∧ (c.bytes.length = 4) ∧ (unheld t .signing = true)) :=
  ⟨⟨cmdRec ([1, 4, 0, 0, 0, 168] ++ zeros 187), [], _, _, sCmd (sProvd) ([1, 4, 0, 0, 0, 168] ++ zeros 187), by decide +kernel, rfl, by decide +kernel, by decide +kernel, by decide +kernel, rfl⟩,
   ⟨cmdRec ([2, 4, 0, 0]), [], _, sCmd (sTagKeys) ([2, 4, 0, 0]), by decide +kernel, rfl, by decide +kernel⟩,
   ⟨cmdRec ([3, 4, 0, 0]), [], _, _, sCmd (sProvd) ([3, 4, 0, 0]), by decide +kernel, rfl, by decide +kernel, by decide +kernel, rfl⟩,
   ⟨cmdRec ([4, 4, 0, 0, 5, 0, 0, 0]), [], 5, _, sCmd (sProvd) ([4, 4, 0, 0, 5, 0, 0, 0]), by decide +kernel, rfl, by decide +kernel⟩,
   ⟨cmdRec ([5, 4, 0, 0] ++ zeros 8), [], _, sCmd (sProvd) ([5, 4, 0, 0] ++ zeros 8), by decide +kernel, rfl, by decide +kernel⟩,
   ⟨cmdRec ([6, 4, 0, 0]), [], _, sCmd (sProvd) ([6, 4, 0, 0]), by decide +kernel, rfl, by decide +kernel⟩⟩

theorem wit_StoreCommands :
    (∃ (c : CmdRec) (rest : List CmdRec) (p : Fin 8) (r : Nat → State × Bool) (t : State) (s : State), (nextServed s 0x0501 c rest) ∧ (t = taken s rest) ∧ (c.bytes.length = 40) ∧ (partN (byteAt c.bytes 4) = some p) ∧ (byteAt c.bytes 5 ≠ 0) ∧ (byteAt c.bytes 5 ≤ 80) ∧ (pwFieldBad (byteAt c.bytes 6) (slice c.bytes 8 16) = false) ∧ (pwFieldBad (byteAt c.bytes 7) (slice c.bytes 24 16) = false) ∧ (r = fun a => transaction (setRight (setPart t p (some
      { first := a, pages := byteAt c.bytes 5, readPw := pwStored t p false (byteAt c.bytes 6) (slice c.bytes 8 16), writePw := pwStored t p true (byteAt c.bytes 7) (slice c.bytes 24 16) })) p {}) sysPages none)) ∧
    (∃ (c : CmdRec) (rest : List CmdRec) (p : Fin 8) (q : NativePart) (u : State) (v : State) (x : State × Bool) (t : State) (s : State), (nextServed s 0x0502 c rest) ∧ (t = taken s rest) ∧ (c.bytes.length = 24) ∧ (partN (byteAt c.bytes 4) = some p) ∧ (leAt c.bytes 6 2 = 0) ∧ (pwFieldBad (byteAt c.bytes 5) (slice c.bytes 8 16) = false) ∧ (partAt t p = some q) ∧ ((pwTry t p q true (byteAt c.bytes 5) (slice c.bytes 8 16)).1 = true) ∧ (u = setPart (pwTry t p q true (byteAt c.bytes 5) (slice c.bytes 8 16)).2 p none) ∧ (x = transaction u sysPages none) ∧ (v = setRight x.1 p {})) ∧
    (∃ (c : CmdRec) (rest : List CmdRec) (p : Fin 8) (q : NativePart) (u : State) (t : State) (s : State), (nextServed s 0x0503 c rest) ∧ (t = taken s rest) ∧ (c.bytes.length = 24) ∧ (partN (byteAt c.bytes 4) = some p) ∧ (byteAt c.bytes 5 ≤ 1) ∧ (byteAt c.bytes 7 = 0) ∧ (pwFieldBad (byteAt c.bytes 6) (slice c.bytes 8 16) = false) ∧ (partAt t p = some q) ∧ (u = (pwTry t p q (byteAt c.bytes 5 == 1) (byteAt c.bytes 6) (slice c.bytes 8 16)).2)) ∧
    (∃ (c : CmdRec) (rest : List CmdRec) (p : Fin 8) (t : State) (s : State), (nextServed s 0x0504 c rest) ∧ (t = taken s rest) ∧ (c.bytes.length = 8) ∧ (partN (byteAt c.bytes 4) = some p) ∧ (allZero (slice c.bytes 5 3) = true)) ∧
    (∃ (c : CmdRec) (rest : List CmdRec) (p : Fin 8) (q : NativePart) (n : Nat) (t : State) (s : State), (nextServed s 0x0505 c rest) ∧ (t = taken s rest) ∧ (c.bytes.length = 12) ∧ (partN (byteAt c.bytes 4) = some p) ∧ (byteAt c.bytes 5 = 0) ∧ (n = leAt c.bytes 6 2) ∧ (n ≠ 0) ∧ (n ≤ 240) ∧ (partAt t p = some q) ∧ (q.readPw = none ∨ rightLive t p false = true) ∧ (leAt c.bytes 8 4 + n ≤ 256 * q.pages)) ∧
    (∃ (c : CmdRec) (rest : List CmdRec) (p : Fin 8) (q : NativePart) (n : Nat) (t : State) (s : State), (nextServed s 0x0505 c rest) ∧ (t = taken s rest) ∧ (c.bytes.length = 12) ∧ (partN (byteAt c.bytes 4) = some p) ∧ (byteAt c.bytes 5 = 0) ∧ (n = leAt c.bytes 6 2) ∧ (n ≠ 0) ∧ (n ≤ 240) ∧ (partAt t p = some q) ∧ (q.readPw.isSome = true) ∧ (rightLive t p false = false)) ∧
    (∃ (c : CmdRec) (rest : List CmdRec) (p : Fin 8) (q : NativePart) (d : Bytes) (off : Nat) (t : State) (s : State), (nextServed s 0x0506 c rest) ∧ (t = taken s rest) ∧ (12 < c.bytes.length) ∧ (c.bytes.length ≤ 252) ∧ (partN (byteAt c.bytes 4) = some p) ∧ (allZero (slice c.bytes 5 3) = true) ∧ (d = c.bytes.drop 12) ∧ (off = leAt c.bytes 8 4) ∧ (partAt t p = some q) ∧ (q.writePw = none ∨ rightLive t p true = true) ∧ (t.orr.wbuf.length + ((touchedPages q off d.length).filter fun a => !(t.orr.wbuf.any fun x => x.1 == a)).length ≤ 8) ∧ (off + d.length ≤ 256 * q.pages)) ∧
    (∃ (c : CmdRec) (rest : List CmdRec) (bad : Bool) (r : State × Bool) (t : State) (s : State), (nextServed s 0x0507 c rest) ∧ (t = taken s rest) ∧ (c.bytes.length = 4) ∧ (t.orr.wbuf ≠ []) ∧ (r = transaction (putShadows t t.orr.wbuf) (t.orr.wbuf.filterMap fun x => pageN x.1) (some bad))) ∧
    (∃ (c : CmdRec) (rest : List CmdRec) (t : State) (s : State), (nextServed s 0x0508 c rest) ∧ (t = taken s rest) ∧ (c.bytes.length = 4)) ∧
    (∃ (c : CmdRec) (rest : List CmdRec) (p : Fin 8) (q : NativePart) (x : Option Bytes) (r : Bool × State) (y : State × Bool) (t : State) (s : State), (nextServed s 0x0509 c rest) ∧ (t = taken s rest) ∧ (c.bytes.length = 40) ∧ (partN (byteAt c.bytes 4) = some p) ∧ (byteAt c.bytes 5 ≤ 1) ∧ (pwFieldBad (byteAt c.bytes 6) (slice c.bytes 8 16) = false) ∧ (pwFieldBad (byteAt c.bytes 7) (slice c.bytes 24 16) = false) ∧ (partAt t p = some q) ∧ (r = pwTry t p q true (byteAt c.bytes 6) (slice c.bytes 8 16)) ∧ (x = pwStored t p (byteAt c.bytes 5 == 1) (byteAt c.bytes 7) (slice c.bytes 24 16)) ∧ (y = transaction (setPart r.2 p (some (if byteAt c.bytes 5 == 1 then { q with writePw := x } else { q with readPw := x }))) sysPages none)) :=
  ⟨⟨cmdRec ([1, 5, 0, 0, 2, 3] ++ zeros 34), [], 2, _, _, sCmd (sBlank) ([1, 5, 0, 0, 2, 3] ++ zeros 34), by decide +kernel, rfl, by decide +kernel, by decide +kernel, by decide +kernel, by decide +kernel, by decide +kernel, by decide +kernel, rfl⟩,
   ⟨cmdRec ([2, 5, 0, 0, 2, 0] ++ zeros 18), [], 2, qPart, _, _, _, _, sCmd (sPart) ([2, 5, 0, 0, 2, 0] ++ zeros 18), by decide +kernel, rfl, by decide +kernel, by decide +kernel, by decide +kernel, by decide +kernel, by decide +kernel, by decide +kernel, rfl, rfl, rfl⟩,
   ⟨cmdRec ([3, 5, 0, 0, 2, 1] ++ zeros 18), [], 2, qPart, _, _, sCmd (sPart) ([3, 5, 0, 0, 2, 1] ++ zeros 18), by decide +kernel, rfl, by decide +kernel, by decide +kernel, by decide +kernel, by decide +kernel, by decide +kernel, by decide +kernel, rfl⟩,
   ⟨cmdRec ([4, 5, 0, 0, 2, 0, 0, 0]), [], 2, _, sCmd (sPart) ([4, 5, 0, 0, 2, 0, 0, 0]), by decide +kernel, rfl, by decide +kernel⟩,
   ⟨cmdRec ([5, 5, 0, 0, 2, 0, 9, 0, 1, 0, 0, 0]), [], 2, qPart, _, _, sCmd (sPart) ([5, 5, 0, 0, 2, 0, 9, 0, 1, 0, 0, 0]), by decide +kernel, rfl, by decide +kernel, by decide +kernel, by decide +kernel, rfl, by decide +kernel⟩,
   ⟨cmdRec ([5, 5, 0, 0, 2, 0, 9, 0, 1, 0, 0, 0]), [], 2, { first := 150, pages := 3, readPw := some [], writePw := none }, _, _, sCmd (setPart sBlank 2 (some { first := 150, pages := 3, readPw := some [], writePw := none })) ([5, 5, 0, 0, 2, 0, 9, 0, 1, 0, 0, 0]), by decide +kernel, rfl, by decide +kernel, by decide +kernel, by decide +kernel, rfl, by decide +kernel⟩,
   ⟨cmdRec ([6, 5, 0, 0, 2, 0, 0, 0, 1, 0, 0, 0, 7, 8]), [], 2, qPart, _, _, _, sCmd (sPart) ([6, 5, 0, 0, 2, 0, 0, 0, 1, 0, 0, 0, 7, 8]), by decide +kernel, rfl, by decide +kernel, by decide +kernel, by decide +kernel, by decide +kernel, rfl, rfl, by decide +kernel⟩,
   ⟨cmdRec ([7, 5, 0, 0]), [], true, _, _, sCmd ({ sPart with orr := { sPart.orr with wbuf := [(151, [(3, 5)])] } }) ([7, 5, 0, 0]), by decide +kernel, rfl, by decide +kernel, by decide +kernel, rfl⟩,
   ⟨cmdRec ([8, 5, 0, 0]), [], _, sCmd (sPart) ([8, 5, 0, 0]), by decide +kernel, rfl, by decide +kernel⟩,
   ⟨cmdRec ([9, 5, 0, 0, 2, 0] ++ zeros 34), [], 2, qPart, _, _, _, _, sCmd (sPart) ([9, 5, 0, 0, 2, 0] ++ zeros 34), by decide +kernel, rfl, by decide +kernel, by decide +kernel, by decide +kernel, by decide +kernel, by decide +kernel, by decide +kernel, rfl, rfl, rfl⟩⟩

theorem wit_LegacyLedgerAndRadioCommands :
    (∃ (c : CmdRec) (rest : List CmdRec) (u : State) (t : State) (s : State), (nextServed s 0x050A c rest) ∧ (t = taken s rest) ∧ (c.bytes.length = 8) ∧ (leAt c.bytes 6 2 ≠ 0) ∧ (leAt c.bytes 6 2 ≤ 240) ∧ (u = doLwWriteCycleEnd t)) ∧
    (∃ (c : CmdRec) (rest : List CmdRec) (u : State) (a : Nat) (t : State) (s : State), (nextServed s 0x050B c rest) ∧ (t = taken s rest) ∧ (9 ≤ c.bytes.length) ∧ (c.bytes.length ≤ 40) ∧ (leAt c.bytes 6 2 = 0) ∧ (u = doLwWriteCycleEnd t) ∧ (a = leAt c.bytes 4 2 % 8192)) ∧
    (∃ (c : CmdRec) (rest : List CmdRec) (l : List LedgerEntry) (t : State) (s : State), (nextServed s 0x050C c rest) ∧ (t = taken s rest) ∧ (c.bytes.length = 12) ∧ (byteAt c.bytes 8 ≠ 0) ∧ (byteAt c.bytes 8 ≤ 64) ∧ (allZero (slice c.bytes 9 3) = true) ∧ (unheld t .bulkOut = true) ∧ (l = (ledgerFrom t (leAt c.bytes 4 4) (byteAt c.bytes 8)).filter fun e => decide (e.index.toNat < leAt c.bytes 4 4 + byteAt c.bytes 8))) ∧
    (∃ (c : CmdRec) (rest : List CmdRec) (t : State) (s : State), (nextServed s 0x050D c rest) ∧ (t = taken s rest) ∧ (c.bytes.length = 8)) ∧
    (∃ (c : CmdRec) (rest : List CmdRec) (t : State) (s : State), (nextServed s 0x050E c rest) ∧ (t = taken s rest) ∧ (c.bytes.length = 4)) ∧
    (∃ (c : CmdRec) (rest : List CmdRec) (t : State) (s : State), (nextServed s 0x0601 c rest) ∧ (t = taken s rest) ∧ (c.bytes.length = 8) ∧ (10 ≤ byteAt c.bytes 4) ∧ (byteAt c.bytes 4 ≤ 120) ∧ (allZero (slice c.bytes 5 3) = true)) ∧
    (∃ (c : CmdRec) (rest : List CmdRec) (t : State) (s : State), (nextServed s 0x0602 c rest) ∧ (t = taken s rest) ∧ (c.bytes.length = 8) ∧ (leAt c.bytes 6 2 ≠ 0) ∧ (leAt c.bytes 6 2 ≤ 120) ∧ (leAt c.bytes 4 2 + leAt c.bytes 6 2 ≤ 1024)) ∧
    (∃ (c : CmdRec) (rest : List CmdRec) (read : Bool) (bad : Bool) (t : State) (s : State), (nextServed s 0x0603 c rest) ∧ (t = taken s rest) ∧ (10 ≤ c.bytes.length) ∧ (c.bytes.length ≤ 248) ∧ (c.bytes.length = 8 + 2 * leAt c.bytes 6 2) ∧ (leAt c.bytes 6 2 ≠ 0) ∧ (leAt c.bytes 6 2 ≤ 120) ∧ (leAt c.bytes 4 2 + leAt c.bytes 6 2 ≤ 1024) ∧ (((List.range (leAt c.bytes 6 2)).all fun n => regionOf (leAt c.bytes 4 2 + n) == 0 || regionOf (leAt c.bytes 4 2 + n) == 4) = true) ∧ (t.tag.readerHold = true ∨ read = false ∨ bad = true)) ∧
    (∃ (c : CmdRec) (rest : List CmdRec) (a : TagAccess) (u : State) (t : State) (s : State), (nextServed s 0x0603 c rest) ∧ (t = taken s rest) ∧ (10 ≤ c.bytes.length) ∧ (c.bytes.length ≤ 248) ∧ (c.bytes.length = 8 + 2 * leAt c.bytes 6 2) ∧ (leAt c.bytes 6 2 ≠ 0) ∧ (leAt c.bytes 6 2 ≤ 120) ∧ (leAt c.bytes 4 2 + leAt c.bytes 6 2 ≤ 1024) ∧ (((List.range (leAt c.bytes 6 2)).all fun n => regionOf (leAt c.bytes 4 2 + n) == 0 || regionOf (leAt c.bytes 4 2 + n) == 4) = true) ∧ (t.tag.readerHold = false) ∧ (a = { writes := tagSplit (leAt c.bytes 4 2) (c.bytes.drop 8), since := now t, cmd := some (c.slot, BitVec.ofNat 16 (ctagOf c.bytes)) }) ∧ (u = tagBegin (tagServe t) a [])) ∧
    (∃ (c : CmdRec) (rest : List CmdRec) (n : Nat) (t : State) (s : State), (nextServed s 0x0603 c rest) ∧ (t = taken s rest) ∧ (10 ≤ c.bytes.length) ∧ (c.bytes.length ≤ 248) ∧ (c.bytes.length = 8 + 2 * leAt c.bytes 6 2) ∧ (leAt c.bytes 6 2 ≠ 0) ∧ (leAt c.bytes 6 2 ≤ 120) ∧ (leAt c.bytes 4 2 + leAt c.bytes 6 2 ≤ 1024) ∧ (n < leAt c.bytes 6 2) ∧ (regionOf (leAt c.bytes 4 2 + n) ≠ 0) ∧ (regionOf (leAt c.bytes 4 2 + n) ≠ 4)) ∧
    (∃ (c : CmdRec) (rest : List CmdRec) (t : State) (s : State), (nextServed s 0x0604 c rest) ∧ (t = taken s rest) ∧ (c.bytes.length = 4)) :=
  ⟨⟨cmdRec ([10, 5, 0, 0, 3, 0, 9, 0]), [], _, _, sCmd (sBlank) ([10, 5, 0, 0, 3, 0, 9, 0]), by decide +kernel, rfl, by decide +kernel, by decide +kernel, by decide +kernel, rfl⟩,
   ⟨cmdRec ([11, 5, 0, 0, 3, 0, 0, 0, 7]), [], _, _, _, sCmd (sBlank) ([11, 5, 0, 0, 3, 0, 0, 0, 7]), by decide +kernel, rfl, by decide +kernel, by decide +kernel, by decide +kernel, rfl, rfl⟩,
   ⟨cmdRec ([12, 5, 0, 0, 0, 0, 0, 0, 4, 0, 0, 0]), [], _, _, sCmd (sBlank) ([12, 5, 0, 0, 0, 0, 0, 0, 4, 0, 0, 0]), by decide +kernel, rfl, by decide +kernel, by decide +kernel, by decide +kernel, by decide +kernel, by decide +kernel, rfl⟩,
   ⟨cmdRec ([13, 5, 0, 0, 5, 0, 0, 0]), [], _, sCmd (sBlank) ([13, 5, 0, 0, 5, 0, 0, 0]), by decide +kernel, rfl, by decide +kernel⟩,
   ⟨cmdRec ([14, 5, 0, 0]), [], _, sCmd (sBlank) ([14, 5, 0, 0]), by decide +kernel, rfl, by decide +kernel⟩,
   ⟨cmdRec ([1, 6, 0, 0, 30, 0, 0, 0]), [], _, sCmd (sBlank) ([1, 6, 0, 0, 30, 0, 0, 0]), by decide +kernel, rfl, by decide +kernel⟩,
   ⟨cmdRec ([2, 6, 0, 0, 4, 0, 2, 0]), [], _, sCmd (sBlank) ([2, 6, 0, 0, 4, 0, 2, 0]), by decide +kernel, rfl, by decide +kernel⟩,
   ⟨cmdRec ([3, 6, 0, 0, 4, 0, 1, 0, 7, 8]), [], false, false, _, sCmd (sBlank) ([3, 6, 0, 0, 4, 0, 1, 0, 7, 8]), by decide +kernel, rfl, by decide +kernel⟩,
   ⟨cmdRec ([3, 6, 0, 0, 4, 0, 1, 0, 7, 8]), [], _, _, _, sCmd (sBlank) ([3, 6, 0, 0, 4, 0, 1, 0, 7, 8]), by decide +kernel, rfl, by decide +kernel, by decide +kernel, by decide +kernel, by decide +kernel, by decide +kernel, by decide +kernel, by decide +kernel, by decide +kernel, rfl, rfl⟩,
   ⟨cmdRec ([3, 6, 0, 0, 0x50, 0, 1, 0, 7, 8]), [], 0, _, sCmd (sBlank) ([3, 6, 0, 0, 0x50, 0, 1, 0, 7, 8]), by decide +kernel, rfl, by decide +kernel⟩,
   ⟨cmdRec ([4, 6, 0, 0]), [], _, sCmd (sBlank) ([4, 6, 0, 0]), by decide +kernel, rfl, by decide +kernel⟩⟩

theorem wit_UpdateCommands :
    (∃ (c : CmdRec) (rest : List CmdRec) (t : State) (s : State), (nextServed s 0x0701 c rest) ∧ (t = taken s rest) ∧ (c.bytes.length = 12) ∧ (byteAt c.bytes 4 ≤ 2) ∧ (allZero (slice c.bytes 5 3) = true) ∧ (174 ≤ leAt c.bytes 8 4) ∧ (leAt c.bytes 8 4 ≤ areaMax (byteAt c.bytes 4) + 173) ∧ (unheld t .staging = true)) ∧
    (∃ (c : CmdRec) (rest : List CmdRec) (x : StageArea) (y : StageArea) (d : Bytes) (t : State) (s : State), (nextServed s 0x0702 c rest) ∧ (t = taken s rest) ∧ (12 ≤ c.bytes.length) ∧ (c.bytes.length ≤ 252) ∧ (byteAt c.bytes 4 ≤ 2) ∧ (allZero (slice c.bytes 5 3) = true) ∧ (x = areaOf t (byteAt c.bytes 4)) ∧ (x.opened = true) ∧ (d = c.bytes.drop 12) ∧ (d.isEmpty = false) ∧ (unheld t .staging = true) ∧ (leAt c.bytes 8 4 = x.received) ∧ (x.received + d.length ≤ x.total) ∧ (y = { x with received := x.received + d.length, data := memWriteBytes x.data x.received d, unverified := true })) ∧
    (∃ (c : CmdRec) (rest : List CmdRec) (x : StageArea) (t : State) (s : State), (nextServed s 0x0703 c rest) ∧ (t = taken s rest) ∧ (c.bytes.length = 8) ∧ (byteAt c.bytes 4 ≤ 2) ∧ (allZero (slice c.bytes 5 3) = true) ∧ (x = areaOf t (byteAt c.bytes 4)) ∧ (x.opened = true) ∧ (x.total ≤ x.received) ∧ (unheld t .staging = true)) ∧
    (∃ (c : CmdRec) (rest : List CmdRec) (t : State) (s : State), (nextServed s 0x0704 c rest) ∧ (t = taken s rest) ∧ (c.bytes.length = 8) ∧ (byteAt c.bytes 4 ≤ 2) ∧ (allZero (slice c.bytes 5 3) = true)) ∧
    (∃ (c : CmdRec) (rest : List CmdRec) (b : Bytes) (t : State) (s : State), (nextServed s 0x0705 c rest) ∧ (t = taken s rest) ∧ (c.bytes.length = 4) ∧ (unheld t .staging = true) ∧ (t.cmds.area2.verified = true) ∧ (b = t.cmds.area2.body)) ∧
    (∃ (c : CmdRec) (rest : List CmdRec) (t : State) (s : State), (nextServed s 0x0706 c rest) ∧ (t = taken s rest) ∧ (c.bytes.length = 8) ∧ (byteAt c.bytes 4 = 0) ∧ (allZero (slice c.bytes 5 3) = true) ∧ (t.cmds.area0.verified = true) ∧ (unheld t .staging = true)) ∧
    (∃ (c : CmdRec) (rest : List CmdRec) (t : State) (s : State), (nextServed s 0x0706 c rest) ∧ (t = taken s rest) ∧ (c.bytes.length = 8) ∧ (byteAt c.bytes 4 = 1) ∧ (allZero (slice c.bytes 5 3) = true) ∧ (t.cmds.area0.verified = true) ∧ (unheld t .staging = true)) ∧
    (∃ (c : CmdRec) (rest : List CmdRec) (n : Fin 2) (r : BootRecord) (u : State × Bool) (t : State) (s : State), (nextServed s 0x0707 c rest) ∧ (t = taken s rest) ∧ (c.bytes.length = 4) ∧ (onTrial t.boot = true) ∧ (t.boot.step = 16) ∧ (t.boot.record.trialSlot = some n) ∧ (r = setSlotState (setSlotState t.boot.record t.boot.record.active .valid) n .active) ∧ (u = bootTry t { r with active := n, trialSlot := none, trialFails := 0, trialPend := false })) ∧
    (∃ (c : CmdRec) (rest : List CmdRec) (r : BootRecord) (t : State) (s : State), (nextServed s 0x0708 c rest) ∧ (t = taken s rest) ∧ (c.bytes.length = 4) ∧ (r = t.boot.record)) :=
  ⟨⟨cmdRec ([1, 7, 0, 0, 1, 0, 0, 0, 0, 1, 0, 0]), [], _, sCmd (sBlank) ([1, 7, 0, 0, 1, 0, 0, 0, 0, 1, 0, 0]), by decide +kernel, rfl, by decide +kernel⟩,
   ⟨cmdRec ([2, 7, 0, 0, 1, 0, 0, 0, 0, 0, 0, 0, 7]), [], _, _, _, _, sCmd (sStage) ([2, 7, 0, 0, 1, 0, 0, 0, 0, 0, 0, 0, 7]), by decide +kernel, rfl, by decide +kernel, by decide +kernel, by decide +kernel, by decide +kernel, rfl, by decide +kernel, rfl, by decide +kernel, by decide +kernel, by decide +kernel, by decide +kernel, rfl⟩,
   ⟨cmdRec ([3, 7, 0, 0, 1, 0, 0, 0]), [], _, _, sCmd (sStaged) ([3, 7, 0, 0, 1, 0, 0, 0]), by decide +kernel, rfl, by decide +kernel, by decide +kernel, by decide +kernel, rfl, by decide +kernel⟩,
   ⟨cmdRec ([4, 7, 0, 0, 1, 0, 0, 0]), [], _, sCmd (sStage) ([4, 7, 0, 0, 1, 0, 0, 0]), by decide +kernel, rfl, by decide +kernel⟩,
   ⟨cmdRec ([5, 7, 0, 0]), [], _, _, sCmd (sBundle) ([5, 7, 0, 0]), by decide +kernel, rfl, by decide +kernel, by decide +kernel, by decide +kernel, rfl⟩,
   ⟨cmdRec ([6, 7, 0, 0, 0, 0, 0, 0]), [], _, sCmd (sImage) ([6, 7, 0, 0, 0, 0, 0, 0]), by decide +kernel, rfl, by decide +kernel⟩,
   ⟨cmdRec ([6, 7, 0, 0, 1, 0, 0, 0]), [], _, sCmd (sImage) ([6, 7, 0, 0, 1, 0, 0, 0]), by decide +kernel, rfl, by decide +kernel⟩,
   ⟨cmdRec ([7, 7, 0, 0]), [], 1, _, _, _, sCmd (sTrial) ([7, 7, 0, 0]), by decide +kernel, rfl, by decide +kernel, by decide +kernel, by decide +kernel, by decide +kernel, rfl, rfl⟩,
   ⟨cmdRec ([8, 7, 0, 0]), [], _, _, sCmd (sBlank) ([8, 7, 0, 0]), by decide +kernel, rfl, by decide +kernel, rfl⟩⟩

theorem wit_CredentialActions :
    (∃ (c : CmdRec) (rest : List CmdRec) (u : State) (key : Bytes) (t : State) (s : State), (nextServed s 0x0802 c rest) ∧ (t = taken s rest) ∧ (c.bytes.length = 104 ∨ c.bytes.length = 168) ∧ (credBad c.bytes = false) ∧ (credSpent t c.bytes = false) ∧ (byteAt c.bytes 4 = 1) ∧ (lockedOut t .credential = false) ∧ (u = { t with creds := { t.creds with chal := none } }) ∧ (credSigner u .provision = some key) ∧ (t.boot.step = 16)) ∧
    (∃ (c : CmdRec) (rest : List CmdRec) (u : State) (key : Bytes) (t : State) (s : State), (nextServed s 0x0802 c rest) ∧ (t = taken s rest) ∧ (c.bytes.length = 104 ∨ c.bytes.length = 168) ∧ (credBad c.bytes = false) ∧ (credSpent t c.bytes = false) ∧ (byteAt c.bytes 4 = 2) ∧ (lockedOut t .credential = false) ∧ (u = { t with creds := { t.creds with chal := none } }) ∧ (credSigner u .field = some key) ∧ (t.cmds.bundle.isSome = true) ∧ (t.keys.debug = false)) ∧
    (∃ (c : CmdRec) (rest : List CmdRec) (u : State) (key : Bytes) (t : State) (s : State), (nextServed s 0x0802 c rest) ∧ (t = taken s rest) ∧ (c.bytes.length = 104 ∨ c.bytes.length = 168) ∧ (credBad c.bytes = false) ∧ (credSpent t c.bytes = false) ∧ (byteAt c.bytes 4 = 3) ∧ (lockedOut t .credential = false) ∧ (u = { t with creds := { t.creds with chal := none } }) ∧ (credSigner u .enterServicing = some key) ∧ (t.pres.start = none) ∧ ((t.bar.vstate.valid && t.bar.vstate.engineRun) = false)) ∧
    (∃ (c : CmdRec) (rest : List CmdRec) (u : State) (key : Bytes) (live : BitVec 6) (t : State) (s : State), (nextServed s 0x0802 c rest) ∧ (t = taken s rest) ∧ (c.bytes.length = 104 ∨ c.bytes.length = 168) ∧ (credBad c.bytes = false) ∧ (credSpent t c.bytes = false) ∧ (byteAt c.bytes 4 = 4) ∧ (lockedOut t .credential = false) ∧ (u = { detectors t live with creds := { t.creds with chal := none } }) ∧ (credSigner u .tamperAck = some key)) ∧
    (∃ (c : CmdRec) (rest : List CmdRec) (u : State) (key : Bytes) (t : State) (s : State), (nextServed s 0x0802 c rest) ∧ (t = taken s rest) ∧ (c.bytes.length = 104 ∨ c.bytes.length = 168) ∧ (credBad c.bytes = false) ∧ (credSpent t c.bytes = false) ∧ (byteAt c.bytes 4 = 5) ∧ (lockedOut t .credential = false) ∧ (u = { t with creds := { t.creds with chal := none } }) ∧ (credSigner u .lockoutEnd = some key)) ∧
    (∃ (c : CmdRec) (rest : List CmdRec) (u : State) (key : Bytes) (t : State) (s : State), (nextServed s 0x0802 c rest) ∧ (t = taken s rest) ∧ (c.bytes.length = 104 ∨ c.bytes.length = 168) ∧ (credBad c.bytes = false) ∧ (credSpent t c.bytes = false) ∧ (byteAt c.bytes 4 = 6) ∧ (lockedOut t .credential = false) ∧ (u = { t with creds := { t.creds with chal := none } }) ∧ (credSigner u .retire = some key)) ∧
    (∃ (c : CmdRec) (rest : List CmdRec) (u : State) (key : Bytes) (t : State) (s : State), (nextServed s 0x0802 c rest) ∧ (t = taken s rest) ∧ (c.bytes.length = 104 ∨ c.bytes.length = 168) ∧ (credBad c.bytes = false) ∧ (credSpent t c.bytes = false) ∧ (byteAt c.bytes 4 = 7) ∧ (lockedOut t .credential = false) ∧ (u = { t with creds := { t.creds with chal := none } }) ∧ (credSigner u .debugOpen = some key) ∧ (t.keys.debug = false)) ∧
    (∃ (c : CmdRec) (rest : List CmdRec) (u : State) (key : Bytes) (t : State) (s : State), (nextServed s 0x0802 c rest) ∧ (t = taken s rest) ∧ (c.bytes.length = 104 ∨ c.bytes.length = 168) ∧ (credBad c.bytes = false) ∧ (credSpent t c.bytes = false) ∧ (byteAt c.bytes 4 = 8) ∧ (lockedOut t .credential = false) ∧ (u = { t with creds := { t.creds with chal := none } }) ∧ (credSigner u .keyLoad = some key)) ∧
    (∃ (c : CmdRec) (rest : List CmdRec) (u : State) (t : State) (s : State), (nextServed s 0x0802 c rest) ∧ (t = taken s rest) ∧ (c.bytes.length = 104 ∨ c.bytes.length = 168) ∧ (credBad c.bytes = false) ∧ (credSpent t c.bytes = false) ∧ (byteAt c.bytes 4 = 6) ∧ (lockedOut t .credential = false) ∧ (u = { t with creds := { t.creds with chal := none } }) ∧ (credSigner u .retire = none)) :=
  ⟨⟨cmdRec ([2, 8, 0, 0, 1, 0, 0, 0] ++ zeros 28 ++ [64, 0] ++ zeros 130), [], _, Config.torvernKey, _, sCmd (sBlank) ([2, 8, 0, 0, 1, 0, 0, 0] ++ zeros 28 ++ [64, 0] ++ zeros 130), by decide +kernel, rfl, by decide +kernel, by decide +kernel, by decide +kernel, by decide +kernel, by decide +kernel, rfl, by exact provisionSigner (by decide +kernel), by decide +kernel⟩,
   ⟨cmdRec ([2, 8, 0, 0, 2, 0, 0, 0] ++ zeros 96), [], _, [], _, sCmd ({ sProvd with cmds := { bundle := some ⟨0, [], []⟩ } }) ([2, 8, 0, 0, 2, 0, 0, 0] ++ zeros 96), by decide +kernel, rfl, by decide +kernel, by decide +kernel, by decide +kernel, by decide +kernel, by decide +kernel, rfl, by decide +kernel⟩,
   ⟨cmdRec ([2, 8, 0, 0, 3, 0, 0, 0] ++ zeros 30 ++ [1, 0] ++ zeros 64), [], _, [], _, sCmd (sField) ([2, 8, 0, 0, 3, 0, 0, 0] ++ zeros 30 ++ [1, 0] ++ zeros 64), by decide +kernel, rfl, by decide +kernel, by decide +kernel, by decide +kernel, by decide +kernel, by decide +kernel, rfl, by decide +kernel⟩,
   ⟨cmdRec ([2, 8, 0, 0, 4, 0, 0, 0] ++ zeros 96), [], _, [], 0, _, sCmd (sField) ([2, 8, 0, 0, 4, 0, 0, 0] ++ zeros 96), by decide +kernel, rfl, by decide +kernel, by decide +kernel, by decide +kernel, by decide +kernel, by decide +kernel, rfl, by decide +kernel⟩,
   ⟨cmdRec ([2, 8, 0, 0, 5, 2, 0, 0] ++ zeros 96), [], _, [], _, sCmd (sField) ([2, 8, 0, 0, 5, 2, 0, 0] ++ zeros 96), by decide +kernel, rfl, by decide +kernel, by decide +kernel, by decide +kernel, by decide +kernel, by decide +kernel, rfl, by decide +kernel⟩,
   ⟨cmdRec ([2, 8, 0, 0, 6, 0, 0, 0] ++ zeros 96), [], _, [], _, sCmd (sServ) ([2, 8, 0, 0, 6, 0, 0, 0] ++ zeros 96), by decide +kernel, rfl, by decide +kernel, by decide +kernel, by decide +kernel, by decide +kernel, by decide +kernel, rfl, by decide +kernel⟩,
   ⟨cmdRec ([2, 8, 0, 0, 7, 0, 0, 0] ++ zeros 96), [], _, [], _, sCmd (sProvd) ([2, 8, 0, 0, 7, 0, 0, 0] ++ zeros 96), by decide +kernel, rfl, by decide +kernel, by decide +kernel, by decide +kernel, by decide +kernel, by decide +kernel, rfl, by decide +kernel⟩,
   ⟨cmdRec ([2, 8, 0, 0, 8, 0, 0, 0] ++ zeros 28 ++ [64, 0, 173, 0] ++ zeros 128), [], _, [], _, sCmd (sProvd) ([2, 8, 0, 0, 8, 0, 0, 0] ++ zeros 28 ++ [64, 0, 173, 0] ++ zeros 128), by decide +kernel, rfl, by decide +kernel, by decide +kernel, by decide +kernel, by decide +kernel, by decide +kernel, rfl, by decide +kernel⟩,
   ⟨cmdRec ([2, 8, 0, 0, 6, 0, 0, 0] ++ zeros 96), [], _, _, sCmd (sField) ([2, 8, 0, 0, 6, 0, 0, 0] ++ zeros 96), by decide +kernel, rfl, by decide +kernel, by decide +kernel, by decide +kernel, by decide +kernel, by decide +kernel, rfl, by decide +kernel⟩⟩

theorem wit_LifeCycleEvents :
    (∃ (c : CmdRec) (rest : List CmdRec) (x : Bytes) (u : State) (t : State) (s : State), (nextServed s 0x0801 c rest) ∧ (t = taken s rest) ∧ (c.bytes.length = 4) ∧ (x = (drbgBytes t 16).1) ∧ (u = (drbgBytes t 16).2)) ∧
    (∃ (c : CmdRec) (rest : List CmdRec) (t : State) (s : State), (nextServed s 0x0803 c rest) ∧ (t = taken s rest) ∧ (c.bytes.length = 4) ∧ (lcOf t = .servicing)) ∧
    (∃ (c : CmdRec) (rest : List CmdRec) (t : State) (s : State), (nextServed s 0x0804 c rest) ∧ (t = taken s rest) ∧ (c.bytes.length = 4)) ∧
    (∃ (x : Bytes) (n : Nat) (t : State) (s : State), (s.creds.chal = some (x, n)) ∧ (t = elapseToRtc s (n + 600))) ∧
    (∃ (s : State), (lockedOut s .credential = true)) ∧
    (∃ (r : ServRecord) (s : State), (lcOf s = .servicing) ∧ (s.keys.servicing = some r)) ∧
    (∃ (n : Nat) (s : State), (lcOf s ≠ .servicing) ∧ (s.keys.debug = true) ∧ (s.keys.debugEnd = some n)) ∧
    (∃ (src : BitVec 6) (s : State), ((detectors s src).tamper.live &&& (s.tamper.en ||| 1) &&& BitVec.ofNat 6 (watchedIn s.pwr.pstate) = 0)) ∧
    (∃ (src : BitVec 6) (eff : BitVec 6) (t : State) (s : State), (eff = (detectors s src).tamper.live &&& (s.tamper.en ||| 1) &&& BitVec.ofNat 6 (watchedIn s.pwr.pstate)) ∧ (eff ≠ 0) ∧ (t = latchTamper (detectors s src) eff) ∧ (s.keys.lcRetire = false)) ∧
    (∃ (src : BitVec 6) (eff : BitVec 6) (t : State) (s : State), (eff = (detectors s src).tamper.live &&& (s.tamper.en ||| 1) &&& BitVec.ofNat 6 (watchedIn s.pwr.pstate)) ∧ (eff ≠ 0) ∧ (t = latchTamper (detectors s src) eff) ∧ (s.keys.lcRetire = true)) ∧
    (∃ (t : State) (s : State), (s.tamper.ePending = true) ∧ (s.pwr.pstate = .chalk) ∧ (s.boot.step = 16) ∧ (t = detectors (elapse s (100 * ticksPerMs)) (if (elapse s (100 * ticksPerMs)).tamper.enclPol then 2 else 0))) :=
  ⟨⟨cmdRec ([1, 8, 0, 0]), [], _, _, _, sCmd (sBlank) ([1, 8, 0, 0]), by decide +kernel, rfl, by decide +kernel, rfl, rfl⟩,
   ⟨cmdRec ([3, 8, 0, 0]), [], _, sCmd (sServ) ([3, 8, 0, 0]), by decide +kernel, rfl, by decide +kernel⟩,
   ⟨cmdRec ([4, 8, 0, 0]), [], _, sCmd (sBlank) ([4, 8, 0, 0]), by decide +kernel, rfl, by decide +kernel⟩,
   ⟨zeros 16, 5, _, sChal, by decide +kernel, rfl⟩,
   ⟨{ sBlank with creds := { lock := { endAt := 9 } } }, by decide +kernel⟩,
   ⟨{ endAt := 100, mac := [] }, sServ, by decide +kernel⟩,
   ⟨100, { sProvd with keys := { sProvd.keys with debug := true, debugEnd := some 100 } }, by decide +kernel⟩,
   ⟨2, { sBlank with tamper := { en := 0 } }, by decide +kernel⟩,
   ⟨1, _, _, sBlank, rfl, by decide +kernel, rfl, by decide +kernel⟩,
   ⟨1, _, _, { sBlank with keys := { lcRetire := true } }, rfl, by decide +kernel, rfl, by decide +kernel⟩,
   ⟨_, { sBlank with tamper := { ePending := true } }, by decide +kernel, by decide +kernel, by decide +kernel, rfl⟩⟩

theorem wit_DiagnosticCommands :
    (∃ (c : CmdRec) (rest : List CmdRec) (t : State) (s : State), (nextServed s 0x0901 c rest) ∧ (t = taken s rest) ∧ (c.bytes.length = 8) ∧ (leAt c.bytes 4 2 ≠ 0) ∧ (leAt c.bytes 4 2 < 4096) ∧ (leAt c.bytes 6 2 = 0) ∧ (unheld t .fieldTest = true)) ∧
    (∃ (c : CmdRec) (rest : List CmdRec) (t : State) (s : State), (nextServed s 0x0902 c rest) ∧ (t = taken s rest) ∧ (c.bytes.length = 8) ∧ (byteAt c.bytes 4 ≠ 0) ∧ (byteAt c.bytes 4 < 64) ∧ (allZero (slice c.bytes 5 3) = true) ∧ (unheld t .fieldTest = true)) ∧
    (∃ (c : CmdRec) (rest : List CmdRec) (l : List Bytes) (t : State) (s : State), (nextServed s 0x0903 c rest) ∧ (t = taken s rest) ∧ (c.bytes.length = 8) ∧ (unheld t .bulkOut = true) ∧ (l = (journalFrom t (leAt c.bytes 4 4)).take 85)) ∧
    (∃ (c : CmdRec) (rest : List CmdRec) (t : State) (s : State), (nextServed s 0x0904 c rest) ∧ (t = taken s rest) ∧ (c.bytes.length = 4) ∧ (unheld t .bulkOut = true)) ∧
    (∃ (c : CmdRec) (rest : List CmdRec) (g : Fin 12 → Int) (p : Fin 12 → Int) (r : State × Bool) (t : State) (s : State), (nextServed s 0x0905 c rest) ∧ (t = taken s rest) ∧ (c.bytes.length = 44) ∧ (lcOf t = .provisioned ∨ lcOf t = .servicing) ∧ (leAt c.bytes 4 2 ≠ 0) ∧ (leAt c.bytes 4 2 < 4096) ∧ (leAt c.bytes 6 2 = 0) ∧ (∀ n, n < 12 → (calGain c.bytes n).natAbs ≤ 60 ∧ (calPhAdj c.bytes n).natAbs ≤ 32) ∧ (g = fun n => if bitAt (leAt c.bytes 4 2) n.val then calGain c.bytes n.val else t.pres.cal.gain[n]) ∧ (p = fun n => if bitAt (leAt c.bytes 4 2) n.val then calPhAdj c.bytes n.val else t.pres.cal.phAdj[n]) ∧ (r = commitTry { t with pres := { t.pres with cal := { t.pres.cal with gain := Vector.ofFn g, phAdj := Vector.ofFn p } } } calField)) ∧
    (∃ (c : CmdRec) (rest : List CmdRec) (x : Fin 160) (k : Nat → Int) (u : State) (v : State) (t : State) (s : State), (nextServed s 0x0906 c rest) ∧ (t = taken s rest) ∧ (c.bytes.length = 12) ∧ (lcOf t = .provisioned ∨ lcOf t = .servicing) ∧ (mayEmit t = true) ∧ (unheld t .fieldTest = true) ∧ (lockedOut t .passive = false) ∧ (ctxN (byteAt c.bytes 4) = some x) ∧ (byteAt c.bytes 5 ≤ 15) ∧ (tripleByte t (byteAt c.bytes 5) 0 ≠ 0xFF) ∧ ((t.pres.tracked.any fun y => y.ctx == x) = true) ∧ (slotRefusal t (slotAt t (slotKt x)) useAqmos = none) ∧ (trngRefusal t = none) ∧ (k = fun n => s16 (leAt c.bytes (6 + 2 * n) 2) * 1000) ∧ (u = (drbgBytes t 4).2) ∧ (v = spendUse { u with gq := { u.gq with nC := BitVec.ofNat 32 (beAt (drbgBytes t 4).1 0 4), nCFresh := false } } (slotKt x))) ∧
    (∃ (c : CmdRec) (rest : List CmdRec) (x : Fin 160) (t : State) (s : State), (nextServed s 0x0906 c rest) ∧ (t = taken s rest) ∧ (c.bytes.length = 12) ∧ (lcOf t = .provisioned ∨ lcOf t = .servicing) ∧ (mayEmit t = true) ∧ (unheld t .fieldTest = true) ∧ (lockedOut t .passive = true) ∧ (ctxN (byteAt c.bytes 4) = some x) ∧ (byteAt c.bytes 5 ≤ 15) ∧ (tripleByte t (byteAt c.bytes 5) 0 ≠ 0xFF)) ∧
    (∃ (c : CmdRec) (rest : List CmdRec) (t : State) (s : State), (nextServed s 0x0907 c rest) ∧ (t = taken s rest) ∧ (c.bytes.length = 12) ∧ (lcOf t = .blank ∨ lcOf t = .provisioned ∨ lcOf t = .servicing) ∧ (mayEmit t = true) ∧ (unheld t .fieldTest = true) ∧ (byteAt c.bytes 4 = 0) ∧ (byteAt c.bytes 5 ≤ 7) ∧ (byteAt c.bytes 6 ≤ 63) ∧ (byteAt c.bytes 7 = 0) ∧ (leAt c.bytes 8 2 ≠ 0) ∧ (leAt c.bytes 8 2 ≤ 10000) ∧ (leAt c.bytes 10 2 = 0) ∧ (byteAt c.bytes 6 ≤ (vgetN t.tn.chan (byteAt c.bytes 5) {}).pwrMax.toNat)) ∧
    (∃ (c : CmdRec) (rest : List CmdRec) (t : State) (s : State), (nextServed s 0x0907 c rest) ∧ (t = taken s rest) ∧ (c.bytes.length = 12) ∧ (lcOf t = .blank ∨ lcOf t = .provisioned ∨ lcOf t = .servicing) ∧ (mayEmit t = true) ∧ (unheld t .fieldTest = true) ∧ (byteAt c.bytes 4 = 1) ∧ (byteAt c.bytes 5 ≤ 7) ∧ (byteAt c.bytes 6 ≤ 63) ∧ (byteAt c.bytes 7 = 0) ∧ (leAt c.bytes 8 2 ≠ 0) ∧ (leAt c.bytes 8 2 ≤ 10000) ∧ (leAt c.bytes 10 2 = 0) ∧ (byteAt c.bytes 6 ≤ (vgetN t.tn.chan (byteAt c.bytes 5) {}).pwrMax.toNat)) :=
  ⟨⟨cmdRec ([1, 9, 0, 0, 3, 0, 0, 0]), [], _, sCmd (sBlank) ([1, 9, 0, 0, 3, 0, 0, 0]), by decide +kernel, rfl, by decide +kernel⟩,
   ⟨cmdRec ([2, 9, 0, 0, 3, 0, 0, 0]), [], _, sCmd (sBlank) ([2, 9, 0, 0, 3, 0, 0, 0]), by decide +kernel, rfl, by decide +kernel⟩,
   ⟨cmdRec ([3, 9, 0, 0, 0, 0, 0, 0]), [], _, _, sCmd (sBlank) ([3, 9, 0, 0, 0, 0, 0, 0]), by decide +kernel, rfl, by decide +kernel, by decide +kernel, rfl⟩,
   ⟨cmdRec ([4, 9, 0, 0]), [], _, sCmd (sBlank) ([4, 9, 0, 0]), by decide +kernel, rfl, by decide +kernel⟩,
   ⟨cmdRec ([5, 9, 0, 0, 3, 0, 0, 0] ++ zeros 36), [], _, _, _, _, sCmd (sProvd) ([5, 9, 0, 0, 3, 0, 0, 0] ++ zeros 36), by decide +kernel, rfl, by decide +kernel, by decide +kernel, by decide +kernel, by decide +kernel, by decide +kernel, by decide +kernel, rfl, rfl, rfl⟩,
   ⟨cmdRec ([6, 9, 0, 0, 5, 1, 0, 0, 0, 0, 0, 0]), [], 5, _, _, _, _, sCmd (sProbe) ([6, 9, 0, 0, 5, 1, 0, 0, 0, 0, 0, 0]), by decide +kernel, rfl, by decide +kernel, by decide +kernel, by decide +kernel, by decide +kernel, by decide +kernel, by decide +kernel, by decide +kernel, by decide +kernel, by decide +kernel, by decide +kernel, by decide +kernel, rfl, rfl, rfl⟩,
   ⟨cmdRec ([6, 9, 0, 0, 5, 1, 0, 0, 0, 0, 0, 0]), [], 5, _, sCmd ({ sTrack with pres := { sTrack.pres with passive := { endAt := 9 } } }) ([6, 9, 0, 0, 5, 1, 0, 0, 0, 0, 0, 0]), by decide +kernel, rfl, by decide +kernel⟩,
   ⟨cmdRec ([7, 9, 0, 0, 0, 0, 0, 0, 5, 0, 0, 0]), [], _, sCmd (sProvd) ([7, 9, 0, 0, 0, 0, 0, 0, 5, 0, 0, 0]), by decide +kernel, rfl, by decide +kernel⟩,
   ⟨cmdRec ([7, 9, 0, 0, 1, 0, 0, 0, 5, 0, 0, 0]), [], _, sCmd (sProvd) ([7, 9, 0, 0, 1, 0, 0, 0, 5, 0, 0, 0]), by decide +kernel, rfl, by decide +kernel⟩⟩

theorem wit_CommandTraffic :
    (∃ (c : CmdRec) (rest : List CmdRec) (s : State), (servesNow s = true) ∧ (s.cmds.queue = c :: rest) ∧ (opcodeDefined (opcodeOf c.bytes) = false)) ∧
    (∃ (slot : Fin 16) (l : LongCmd) (s : State), (longOf s slot = some l) ∧ (l.work = .done)) ∧
    (∃ (slot : Fin 16) (l : LongCmd) (s : State), (longOf s slot = some l) ∧ (l.work = .program)) ∧
    (∃ (slot : Fin 16) (l : LongCmd) (m : BitVec 12) (since : Nat) (s : State), (longOf s slot = some l) ∧ (l.work = .lfSweep m since) ∧ (m = 0)) ∧
    (∃ (slot : Fin 16) (l : LongCmd) (m : BitVec 6) (since : Nat) (s : State), (longOf s slot = some l) ∧ (l.work = .uwbTest m since)) ∧
    (∃ (slot : Fin 16) (l : LongCmd) (since : Nat) (dur : Nat) (tx : Bool) (s : State), (longOf s slot = some l) ∧ (l.work = .uhfTest since dur tx)) ∧
    (∃ (e : Event) (es : List Event) (t : State) (s : State), (s.ev.ring = e :: es) ∧ (s.cmds.outbox = []) ∧ (s.bar.link = .up) ∧ (s.cmds.repostWait = false) ∧ (roomFor s (recordUnits 48) = true) ∧ (t = postRecord s 2 (byte s.ev.evtIdx.toNat) (evtPayload e s.ev.lost))) :=
  ⟨⟨cmdRec [9, 8, 0, 0], [], sCmd sBlank [9, 8, 0, 0], by decide +kernel⟩,
   ⟨0, { slot := 0, opcode := 0, ctag := 0, res := .none, work := .done }, sLong .done, by decide +kernel⟩,
   ⟨0, { slot := 0, opcode := 0, ctag := 0, res := .none, work := .program }, sLong .program, by decide +kernel⟩,
   ⟨0, { slot := 0, opcode := 0, ctag := 0, res := .none, work := .lfSweep 0 5 }, 0, 5, sLong (.lfSweep 0 5), by decide +kernel, by decide +kernel, rfl⟩,
   ⟨0, { slot := 0, opcode := 0, ctag := 0, res := .none, work := .uwbTest 1 5 }, 1, 5, sLong (.uwbTest 1 5), by decide +kernel⟩,
   ⟨0, { slot := 0, opcode := 0, ctag := 0, res := .none, work := .uhfTest 1 5 true }, 1, 5, true, sLong (.uhfTest 1 5 true), by decide +kernel⟩,
   ⟨sEvent, [], _, { sBlank with ev := { ring := [sEvent] } }, by decide +kernel, by decide +kernel, by decide +kernel, by decide +kernel, by decide +kernel, rfl⟩⟩

theorem wit_StoreAndPartitionEvents :
    (∃ (p : Fin 256) (s : State), ((s.orr.pages[p]).dirty.isSome = true) ∧ (s.orr.ash = false)) ∧
    (∃ (p : Fin 256) (x : NvCopy) (s : State), (currentCopy (s.orr.pages[p]).nv = some x) ∧ (x.txn.toNat ≤ s.orr.txnDone.toNat) ∧ (s.orr.ash = false)) ∧
    (∃ (p : Fin 256) (x : NvCopy) (s : State), (currentCopy (s.orr.pages[p]).nv = some x) ∧ (s.orr.txnDone.toNat < x.txn.toNat)) ∧
    (∃ (s : State), (s.orr.ash = false) ∧ (s.orr.ringCtr.reclaim = false) ∧ (erasedRingPages geoCtr s.orr.ringCtr < 2)) ∧
    (∃ (s : State), (s.orr.ash = false) ∧ (s.orr.ringCtr.reclaim = true)) ∧
    (∃ (s : State), (s.orr.ash = false) ∧ (s.orr.ringSec.reclaim = false) ∧ (erasedRingPages geoSec s.orr.ringSec < 2)) ∧
    (∃ (s : State), (s.orr.ash = false) ∧ (s.orr.ringSec.reclaim = true)) ∧
    (∃ (s : State), (s.orr.ash = false) ∧ (s.orr.journal.reclaim = false) ∧ (erasedRingPages geoJournal s.orr.journal < 2)) ∧
    (∃ (s : State), (s.orr.ash = false) ∧ (s.orr.journal.reclaim = true)) ∧
    (∃ (i : Nat) (s : State), (s.orr.ash = false) ∧ ((List.range 80).find? (fun k => !pageOwned s (150 + k) && !pageErased s (150 + k)) = some i)) ∧
    (∃ (s : State), ((List.range 80).find? (fun k => !pageOwned s (150 + k) && !pageErased s (150 + k)) = none)) ∧
    (∃ (part : Fin 8) (r : PartRight) (t : State) (s : State), (r = s.orr.rights[part]) ∧ (r.read = true ∨ r.write = true) ∧ (t = elapseTo s (r.access + 600 * ticksPerSec))) ∧
    (∃ (part : Fin 8) (n : Nat) (t : State) (s : State), ((s.orr.rights[part]).blocked = some n) ∧ (t = elapseTo s n)) ∧
    (∃ (p : Nat) (data : Bytes) (x : NvPage × Store × Bool) (t : State) (s : State), (s.orr.cycle = some (.page p data)) ∧ (x = commitNv (vgetN s.orr.lw p {}) data 0 (readBacks s none) s.orr) ∧ (t = { s with orr := cycleOver { x.2.1 with lw := vmodN s.orr.lw p fun _ => x.1 } })) ∧
    (∃ (b : BitVec 2) (x : NvPage × Store × Bool) (t : State) (s : State), (s.orr.cycle = some (.status b)) ∧ (x = commitNv s.orr.lwStatus (padTo 32 [byte b.toNat]) 0 (readBacks s none) s.orr) ∧ (t = { s with orr := cycleOver { x.2.1 with lwStatus := x.1 } })) :=
  ⟨⟨3, markDirty sBlank 3, by decide +kernel⟩,
   ⟨3, (nvCommit {} [] 0).c0, { sBlank with orr := { sBlank.orr with pages := vset sBlank.orr.pages 3 { nv := nvCommit {} [] 0 } } }, by decide +kernel⟩,
   ⟨3, (nvCommit {} [] 1).c0, { sBlank with orr := { sBlank.orr with pages := vset sBlank.orr.pages 3 { nv := nvCommit {} [] 1 } } }, by decide +kernel⟩,
   ⟨fullCtr, by decide +kernel⟩,
   ⟨{ sBlank with orr := { sBlank.orr with ringCtr := { reclaim := true } } }, by decide +kernel⟩,
   ⟨fullSec, by decide +kernel⟩,
   ⟨{ sBlank with orr := { sBlank.orr with ringSec := { reclaim := true } } }, by decide +kernel⟩,
   ⟨fullJournal, by decide +kernel⟩,
   ⟨{ sBlank with orr := { sBlank.orr with journal := { reclaim := true } } }, by decide +kernel⟩,
   ⟨0, (commitPage sBlank 150 0 0).1, by decide +kernel⟩,
   ⟨sBlank, by decide +kernel⟩,
   ⟨2, _, _, setRight sBlank 2 { read := true }, rfl, by decide +kernel, rfl⟩,
   ⟨2, 7, _, setRight sBlank 2 { blocked := some 7 }, by decide +kernel, rfl⟩,
   ⟨2, zeros 32, _, _, { sBlank with orr := { sBlank.orr with cycle := some (.page 2 (zeros 32)) } }, by decide +kernel, rfl, rfl⟩,
   ⟨2, _, _, { sBlank with orr := { sBlank.orr with cycle := some (.status 2) } }, by decide +kernel, rfl, rfl⟩⟩

theorem wit_LedgerEvents :
    (∃ (r : LedgerReq) (rs : List LedgerReq) (s : State), (s.orr.ash = false) ∧ (s.keys.lcRetire = false) ∧ (s.ledger.ckptSince = none) ∧ (s.ledger.queue = r :: rs)) ∧
    (∃ (s : State), (s.orr.ash = false) ∧ (s.keys.lcRetire = false) ∧ (s.ledger.ckptSince.isSome = true)) ∧
    (∃ (s : State), (s.keys.lcRetire = true)) ∧
    (∃ (n : Nat) (t : State) (s : State), (s.ledger.ckptSince = some n) ∧ (s.orr.ash = false) ∧ (t = elapseTo s (n + ticksPerSec)) ∧ (n + ticksPerSec ≤ now t)) ∧
    (∃ (s : State), (s.orr.ash = false)) ∧
    (∃ (v : W32) (s : State), (s.ledger.ack.toNat < v.toNat)) ∧
    (∃ (v : W32) (s : State), (v.toNat ≤ s.ledger.ack.toNat)) :=
  ⟨⟨ledgerReq sBlank 4 0 0 none [], [], { sBlank with ledger := { queue := [ledgerReq sBlank 4 0 0 none []] } }, by decide +kernel⟩,
   ⟨{ sBlank with ledger := { ckptSince := some 5 } }, by decide +kernel⟩,
   ⟨{ sBlank with keys := { lcRetire := true } }, by decide +kernel⟩,
   ⟨5, _, { sBlank with ledger := { ckptSince := some 5 } }, by decide +kernel, by decide +kernel, rfl, by decide +kernel⟩,
   ⟨sBlank, by decide +kernel⟩,
   ⟨5, sBlank, by decide +kernel⟩,
   ⟨0, sBlank, by decide +kernel⟩⟩

theorem wit_HfReaderEvents :
    (∃ (t : State) (s : State), (hfAllowed s = true) ∧ (s.hf.field = false) ∧ (t = elapseTo s s.hf.offUntil)) ∧
    (∃ (s : State), (hfAllowed s = false)) ∧
    (∃ (s : State), (s.pwr.pstate = .chalk) ∧ (s.keys.svcLock = false)) ∧
    (∃ (s : State), (s.pwr.pstate ≠ .chalk ∨ s.keys.svcLock = true)) ∧
    (∃ (s : State), (s.hf.lpcd = true) ∧ (s.hf.suspended = false) ∧ (s.hf.field = false) ∧ (s.pwr.pstate = .chalk)) ∧
    (∃ (b : Bytes) (f : HfFrame) (rate : BitVec 2) (s : State), (b = memReadBytes s.hf.txbuf 0 s.hf.txLen.toNat) ∧ (hfFrame b = some f) ∧ (s.hf.field = true) ∧ (f ≠ .hauth ∨ lockedOut s .hf = false) ∧ (rate.toNat = hfRateFor s f)) ∧
    (∃ (b : Bytes) (s : State), (b = memReadBytes s.hf.txbuf 0 s.hf.txLen.toNat) ∧ (hfFrame b = none ∨ (hfFrame b = some .hauth ∧ lockedOut s .hf = true))) ∧
    (∃ (result : BitVec 2) (data : Bytes) (fdt : W16) (t : State) (f : HfFrame) (s : State), (s.hf.phase ≠ .idle ∧ s.hf.phase ≠ .guard) ∧ (s.hf.conf = none) ∧ (t = hfStored s result data fdt) ∧ (hfTxFrame s.hf = some f) ∧ (f = .reqa ∨ f = .wupa)) ∧
    (∃ (data : Bytes) (valid : BitVec 6) (fdt : W16) (t : State) (bits : List Bool) (s : State), (s.hf.phase ≠ .idle ∧ s.hf.phase ≠ .guard) ∧ (s.hf.conf = none) ∧ (t = hfStored s 3 data fdt) ∧ (hfTxFrame s.hf = some .antic) ∧ (bits = (t.hf.uid ++ (data.flatMap lsbBits).take valid.toNat).take 40) ∧ (bits.length < 40)) ∧
    (∃ (data : Bytes) (valid : BitVec 6) (fdt : W16) (t : State) (bits : List Bool) (s : State), (s.hf.phase ≠ .idle ∧ s.hf.phase ≠ .guard) ∧ (s.hf.conf = none) ∧ (t = hfStored s 1 data fdt) ∧ (hfTxFrame s.hf = some .antic) ∧ (bits = (t.hf.uid ++ (data.flatMap lsbBits).take valid.toNat).take 40) ∧ (40 ≤ bits.length)) ∧
    (∃ (data : Bytes) (fdt : W16) (t : State) (s : State), (s.hf.phase ≠ .idle ∧ s.hf.phase ≠ .guard) ∧ (s.hf.conf = none) ∧ (t = hfStored s 1 data fdt) ∧ (hfTxFrame s.hf = some .select) ∧ (bitAt (byteAt data 0) 2 = false)) ∧
    (∃ (data : Bytes) (fdt : W16) (t : State) (x : Fin 160) (s : State), (s.hf.phase = .authSent) ∧ (s.hf.conf = none) ∧ (t = hfStored s 1 data fdt) ∧ (hfTxFrame s.hf = some .hauth) ∧ (fdt.toNat ≤ 8340) ∧ (data.length = 25) ∧ (byteAt data 0 = 0xB2) ∧ (ctxOfId t (beAt data 1 8) = some x) ∧ (hfEnrolled t x = true)) ∧
    (∃ (data : Bytes) (fdt : W16) (t : State) (s : State), (s.hf.phase = .authSent) ∧ (s.hf.conf = none) ∧ (t = hfStored s 1 data fdt) ∧ (hfTxFrame s.hf = some .hauth) ∧ (fdt.toNat ≤ 8340) ∧ (data.length = 25) ∧ (byteAt data 0 = 0xB2) ∧ (ctxOfId t (beAt data 1 8) = none)) ∧
    (∃ (result : BitVec 2) (fdt : W16) (s : State), (s.hf.phase = .authSent) ∧ (s.hf.conf = none) ∧ (hfTxFrame s.hf = some .hauth) ∧ (result ≠ 1 ∨ 8340 < fdt.toNat)) ∧
    (∃ (result : BitVec 2) (data : Bytes) (fdt : W16) (t : State) (s : State), (s.hf.phase ≠ .idle ∧ s.hf.phase ≠ .guard) ∧ (s.hf.conf = none) ∧ (t = hfStored s result data fdt) ∧ (hfTxFrame s.hf = some .hlta ∨ hfTxFrame s.hf = some .hconf)) ∧
    (∃ (s : State), (s.hf.field = true) ∧ (s.hf.phase = .guard)) ∧
    (∃ (t : State) (s : State), (s.hf.field = true) ∧ (t = hfFieldOff (elapseTo s (s.hf.detectedAt + 50 * ticksPerMs)))) ∧
    (∃ (n : Nat) (t : State) (s : State), (s.hf.lingerUntil = some n) ∧ (t = elapseTo s n)) :=
  ⟨⟨_, sBlank, by decide +kernel, by decide +kernel, rfl⟩,
   ⟨{ sBlank with keys := { sBlank.keys with svcLock := true } }, by decide +kernel⟩,
   ⟨sBlank, by decide +kernel⟩,
   ⟨{ sBlank with keys := { sBlank.keys with svcLock := true } }, by decide +kernel⟩,
   ⟨{ sBlank with hf := { lpcd := true } }, by decide +kernel⟩,
   ⟨_, .reqa, 0, { sBlank with hf := { field := true, txLen := 1, txbuf := [(0, 0x26)] } }, rfl, by decide +kernel⟩,
   ⟨_, { sBlank with hf := { field := true, txLen := 1, txbuf := [(0, 0x27)] } }, rfl, by decide +kernel⟩,
   ⟨1, [4, 0], 0, _, .reqa, { sBlank with hf := { field := true, phase := .active, txLen := 1, txbuf := [(0, 0x26)] } }, by decide +kernel, by decide +kernel, rfl, by decide +kernel⟩,
   ⟨[4, 0], 3, 0, _, _, { sBlank with hf := { field := true, phase := .active, txLen := 2, txbuf := [(0, 0x93), (1, 0x20)] } }, by decide +kernel, by decide +kernel, rfl, by decide +kernel, rfl, by decide +kernel⟩,
   ⟨[4, 0, 0, 0, 4], 40, 0, _, _, { sBlank with hf := { field := true, phase := .active, txLen := 2, txbuf := [(0, 0x93), (1, 0x20)] } }, by decide +kernel, by decide +kernel, rfl, by decide +kernel, rfl, by decide +kernel⟩,
   ⟨[0x20], 0, _, { sBlank with hf := { field := true, phase := .active, txLen := 7, txbuf := [(0, 0x93), (1, 0x70)] } }, by decide +kernel, by decide +kernel, rfl, by decide +kernel⟩,
   ⟨0xB2 :: zeros 24, 0, _, 5, { hfProofState with hf := { field := true, phase := .authSent, txLen := 12, txbuf := [(0, 0xB1)] } }, by decide +kernel, by decide +kernel, rfl, by decide +kernel⟩,
   ⟨0xB2 :: zeros 24, 0, _, { sBlank with hf := { field := true, phase := .authSent, txLen := 12, txbuf := [(0, 0xB1)] } }, by decide +kernel, by decide +kernel, rfl, by decide +kernel⟩,
   ⟨0, 0, { sBlank with hf := { field := true, phase := .authSent, txLen := 12, txbuf := [(0, 0xB1)] } }, by decide +kernel⟩,
   ⟨0, [], 0, _, { sBlank with hf := { field := true, phase := .active, txLen := 2, txbuf := [(0, 0x50)] } }, by decide +kernel, by decide +kernel, rfl, by decide +kernel⟩,
   ⟨{ sBlank with hf := { field := true, phase := .guard } }, by decide +kernel⟩,
   ⟨_, { sBlank with hf := { field := true } }, by decide +kernel, rfl⟩,
   ⟨7, _, { sBlank with hf := { lingerUntil := some 7 } }, by decide +kernel, rfl⟩⟩

theorem wit_PassiveAndPressEvents :
    (∃ (x : Fin 64) (es : List (Fin 64)) (s : State), (s.pres.schedEvents = x :: es)) ∧
    (∃ (x : Tracked) (xs : List Tracked) (t : State) (s : State), (sortBy trackFrom s.pres.tracked = x :: xs) ∧ (t = elapseTo s (trackFrom x + trackCadence s)) ∧ (t.pwr.pstate = .chalk) ∧ (t.pres.run = none) ∧ (passiveRuns t = true)) ∧
    (∃ (q : StartRequest) (s : State), (s.pres.startReq = some q) ∧ (q.sent = false)) ∧
    (∃ (q : StartRequest) (t : State) (s : State), (s.pres.startReq = some q) ∧ (q.sent = false) ∧ (t = endStartReq (elapseTo s (q.since + 15 * ticksPerSec)) .policyDenied 2)) ∧
    (∃ (off : BitVec 12) (p : Bytes) (s : State), (windowKept s = true) ∧ (s.tn.sniffUntil = none) ∧ (p = memReadBytes s.cel.win off.toNat 23)) ∧
    (∃ (off : BitVec 12) (p : Bytes) (s : State), (s.tn.sniffUntil.isSome = true) ∧ (p = memReadBytes s.cel.win off.toNat 23)) ∧
    (∃ (s : State), (windowKept s = false) ∧ (s.tn.sniffUntil = none)) ∧
    (∃ (ctx : Fin 160) (x : W32) (n : Nat) (s : State), ((s.ctxs[ctx]).resync = some (x, n))) ∧
    (∃ (ctx : Fin 160) (n : Nat) (s : State), ((s.ctxs[ctx]).macBlock = some n)) ∧
    (∃ (ctx : Fin 160) (n : Nat) (s : State), ((s.ctxs[ctx]).relayUntil = some n)) :=
  ⟨⟨0, [], { sBlank with pres := { schedEvents := [0] } }, by decide +kernel⟩,
   ⟨{ ctx := 5, placement := {}, lastExchange := 0 }, [], _, sPassive, by decide +kernel, rfl, by decide +kernel⟩,
   ⟨{ since := 0, lastTry := 0 }, { sBlank with pres := { startReq := some { since := 0, lastTry := 0 } } }, by decide +kernel⟩,
   ⟨{ since := 0, lastTry := 0 }, _, { sBlank with pres := { startReq := some { since := 0, lastTry := 0 } } }, by decide +kernel, by decide +kernel, rfl⟩,
   ⟨0, _, { sBlank with boot := { sBlank.boot with step := 16 } }, by decide +kernel, by decide +kernel, rfl⟩,
   ⟨0, _, { sBlank with tn := { sniffUntil := some 9 } }, by decide +kernel, rfl⟩,
   ⟨{ sBlank with boot := { sBlank.boot with step := 5 } }, by decide +kernel⟩,
   ⟨5, 9, 7, { sBlank with ctxs := vset sBlank.ctxs 5 { valid := true, resync := some (9, 7) } }, by decide +kernel⟩,
   ⟨5, 7, { sBlank with ctxs := vset sBlank.ctxs 5 { valid := true, macBlock := some 7 } }, by decide +kernel⟩,
   ⟨5, 7, { sBlank with ctxs := vset sBlank.ctxs 5 { valid := true, relayUntil := some 7 } }, by decide +kernel⟩⟩

theorem wit_SessionsAndLockouts :
    (∃ (e : EntrySession) (s : State), (s.pres.entry = some e)) ∧
    (∃ (x : StartSession) (s : State), (s.pres.start = some x)) ∧
    (∃ (path : LockPath) (f : Nat) (fs : List Nat) (t : State) (s : State), ((lockOf s path).fails = f :: fs) ∧ (t = elapseToRtc s (f + lockWindow path + 1))) ∧
    (∃ (path : LockPath) (s : State), (lockedOut s path = true)) ∧
    (∃ (path : LockPath) (s : State), (s.pres.entry = none) ∧ (s.pres.start = none) ∧ ((lockOf s path).fails = []) ∧ (lockedOut s path = false)) :=
  ⟨⟨entryWit, { sBlank with pres := { entry := some entryWit } }, by decide +kernel⟩,
   ⟨startWit, { sBlank with pres := { start := some startWit } }, by decide +kernel⟩,
   ⟨.passive, 7, [], _, { sBlank with pres := { passive := { fails := [7] } } }, by decide +kernel, rfl⟩,
   ⟨.passive, { sBlank with pres := { passive := { endAt := 7 } } }, by decide +kernel⟩,
   ⟨.passive, sBlank, by decide +kernel⟩⟩

theorem wit_ClockCommands :
    (∃ (count : W16) (w : Nat) (s : State), (s.clk.rc16Rdy = true) ∧ (windowPasses .xo count.toNat = true) ∧ (w = Nat.min 3 (s.clk.winXo + 1))) ∧
    (∃ (count : W16) (s : State), (s.clk.rc16Rdy = true) ∧ (windowPasses .xo count.toNat = false)) ∧
    (∃ (count : W16) (w : Nat) (s : State), (s.clk.rc32Ok = true) ∧ (windowPasses .rc16 count.toNat = true) ∧ (w = Nat.min 3 (s.clk.winRc16 + 1))) ∧
    (∃ (count : W16) (s : State), (s.clk.rc32Ok = true) ∧ (windowPasses .rc16 count.toNat = false)) ∧
    (∃ (count : W16) (w : Nat) (s : State), (s.clk.rc32Ok = true) ∧ (windowPasses .rtcCrystal count.toNat = true) ∧ (w = Nat.min 3 (s.clk.winRtc + 1))) ∧
    (∃ (count : W16) (w : Nat) (s : State), (windowPasses .hostCrystal count.toNat = true) ∧ (w = Nat.min 3 (s.clk.winHost + 1))) ∧
    (∃ (s : State), (bitAt s.clk.gate.toNat 2 = true)) ∧
    (∃ (s : State), (s.clk.pllcLock = true)) ∧
    (∃ (s : State), (s.clk.plllLock = true)) ∧
    (∃ (s : State), (s.clk.plluLock = true)) ∧
    (∃ (x : ClockIsland) (gate : Nat) (rdy : Nat) (ticks : Nat) (t : State) (s : State), (gate = (islandClock s x).1) ∧ (rdy = (islandClock s x).2.1) ∧ (ticks = (islandClock s x).2.2.1) ∧ ((islandClock s x).2.2.2 = true) ∧ (bitAt s.clk.gate.toNat gate = true) ∧ (bitAt s.clk.ready.toNat rdy = false) ∧ (t = elapse s ticks)) ∧
    (∃ (o : StartOutcome) (t : State) (s : State), (s.pwr.pstate = .chalk) ∧ (s.boot.step = 3) ∧ (s.boot.locked = false) ∧ (o.xoReady = false ∨ o.rc16Ready = false) ∧ (t = sourceGiveup o (elapseToClock s (s.boot.stepAt + 20 * ticksPerMs)))) ∧
    (∃ (s : State), (s.pwr.pstate = .jet) ∧ (s.pwr.belowRun = false) ∧ (1 ≤ s.clk.attempt) ∧ (s.clk.attempt ≤ 3)) ∧
    (∃ (s : State), (s.pwr.belowRun = true)) ∧
    (∃ (t : State) (s : State), (s.clk.fallback = true) ∧ (s.pwr.pstate = .chalk) ∧ (t = elapseToClock s (s.clk.retryAt + 10 * ticksPerSec))) ∧
    (∃ (count : W16) (s : State), (s.clk.rc32Ok = true) ∧ (windowPasses .rtcCrystal count.toNat = false)) ∧
    (∃ (count : W16) (s : State), (s.clk.hostReady = true) ∧ (windowPasses .hostCrystal count.toNat = false)) ∧
    (∃ (v : W32) (s : State), (bitAt v.toNat 0 ≠ s.clk.refRc16) ∧ (launchActive s = true ∨ (if bitAt v.toNat 0 then s.clk.rc16Rdy else s.clk.xoRdy) = false)) ∧
    (∃ (v : W32) (s : State), (bitAt v.toNat 0 ≠ s.clk.refRc16) ∧ (launchActive s = false) ∧ ((if bitAt v.toNat 0 then s.clk.rc16Rdy else s.clk.xoRdy) = true)) ∧
    (∃ (v : W32) (want : Nat) (new : Nat) (s : State), (want = (bitsOf v 11 0 ||| (s.clk.gate.toNat &&& 8))) ∧ (new = (((List.range 12).filter fun n => bitAt want n && !bitAt s.clk.gate.toNat n).flatMap (gatePath s)).foldl (fun m b => m ||| 2 ^ b) want)) ∧
    (∃ (t : State) (s : State), (s.clk.pllcLock = true) ∧ (s.clk.curPurpure ≠ s.clk.divPurpure) ∧ (t = elapse s (divTicks 64 s.clk.curPurpure))) ∧
    (∃ (t : State) (s : State), (s.clk.pllcLock = true) ∧ (s.clk.curGules ≠ s.clk.divGules) ∧ (t = elapse s (divTicks 64 s.clk.curGules))) ∧
    (∃ (t : State) (s : State), (t = elapse s (divTicks 256 s.clk.curPurpure))) :=
  ⟨⟨2450, _, { sBlank with clk := { rc16Rdy := true } }, by decide +kernel, by decide +kernel, rfl⟩,
   ⟨0, { sBlank with clk := { rc16Rdy := true } }, by decide +kernel⟩,
   ⟨970, _, { sBlank with clk := { rc32Ok := true } }, by decide +kernel, by decide +kernel, rfl⟩,
   ⟨0, { sBlank with clk := { rc32Ok := true } }, by decide +kernel⟩,
   ⟨256, _, { sBlank with clk := { rc32Ok := true } }, by decide +kernel, by decide +kernel, rfl⟩,
   ⟨1280, _, sBlank, by decide +kernel, rfl⟩,
   ⟨{ sBlank with clk := { gate := 4095 } }, by decide +kernel⟩,
   ⟨{ sBlank with clk := { pllcLock := true } }, by decide +kernel⟩,
   ⟨{ sBlank with clk := { plllLock := true } }, by decide +kernel⟩,
   ⟨{ sBlank with clk := { plluLock := true } }, by decide +kernel⟩,
   ⟨.vert, _, _, _, _, { sBlank with clk := { gate := 4095, plllLock := true, pllcLock := true, plluLock := true } }, rfl, rfl, rfl, by decide +kernel, by decide +kernel, by decide +kernel, rfl⟩,
   ⟨{ xoReady := false }, _, { sBlank with boot := { sBlank.boot with step := 3 } }, by decide +kernel, by decide +kernel, by decide +kernel, by decide +kernel, rfl⟩,
   ⟨{ sBlank with pwr := { pstate := .jet }, clk := { attempt := 2 } }, by decide +kernel⟩,
   ⟨{ sBlank with pwr := { pstate := .jet, belowRun := true }, clk := { attempt := 2 } }, by decide +kernel⟩,
   ⟨_, { sBlank with clk := { fallback := true } }, by decide +kernel, by decide +kernel, rfl⟩,
   ⟨0, { sBlank with clk := { rc32Ok := true } }, by decide +kernel⟩,
   ⟨0, { sBlank with clk := { hostReady := true } }, by decide +kernel⟩,
   ⟨1, sBlank, by decide +kernel⟩,
   ⟨1, { sBlank with clk := { rc16Rdy := true } }, by decide +kernel⟩,
   ⟨4095, _, _, sBlank, rfl, rfl⟩,
   ⟨_, { sBlank with clk := { pllcLock := true, divPurpure := 9 } }, by decide +kernel, by decide +kernel, rfl⟩,
   ⟨_, { sBlank with clk := { pllcLock := true, divGules := 9 } }, by decide +kernel, by decide +kernel, rfl⟩,
   ⟨_, sBlank, rfl⟩⟩

theorem wit_PowerAndTouchCommands :
    (∃ (cw : Vector (BitVec 12) 4) (r : Fin 4 → TouchChannel × Bool) (t : State) (s : State), (r = fun n => if touchJudged s n then touchStep s.pwr.touch[n] (cw[n]).toNat (rtcNow s) else (s.pwr.touch[n], false)) ∧ (t = { s with pwr := { s.pwr with touch := Vector.ofFn fun n => (r n).1 } })) ∧
    (∃ (n : Fin 4) (t : State) (s : State), (touchJudged s n = true) ∧ ((s.pwr.touch[n]).tripped = true) ∧ (t = elapseToRtc s ((s.pwr.touch[n]).trippedAt + 60))) ∧
    (∃ (t : State) (s : State), (s.pwr.pstate = .jet) ∧ (t = { s with pwr := { s.pwr with belowRun := false } })) ∧
    (∃ (s : State), (s.pwr.pstate = .chalk)) ∧
    (∃ (s : State), (s.pwr.pstate ≠ .chalk)) ∧
    (∃ (s : State), (s.pwr.pstate = .chalk)) ∧
    (∃ (s : State), (s.boot.step ≠ 11)) ∧
    (∃ (s : State), (s.boot.step = 11)) ∧
    (∃ (vhold : BitVec 10) (t : State) (s : State), (t = { s with pwr := { s.pwr with vbatLow := true, belowRun := true, vhold := vhold, holdOk := decide (42 ≤ vhold.toNat) }, tag := { s.tag with supplied := false } })) ∧
    (∃ (commits : BitVec 5) (t : State) (s : State), (s.pwr.pstate = .ash) ∧ (t = ashStore s (if s.pwr.holdOk then commits.toNat else 0))) ∧
    (∃ (t : State) (s : State), (t = endProgram { s with vert := { s.vert with vlfUv := true } } .vert .busy)) ∧
    (∃ (v : W32) (t : State) (s : State), (t = sableWrite 0x004 v s) ∧ (bitsOf v 1 0 = 0)) ∧
    (∃ (v : W32) (t : State) (s : State), (t = sableWrite 0x004 v s) ∧ (bitsOf v 1 0 ≠ 0)) ∧
    (∃ (t : State) (s : State), (s.pwr.pstate = .chalk) ∧ (s.boot.step = 16) ∧ (s.pwr.woken = true) ∧ (s.pwr.idle = true) ∧ (s.pwr.rest ≠ .chalk) ∧ (s.pwr.entering = none) ∧ (t = elapseToRtc s (s.pwr.idleSince + 10))) ∧
    (∃ (level : Byte) (ticks : W16) (tones : Bool) (start : Nat) (v : State) (u : State) (t : State) (s : State), (s.pwr.pstate = .amber) ∧ (start = s.tn.sniffAt + 9600000 * Nat.max 1 (ceilDiv (s.clock - s.tn.sniffAt) 9600000)) ∧ (v = tbRestart (elapseToClock s start) (if s.clk.fallback then .rc16 else .xo)) ∧ (u = elapse (sniffRx { v with tn := { v.tn with sniffAt := start } } (now v)) 38400) ∧ (sniffHit u level ticks tones = true) ∧ (t = wakeChalk u 16)) ∧
    (∃ (level : Byte) (ticks : W16) (tones : Bool) (start : Nat) (v : State) (u : State) (s : State), (s.pwr.pstate = .amber) ∧ (start = s.tn.sniffAt + 9600000 * Nat.max 1 (ceilDiv (s.clock - s.tn.sniffAt) 9600000)) ∧ (v = tbRestart (elapseToClock s start) (if s.clk.fallback then .rc16 else .xo)) ∧ (u = elapse (sniffRx { v with tn := { v.tn with sniffAt := start } } (now v)) 38400) ∧ (sniffHit u level ticks tones = false)) ∧
    (∃ (n : Nat) (u : State) (t : State) (s : State), (s.tn.sniffUntil = some n) ∧ (u = sniffOff (elapseTo s n)) ∧ (t = { u with tn := { u.tn with nSniffFalse := satInc u.tn.nSniffFalse } })) ∧
    (∃ (t : State) (s : State), (t = { s with host := { s.host with wakeReq := false } }) ∧ (s.pwr.pstate = .jet) ∧ (s.pwr.belowRun = false)) ∧
    (∃ (s : State), (s.pwr.pstate = .jet) ∧ (s.pwr.belowRun = true)) ∧
    (∃ (t : State) (s : State), (t = { s with host := { s.host with wakeReq := false } }) ∧ (s.pwr.pstate = .umber ∨ s.pwr.pstate = .amber)) ∧
    (∃ (s : State), (s.pwr.pstate = .chalk ∨ s.pwr.pstate = .ash)) :=
  ⟨⟨Vector.replicate 4 0, _, _, sBlank, rfl, rfl⟩,
   ⟨1, _, sTouch, by decide +kernel, by decide +kernel, rfl⟩,
   ⟨_, { sBlank with pwr := { pstate := .jet } }, by decide +kernel, rfl⟩,
   ⟨sBlank, by decide +kernel⟩,
   ⟨{ sBlank with pwr := { pstate := .jet } }, by decide +kernel⟩,
   ⟨sBlank, by decide +kernel⟩,
   ⟨sBlank, by decide +kernel⟩,
   ⟨{ sBlank with boot := { sBlank.boot with step := 11 } }, by decide +kernel⟩,
   ⟨5, _, sBlank, rfl⟩,
   ⟨5, _, { sBlank with pwr := { pstate := .ash } }, by decide +kernel, rfl⟩,
   ⟨_, sBlank, rfl⟩,
   ⟨0, _, sBlank, rfl, by decide +kernel⟩,
   ⟨1, _, sBlank, rfl, by decide +kernel⟩,
   ⟨_, { sBlank with pwr := { pstate := .chalk, woken := true, idle := true, rest := .umber } }, by decide +kernel, by decide +kernel, by decide +kernel, by decide +kernel, by decide +kernel, by decide +kernel, rfl⟩,
   ⟨255, 34080, true, _, _, _, _, { sBlank with pwr := { pstate := .amber } }, by decide +kernel, rfl, rfl, rfl, by decide +kernel, rfl⟩,
   ⟨0, 0, false, _, _, _, { sBlank with pwr := { pstate := .amber } }, by decide +kernel, rfl, rfl, rfl, by decide +kernel⟩,
   ⟨7, _, _, { sBlank with tn := { sniffUntil := some 7 } }, by decide +kernel, rfl, rfl⟩,
   ⟨_, { sBlank with pwr := { pstate := .jet } }, rfl, by decide +kernel⟩,
   ⟨{ sBlank with pwr := { pstate := .jet, belowRun := true } }, by decide +kernel⟩,
   ⟨_, { sBlank with pwr := { pstate := .umber } }, rfl, by decide +kernel⟩,
   ⟨sBlank, by decide +kernel⟩⟩

theorem wit_StartUpEvents :
    (∃ (s : State), (s.pwr.pstate = .unpowered)) ∧
    (∃ (s : State), (s.pwr.pstate ≠ .unpowered) ∧ (s.boot.step ≤ 12) ∧ (s.boot.step ≠ 9 ∨ s.boot.running = .none)) ∧
    (∃ (o : StartOutcome) (t : State) (s : State), (s.pwr.pstate = .chalk) ∧ (s.boot.step = 9) ∧ (s.boot.running ≠ .none) ∧ (s.boot.locked = false) ∧ (t = startImage o false (imageFailed (elapseToClock s (s.boot.s9At + 5 * ticksPerMs))))) ∧
    (∃ (t : State) (s : State), (s.pwr.pstate = .chalk) ∧ (s.boot.step = 13) ∧ (s.boot.locked = false) ∧ (t = journalAdd (elapseToClock s (s.boot.stepAt + 100 * ticksPerMs)) 13 6 0 0 [])) ∧
    (∃ (t : State) (s : State), (s.pwr.pstate = .chalk) ∧ (9 ≤ s.boot.step) ∧ (s.boot.step ≤ 15) ∧ (s.boot.running ≠ .none) ∧ (s.boot.locked = false) ∧ (t = elapseToClock s (s.boot.s9At + ticksPerSec))) ∧
    (∃ (o : StartOutcome) (t : State) (s : State), (s.pwr.pstate = .chalk) ∧ (s.boot.step = 16) ∧ (s.boot.skip11 = true) ∧ (sweepMay s = true) ∧ (seqRuns s .vert = false) ∧ (o.vertFails = 0) ∧ (t = (List.finRange 12).foldl (lfCheckRun o) { s with boot := { s.boot with skip11 := false } })) ∧
    (∃ (o : StartOutcome) (s : State), (s.pwr.pstate = .chalk) ∧ (s.boot.step = 16) ∧ (s.boot.skip11 = true) ∧ (sweepMay s = true) ∧ (seqRuns s .vert = false) ∧ (o.vertFails ≠ 0)) ∧
    (∃ (o : StartOutcome) (s : State), (s.pwr.pstate = .chalk) ∧ (s.boot.step = 16) ∧ (s.boot.skip11 = false) ∧ (s.boot.skip12 = true) ∧ (s.clk.fallback = false) ∧ (seqRuns s .azure = false) ∧ (o.uwbFails ≠ 0)) ∧
    (∃ (o : StartOutcome) (t : State) (s : State), (s.pwr.pstate = .chalk) ∧ (s.boot.step = 16) ∧ (s.boot.skip11 = false) ∧ (s.boot.skip12 = true) ∧ (s.clk.fallback = false) ∧ (seqRuns s .azure = false) ∧ (o.uwbFails = 0) ∧ (chainIn o.chainA = true ∨ chainIn o.chainB = true) ∧ (t = uwbCheck o (azureUp { s with boot := { s.boot with skip12 := false } }))) ∧
    (∃ (s : State), (s.pwr.pstate ≠ .chalk ∨ s.boot.step ≠ 16)) :=
  ⟨⟨{ sBlank with pwr := { pstate := .unpowered } }, by decide +kernel⟩,
   ⟨{ sBlank with boot := { sBlank.boot with step := 11 } }, by decide +kernel⟩,
   ⟨{}, _, { sBlank with boot := { sBlank.boot with step := 9 } }, by decide +kernel, by decide +kernel, by decide +kernel, by decide +kernel, rfl⟩,
   ⟨_, { sBlank with boot := { sBlank.boot with step := 13 } }, by decide +kernel, by decide +kernel, by decide +kernel, rfl⟩,
   ⟨_, { sBlank with boot := { sBlank.boot with step := 12 } }, by decide +kernel, by decide +kernel, by decide +kernel, by decide +kernel, by decide +kernel, rfl⟩,
   ⟨{}, _, { sSweep with boot := { sSweep.boot with skip11 := true } }, by decide +kernel, by decide +kernel, by decide +kernel, by decide +kernel, by decide +kernel, by decide +kernel, rfl⟩,
   ⟨{ vertFails := 1 }, { sSweep with boot := { sSweep.boot with skip11 := true } }, by decide +kernel⟩,
   ⟨{ uwbFails := 1 }, { sBlank with boot := { sBlank.boot with skip12 := true } }, by decide +kernel⟩,
   ⟨{ chainA := some 1 }, _, { sBlank with boot := { sBlank.boot with skip12 := true } }, by decide +kernel, by decide +kernel, by decide +kernel, by decide +kernel, by decide +kernel, by decide +kernel, by decide +kernel, by decide +kernel, rfl⟩,
   ⟨{ sBlank with pwr := { pstate := .jet } }, by decide +kernel⟩⟩

theorem wit_BackgroundWork :
    (∃ (tag : Fin 48) (mismatch : Bool) (j : Job) (st : Status) (s : State), (jobAt s tag = some j) ∧ ((endJob s tag mismatch).2 = some st)) ∧
    (∃ (tag : Fin 48) (j : Job) (s : State), (jobAt s tag = some j) ∧ (j.phase = .running) ∧ (j.orphaned = false) ∧ (segWaits j = true)) ∧
    (∃ (s : State), (s.pwr.pstate = .chalk) ∧ (s.orr.ash = false)) ∧
    (∃ (a : Option Int) (b : Option Int) (temp : Int) (due : Nat) (t : State) (u : State) (s : State), (s.pwr.pstate = .chalk) ∧ (due = s.bg.times.delay + 60 * 38400000) ∧ (t = (if tempMoved s temp = true then s else elapseChalk s due)) ∧ (uwbTestMay t = true) ∧ (postingWithin t 1 7680 = false) ∧ (u = chainCorrect (countLate t due (60 * 38400000)) (if t.az.chainA then within64 a else 0) (if t.az.chainB then within64 b else 0))) ∧
    (∃ (a : PortCheck) (b : PortCheck) (due : Nat) (q : Nat × Nat × Nat) (t : State) (u : State) (s : State), (s.pwr.pstate = .chalk) ∧ (due = s.bg.times.classify + 600 * 38400000) ∧ (t = elapseChalk s due) ∧ ((uwbPairs t)[t.bg.pairAt % (uwbPairs t).length]? = some q) ∧ (uwbTestMay t = true) ∧ (postingWithin t 1 12801 = false) ∧ (u = classifyRun (classifyRun (countLoops (countLate t due (600 * 38400000)) 1) q.2.1 a) q.2.2 b)) ∧
    (∃ (coeff : Int) (t : State) (n : Nat) (r : Rtc) (u : State) (s : State), (s.pwr.pstate = .chalk) ∧ (s.rtc.crystal = true) ∧ (s.clk.xoRdy = true) ∧ (s.clk.fallback = false) ∧ (t = elapseChalk s (s.bg.times.drift + 10 * 38400000)) ∧ (n = Nat.min 60 (t.rtc.windows + 1)) ∧ (r = { t.rtc with windows := n, coeff := if n = 60 then coeff else t.rtc.coeff }) ∧ (u = { t with rtc := { r with drift := if n = 60 && t.rtc.drift != 0 then 2 else t.rtc.drift }, bg := { t.bg with times := { t.bg.times with drift := chalkNow t } } })) ∧
    (∃ (due : Nat) (s : State), (s.pwr.pstate = .chalk) ∧ (s.orr.ash = false) ∧ (due = s.bg.times.fold + 1800 * 38400000)) ∧
    (∃ (s : State), (s.pwr.pstate = .chalk)) :=
  ⟨⟨5, false, jOrphan, .keyOrphaned, sJob jOrphan, by decide +kernel⟩,
   ⟨5, jSeg, sJob jSeg, by decide +kernel⟩,
   ⟨sBlank, by decide +kernel⟩,
   ⟨none, none, 0, _, _, _, sBlank, by decide +kernel, rfl, rfl, by decide +kernel, by decide +kernel, rfl⟩,
   ⟨{}, {}, _, (0, 0, 1), _, _, sPair, by decide +kernel, rfl, rfl, by decide +kernel, by decide +kernel, by decide +kernel, rfl⟩,
   ⟨3, _, _, _, _, { sBlank with rtc := { crystal := true }, clk := { xoRdy := true } }, by decide +kernel, by decide +kernel, by decide +kernel, by decide +kernel, rfl, rfl, rfl, rfl⟩,
   ⟨_, sBlank, by decide +kernel, by decide +kernel, rfl⟩,
   ⟨sBlank, by decide +kernel⟩⟩

theorem wit_StepServesTheFrontCommand : ∃ (c : Instr) (rest : List Instr) (s : State), s.pending = c :: rest :=
  ⟨.celTbLoRead, [], { State.reset with pending := [.celTbLoRead] }, rfl⟩

theorem wit_IdleStepIsOneTick : ∃ s : State, s.pending = [] := ⟨State.reset, rfl⟩

theorem wit_QueueIsServedInOrder : ∃ (n : Nat) (s : State), n ≤ s.pending.length ∧ n = 1 :=
  ⟨1, { State.reset with pending := [.celTbLoRead, .celLogNext] }, by decide, rfl⟩

theorem wit_RetiredIsFinal :
    (∃ s t : State, lcOf s = .retired ∧ step s = .next t) ∧ (∃ (n : Nat) (s : State), lcOf s = .retired ∧ n = 3) :=
  ⟨⟨{ State.reset with keys := { lcRetire := true } }, _, by decide +kernel, rfl⟩,
   ⟨3, { State.reset with keys := { lcRetire := true } }, by decide +kernel, rfl⟩⟩

theorem wit_CommandStateRules :
    (∃ (i : Instr) (op : Nat) (c : CmdRec) (rest : List CmdRec) (s : State), commandOpcode i = some op ∧ servesNow s = true ∧
      s.cmds.queue = c :: rest ∧ opcodeOf c.bytes = op ∧ c.bytes.length < 4) ∧
    (∃ (i : Instr) (op : Nat) (c : CmdRec) (rest : List CmdRec) (s : State), commandOpcode i = some op ∧ servesNow s = true ∧
      s.cmds.queue = c :: rest ∧ opcodeOf c.bytes = op ∧ 4 ≤ c.bytes.length ∧ stateBars s op c.bytes = true) :=
  ⟨⟨.sysInfo, 0x0101, cmdRec [1, 1, 0], [], sCmd sBlank [1, 1, 0], by decide +kernel, by decide +kernel, by decide +kernel,
    by decide +kernel, by decide +kernel⟩,
   ⟨.presWake, 0x0202, cmdRec [2, 2, 0, 0], [], sCmd sBlank [2, 2, 0, 0], by decide +kernel, by decide +kernel,
    by decide +kernel, by decide +kernel, by decide +kernel, by decide +kernel⟩⟩

theorem wit_IdleEngineRunsNothing :
    ∃ (i : Instr) (e : SeqId) (op : ProgOp) (n : Nat) (s : State), programOp i = some (e, op, n) ∧
      seqAt (settleSeq s e) e op n = false ∧ ∀ t k, (seqOf s e).wait ≠ .til t k :=
  ⟨.driveOn 1, .vert, .driveOn 1, 1, State.reset, rfl, by decide +kernel, fun _ _ h => nomatch h⟩

theorem wit_LateWaitTbEndsTheProgram :
    ∃ (e : SeqId) (n : Fin 128) (off : BitVec 28) (s0 s : State), s = settleSeq s0 e ∧
      (seqOf s e).entry = some n ∧ seqAt s e (.waitTb off.toNat) 2 = true ∧ waitTick (seqOf s e) off.toNat < now s :=
  ⟨.vert, 3, 5, { sWords .vert [0xE000, 5] with cel := { sProg.cel with timebase := 1000 } }, _, rfl, by decide +kernel⟩

theorem wit_ProgramInstructionsFrame :
    ∃ (c : Instr) (e : SeqId) (s t : State), instrEngine c = some e ∧ exec c s = .next t := ⟨.driveOn 1, .vert, sProg, _, rfl, rfl⟩

theorem wit_HostDieHeld : ∃ (c : Instr) (s : State), isHostRow c = true ∧ s.clk.hostHeld = true :=
  ⟨.wren, { State.reset with clk := { hostHeld := true } }, rfl, rfl⟩

theorem wit_StoresTouchOnlyTheirBytes :
    (∃ (n : BitVec 4) (idx : Bool) (r : Fin 8) (v : Byte) (s t : State),
      (seqOf s .tenne).wait = .ready ∧ exec (.rssi n idx r v) s = .next t) ∧
    (∃ (tick k : Nat) (v : Byte) (s t : State), memWf s.tn.rxbuf = true ∧ (seqOf s .tenne).wait = .til tick (.rssi k v) ∧
      tick ≤ now (elapseTo s tick) ∧ exec (.nop .tenne) s = .next t ∧ 8 * k + 3 < 64) ∧
    (∃ (p : Nat) (d : Bytes) (s t : State), p < 256 ∧ s.orr.cycle = some (.page p d) ∧
      (∀ c, currentCopy (vgetN s.orr.lw p {}) = some c → c.seq.toNat < 0xFFFFFFFF) ∧ exec .lwWriteCycleEnd s = .next t) ∧
    (∃ (off : W16) (v : W32) (s t : State), memWf s.gq.inBuf = true ∧ off.toNat % 4 = 0 ∧ 0x2000 ≤ off.toNat ∧
      off.toNat < 0x5000 ∧ exec (.registerWrite .gules off v) s = .next t) :=
  ⟨⟨2, false, 7, 9, { sRun with seqs := { tenne := { entry := some 3 } } }, _, by decide +kernel, rfl⟩,
   ⟨0, 7, 9, { sRun with seqs := { tenne := { entry := some 3, wait := .til 0 (.rssi 7 9) } } }, _, by decide +kernel, by decide +kernel,
    by decide +kernel, rfl, by decide +kernel⟩,
   ⟨255, [7], { sRun with orr := { sRun.orr with cycle := some (.page 255 [7]) } }, _, by decide +kernel, by decide +kernel,
    (fun c h => absurd (show (none : Option NvCopy) = some c from h) (by simp)), rfl⟩,
   ⟨0x4FFC, 1, sRun, _, by decide +kernel, by decide +kernel, by decide +kernel, by decide +kernel, rfl⟩⟩

theorem wit_EventRingAndLedgerQueue :
    (∃ (code : Nat) (s : State), evtEnabled s.ev.mask code = false) ∧
    (∃ (code : Nat) (s : State), evtEnabled s.ev.mask code = true ∧ s.ev.ring.length < 32) ∧
    (∃ s : State, s.ev.ring.length ≤ 32 ∧ s.ev.ring.length = 32) ∧
    (∃ s : State, s.keys.lcRetire = true) ∧ (∃ s : State, s.keys.lcRetire = false) ∧ (∃ s : State, s.ledger.queue.length ≤ 16) :=
  ⟨⟨0, State.reset, by decide +kernel⟩, ⟨1, State.reset, by decide +kernel, by decide +kernel⟩,
   ⟨{ State.reset with ev := { ring := List.replicate 32 sEvent } }, by decide +kernel, by decide +kernel⟩,
   ⟨{ State.reset with keys := { lcRetire := true } }, by decide +kernel⟩, ⟨State.reset, by decide +kernel⟩,
   ⟨State.reset, by decide +kernel⟩⟩

theorem wit_RingAppendLimits :
    (∃ (g : RingGeo) (rid : Nat), rid < g.ridLo ∨ g.ridHi < rid) ∧
    (∃ (g : RingGeo) (r : Ring) (rid : Nat), g.ridLo ≤ rid ∧ rid ≤ g.ridHi ∧ 0xFFFFFFF0 < r.seq.toNat + (if r.twin then 2 else 1)) ∧
    (∃ (g : RingGeo) (r : Ring) (rid : Nat), g.ridLo ≤ rid ∧ rid ≤ g.ridHi ∧ g.ridHi < 65536 ∧
      r.seq.toNat + (if r.twin then 2 else 1) ≤ 0xFFFFFFF0 ∧ ∀ x ∈ r.slots, x.seq.toNat ≤ r.seq.toNat) :=
  ⟨⟨geoSec, 5, by decide⟩, ⟨geoSec, { seq := 0xFFFFFFF0 }, 4, by decide +kernel, by decide +kernel, by decide +kernel⟩,
   ⟨geoCtr, { seq := 0xFFFFFFEF }, 159, by decide +kernel, by decide +kernel, by decide +kernel, by decide +kernel, by decide +kernel⟩⟩

theorem wit_RingAppendReadsBack :
    ∃ (g : RingGeo) (r : Ring) (rid : Nat) (payload : Bytes), g.ridLo ≤ rid ∧ rid ≤ g.ridHi ∧ g.ridHi < 65536 ∧
      r.seq.toNat + (if r.twin then 2 else 1) ≤ 0xFFFFFFF0 ∧ payload ≠ [] ∧ payload.length ≤ 256 / g.spp - 16 ∧
      (∀ x ∈ r.slots, x.seq.toNat ≤ r.seq.toNat) ∧ 2 ≤ erasedRingPages g r ∧ r.reclaim = false :=
  ⟨geoSec, {}, 1, zeros 48, by decide +kernel, by decide +kernel, by decide +kernel, by decide +kernel, by decide +kernel,
   by decide +kernel, by decide +kernel, by decide +kernel, by decide +kernel⟩

theorem wit_FailuresLockAPathOut :
    (∃ (p : LockPath) (s : State), (freshFails s p).length < 4) ∧
    (∃ (p : LockPath) (s : State), 4 ≤ (freshFails s p).length ∧ p ≠ .credential ∧ s.keys.lcRetire = false) :=
  ⟨⟨.passive, State.reset, by decide +kernel⟩,
   ⟨.passive, { State.reset with pres := { passive := { fails := [0, 0, 0, 0] } } }, by decide +kernel, by decide +kernel, by decide +kernel⟩⟩

end Sys2Proof.Tests
end

section
/-! SUPPORT. The sequence engines at rest: what an instruction that is not at hand leaves, and what the end of a program leaves
(R51, R52, R85, R123, R148). -/

namespace Sys2Proof.Machine

open Sys2Proof

/-! ### The state of one engine -/

@[simp] theorem seqOf_setSeq (s : State) (e : SeqId) (q : Sequencer) : seqOf (setSeq s e q) e = q := by
  cases e <;> rfl

/-- With no instruction of a stated time under way there is nothing to settle. -/
theorem settleSeq_of_wait_ready {s : State} {e : SeqId} (h : (seqOf s e).wait = .ready) : settleSeq s e = s := by
  simp [settleSeq, h]

/-- No instruction is at hand on an engine that runs no program. -/
theorem seqAt_of_not_seqRuns {s : State} {e : SeqId} (h : seqRuns s e = false) (op : ProgOp) (n : Nat) :
    seqAt s e op n = false := by
  simp [seqAt, seqReady, h]

/-! ### An instruction that is not at hand -/

theorem runInstr_of_seqAt_false {s : State} {e : SeqId} {op : ProgOp} {n : Nat} (h : seqAt (settleSeq s e) e op n = false)
    (ticks : Nat) (f : State → State) : runInstr s e op ticks n f = settleSeq s e := by
  simp [runInstr, h]

theorem startInstr_of_seqAt_false {s : State} {e : SeqId} {op : ProgOp} {n : Nat} (h : seqAt (settleSeq s e) e op n = false)
    (w : State → SeqWait) (f : State → State) : startInstr s e op n w f = settleSeq s e := by
  simp [startInstr, h]

theorem withPorts_of_seqAt_false {s : State} {op : ProgOp} {n : Nat} (h : seqAt (settleSeq s .azure) .azure op n = false)
    (ps : State → List (Fin 6)) (f : State → State) : withPorts s op n ps f = settleSeq s .azure := by
  simp [withPorts, h]

theorem doWaitTb_of_seqAt_false {s : State} {e : SeqId} {off : BitVec 28}
    (h : seqAt (settleSeq s e) e (.waitTb off.toNat) 2 = false) : doWaitTb e off s = settleSeq s e := by
  simp [doWaitTb, h]

theorem doTnTxOn_of_seqAt_false {s : State} {p : Fin 3} {step : BitVec 6}
    (h : seqAt (settleSeq s .tenne) .tenne (.tnTxOn p.val step.toNat) 1 = false) : doTnTxOn p step s = settleSeq s .tenne := by
  simp [doTnTxOn, h]

/-- An instruction of a program memory that is not at hand leaves what the end of the instruction before it leaves. -/
theorem exec_of_seqAt_false {i : Instr} {e : SeqId} {op : ProgOp} {n : Nat} {s : State} (hi : programOp i = some (e, op, n))
    (hat : seqAt (settleSeq s e) e op n = false) : exec i s = done s (settleSeq s e) := by
  cases i with
  | halt | nop | loopStart | loopEnd | vertSel | setAmp | setPh | setPhBuf | setFreq | driveOn | driveOff | measure
  | tnSynth | tnRxOn | tnRxOff | tnTxOff | azPhy | azRxOff | azTxOff =>
    cases hi; exact congrArg (done s) (runInstr_of_seqAt_false hat _ _)
  | send | tnWaitLock | dcoc | tnRxFrame | rssi | tnTxFrame =>
    cases hi; exact congrArg (done s) (startInstr_of_seqAt_false hat _ _)
  | azWaitLock t expired =>
    cases expired with
    | false =>
      cases hi
      exact congrArg (done s) (by simp [doAzWaitLock, startInstr_of_seqAt_false hat])
    | true => cases hi
  | azRxOn | azTxOn | azTxFrame | azRxFrame | azLoopback =>
    cases hi
    exact congrArg (done s) (by
      simp only [doAzRxOn, doAzTxOn, doAzTxFrame, doAzRxFrame, doAzLoopback, withPorts_of_seqAt_false hat])
  | waitTb => cases hi; exact congrArg (done s) (doWaitTb_of_seqAt_false hat)
  | tnTxOn => cases hi; exact congrArg (done s) (doTnTxOn_of_seqAt_false hat)
  | _ => cases hi

/-- On an engine whose sequencer is at rest no instruction of its program memory has an effect. -/
theorem exec_of_seqOf_eq_default {i : Instr} {e : SeqId} {op : ProgOp} {n : Nat} {t : State}
    (hi : programOp i = some (e, op, n)) (ht : seqOf t e = {}) : exec i t = .next t := by
  have hsettle : settleSeq t e = t := settleSeq_of_wait_ready (by rw [ht])
  have hat : seqAt (settleSeq t e) e op n = false := seqAt_of_not_seqRuns (by rw [hsettle, seqRuns, ht]; rfl) op n
  rw [exec_of_seqAt_false hi hat, hsettle]
  exact done_eq rfl rfl rfl rfl

/-! ### Drivers and radios idle -/

@[simp] theorem engineIdle_cel (s : State) (e : SeqId) : (engineIdle s e).cel = s.cel := by
  obtain ⟨_, _, _, _, _, h⟩ := engineIdle_frame s e
  rw [h]

/-- Every slot that a stop names is undriven (R85). -/
theorem slotsOff_driven (v : Vert) (t mask : Nat) {i : Fin 3} (h : bitAt mask i.val = true) :
    ((slotsOff v t mask).slot[i]).driven = false := by
  simp [slotsOff, slotStop, h]

theorem engineOff_vertIdle (s : State) : engineOff (vertIdle s) .vert := by
  have hmask : ∀ i : Fin 3, bitAt 7 i.val = true := by decide
  exact ⟨rfl, fun i => slotsOff_driven (cutMask s 7).vert (now (cutMask s 7)) 7 (hmask i)⟩

/-- An exchange boundary concerns the key port and the records: it switches no radio on (R138). -/
theorem engineOff_azBoundary {s : State} (h : engineOff s .azure) : engineOff (azBoundary s) .azure := by
  unfold azBoundary
  split
  · dsimp only; split <;> exact h
  · exact h

theorem engineOff_engineIdle (s : State) (e : SeqId) : engineOff (engineIdle s e) e := by
  cases e with
  | vert => exact engineOff_vertIdle s
  | azure => exact engineOff_azBoundary ⟨rfl, rfl, rfl, rfl⟩
  | tenne => exact ⟨rfl, rfl, rfl⟩

/-! ### The end of a program (R51, R52) -/

theorem endProgram_of_entry {s : State} {e : SeqId} {n : Fin 128} (h : (seqOf s e).entry = some n) (st : Status) :
    endProgram s e st = complete (setSeq (engineIdle s e) e {}) n st := by
  simp [endProgram, h]

/-- The end of a program in Celeste: the completion of its entry at the present tick is appended, and nothing else. -/
theorem endProgram_cel {s : State} {e : SeqId} {n : Fin 128} (h : (seqOf s e).entry = some n) (st : Status) :
    (endProgram s e st).cel = { s.cel with completions := s.cel.completions ++
      [{ entry := n, status := statusCode st, tick := now s, act := (s.cel.entries[n]).firedAt }] } := by
  rw [endProgram_of_entry h]
  simp only [complete, setSeq, now, engineIdle_cel]

theorem seqOf_endProgram {s : State} {e : SeqId} {n : Fin 128} (h : (seqOf s e).entry = some n) (st : Status) :
    seqOf (endProgram s e st) e = {} := by
  rw [endProgram_of_entry h]
  exact seqOf_setSeq _ _ _

theorem engineOff_endProgram {s : State} {e : SeqId} {n : Fin 128} (h : (seqOf s e).entry = some n) (st : Status) :
    engineOff (endProgram s e st) e := by
  rw [endProgram_of_entry h]
  have hidle := engineOff_engineIdle s e
  cases e <;> exact hidle

/-! ### What `keepOtp` leaves of an engine -/

@[simp] theorem seqOf_keepOtp (s t : State) (e : SeqId) : seqOf (keepOtp s t) e = seqOf t e := by
  cases e <;> rfl

@[simp] theorem engineOff_keepOtp (s t : State) (e : SeqId) : engineOff (keepOtp s t) e ↔ engineOff t e := by
  cases e <;> rfl

/-! ### A late WAIT_TB (R52) -/

/-- A WAIT_TB that is reached after its tick ends the program with LAUNCH_LATE. -/
theorem exec_waitTb_late {e : SeqId} {off : BitVec 28} {s : State}
    (hat : seqAt (settleSeq s e) e (.waitTb off.toNat) 2 = true)
    (hlate : waitTick (seqOf (settleSeq s e) e) off.toNat < now (settleSeq s e)) :
    exec (.waitTb e off) s = .next (keepOtp s (endProgram (settleSeq s e) e .launchLate)) := by
  have hend : doWaitTb e off s = endProgram (settleSeq s e) e .launchLate := by simp [doWaitTb, hat, hlate]
  exact congrArg (done s) hend

/-- Settles O52: the late WAIT_TB ends the program, and an engine at rest runs no instruction. -/
theorem lateWaitTbEndsTheProgram : Obligations.LateWaitTbEndsTheProgram := by
  unfold Obligations.LateWaitTbEndsTheProgram
  rintro e n off s0 s rfl hentry hat hlate
  have hcel := endProgram_cel hentry .launchLate
  have hseq : seqOf (keepOtp s0 (endProgram (settleSeq s0 e) e .launchLate)) e = {} := by
    rw [seqOf_keepOtp, seqOf_endProgram hentry]
  refine ⟨_, exec_waitTb_late hat hlate, ?_, ?_, ?_, hseq, ?_, ?_⟩
  · rw [now, keepOtp_cel, hcel]; rfl
  · rw [keepOtp_cel, hcel]
  · exact (engineOff_keepOtp ..).2 (engineOff_endProgram hentry _)
  · rw [seqRuns, hseq]; rfl
  · exact fun i op k hi => exec_of_seqOf_eq_default hi hseq

end Sys2Proof.Machine
end

section
/-! SUPPORT. What an append to a ring answers and what its RID then reads (R305, R306, R309). -/

namespace Sys2Proof.Machine

open Sys2Proof

/-! ### The three answers of an append (R309) -/

theorem ringAppend_of_rid_outside {g : RingGeo} {r : Ring} {rid : Nat} (h : rid < g.ridLo ∨ g.ridHi < rid) (payload : Bytes)
    (bad : Nat) : ringAppend g r rid payload bad = (r, .paramRange) := by
  simp only [ringAppend, Bool.or_eq_true, decide_eq_true_eq, if_pos h]

theorem ringAppend_of_seq_full {g : RingGeo} {r : Ring} {rid : Nat} (hlo : g.ridLo ≤ rid) (hhi : rid ≤ g.ridHi)
    (hfull : 0xFFFFFFF0 < appendSeq r) (payload : Bytes) (bad : Nat) :
    ringAppend g r rid payload bad = (r, .storeFull) := by
  have hin : ¬(rid < g.ridLo ∨ g.ridHi < rid) := by omega
  simp only [ringAppend, Bool.or_eq_true, decide_eq_true_eq, if_neg hin, if_pos hfull]

/-- The record that an append programs, with the ring's next SEQ. -/
def appendedSlot (g : RingGeo) (r : Ring) (rid : Nat) (payload : Bytes) : RingSlot :=
  newSlot g (BitVec.ofNat 32 (appendSeq r)) rid payload

/-- The ring on which an accepted append programs its record: the reclaims that it waits for are over (R307), and the slots
that read back wrong stand behind them (R306). -/
def ringBeforePut (g : RingGeo) (r : Ring) (rid : Nat) (payload : Bytes) (bad : Nat) : Ring :=
  putFailed g (appendedSlot g r rid payload) bad (ringRoom g g.pages r).1

theorem ringAppend_of_accepted {g : RingGeo} {r : Ring} {rid : Nat} (hlo : g.ridLo ≤ rid) (hhi : rid ≤ g.ridHi)
    (hseq : appendSeq r ≤ 0xFFFFFFF0) (payload : Bytes) (bad : Nat) :
    ringAppend g r rid payload bad =
      ({ ringPut g (ringBeforePut g r rid payload bad) (appendedSlot g r rid payload) with
          seq := (appendedSlot g r rid payload).seq, twin := false }, .ok) := by
  have hin : ¬(rid < g.ridLo ∨ g.ridHi < rid) := by omega
  simp only [ringAppend, Bool.or_eq_true, decide_eq_true_eq, if_neg hin, if_neg (Nat.not_lt.2 hseq), ringBeforePut, appendedSlot]

/-! ### The record of an accepted append -/

theorem appendedSlot_rid (g : RingGeo) (r : Ring) {rid : Nat} (h : rid < 65536) (payload : Bytes) :
    (appendedSlot g r rid payload).rid.toNat = rid :=
  Nat.mod_eq_of_lt h

theorem appendedSlot_seq (g : RingGeo) {r : Ring} (h : appendSeq r ≤ 0xFFFFFFF0) (rid : Nat) (payload : Bytes) :
    (appendedSlot g r rid payload).seq.toNat = appendSeq r :=
  Nat.mod_eq_of_lt (by omega)

theorem le_appendSeq (r : Ring) : r.seq.toNat ≤ appendSeq r :=
  Nat.le_add_right ..

/-- Neither the reclaims nor the slots that read back wrong bring a SEQ above that of the record to come. -/
theorem ringBeforePut_bound (g : RingGeo) {r : Ring} (hseq : appendSeq r ≤ 0xFFFFFFF0) (hr : SeqBelow r.seq.toNat r) (rid : Nat)
    (payload : Bytes) (bad : Nat) : SeqBelow (appendSeq r) (ringBeforePut g r rid payload bad) := by
  have hbelow : SeqBelow (appendSeq r) r := fun x hx => Nat.le_trans (hr x hx) (le_appendSeq r)
  exact (putFailed_bound (Nat.le_of_eq (appendedSlot_seq g hseq rid payload)) bad (ringRoom_bound g.pages hbelow).2).2

/-- After an accepted append its record is the current one of its RID. -/
theorem ringSlot_ringAppend {g : RingGeo} {r : Ring} {rid : Nat} (hlo : g.ridLo ≤ rid) (hhi : rid ≤ g.ridHi)
    (hrid : rid < 65536) (hseq : appendSeq r ≤ 0xFFFFFFF0) (hr : SeqBelow r.seq.toNat r) (payload : Bytes) (bad : Nat) :
    ringSlot (ringAppend g r rid payload bad).1 rid =
      some { appendedSlot g r rid payload with addr := (ringBeforePut g r rid payload bad).wp } := by
  have hput := ringSlot_ringPut (g := g) (ringBeforePut_bound g hseq hr rid payload bad)
    (Nat.le_of_eq (appendedSlot_seq g hseq rid payload).symm) (slotValid_newSlot g _ rid payload _)
  rw [appendedSlot_rid g r hrid payload] at hput
  rw [ringAppend_of_accepted hlo hhi hseq]
  exact hput

/-! ### Tombstones (R309) -/

/-- A RID whose current record has LEN 0 reads as one without a record. -/
theorem ringRead_of_tombstone {r : Ring} {rid : Nat} {x : RingSlot} (h : ringSlot r rid = some x) (hlen : x.len = 0) :
    ringRead r rid = none := by
  simp only [ringRead, h, hlen, if_true]

theorem appendedSlot_len_nil (g : RingGeo) (r : Ring) (rid : Nat) : (appendedSlot g r rid []).len = 0 :=
  Nat.min_zero _

/-- Settles O57: the two refusals leave the ring, and an accepted append with LEN 0 is the current record of its RID. -/
theorem ringAppendLimits : Obligations.RingAppendLimits := by
  unfold Obligations.RingAppendLimits
  intro g r rid bad
  refine ⟨fun payload hout => ringAppend_of_rid_outside hout payload bad,
    fun payload hlo hhi hfull => ringAppend_of_seq_full hlo hhi hfull payload bad,
    fun hlo hhi hgeo hseq hr => ⟨?_, ?_⟩⟩
  · rw [ringAppend_of_accepted hlo hhi hseq]
  · exact ringRead_of_tombstone (ringSlot_ringAppend hlo hhi (by omega) hseq hr [] bad) (appendedSlot_len_nil g r rid)

end Sys2Proof.Machine
end

section
/-! SUPPORT. What every step keeps: it serves the front command to its end, takes it from the queue and merges OTP
(R236, R237, R240, R437). -/

namespace Sys2Proof.Machine

open Sys2Proof

/-! ### One step -/

/-- Every row ends by merging the OTP of the state it began in. -/
theorem exec_eq_done (c : Instr) (s : State) : ∃ t, exec c s = done s t := by
  cases c <;> exact ⟨_, rfl⟩

theorem step_of_pending_cons {c : Instr} {rest : List Instr} {s : State} (h : s.pending = c :: rest) :
    step s = exec c { s with pending := rest } := by
  simp only [step, h]

theorem step_of_pending_nil {s : State} (h : s.pending = []) : step s = done s (elapse s 1) := by
  simp only [step, h]

/-- A step merges the OTP of the state that its command finds, in which the queue has lost the front command. -/
theorem step_eq_done (s : State) : ∃ t, step s = done { s with pending := s.pending.tail } t := by
  cases h : s.pending with
  | nil => exact ⟨elapse s 1, by rw [List.tail_nil, ← h]; exact step_of_pending_nil h⟩
  | cons c rest =>
    rw [step_of_pending_cons h]
    exact exec_eq_done c _

/-- What a step leaves of the queue and of OTP. -/
theorem step_next {s t : State} (h : step s = .next t) : t.pending = s.pending.tail ∧ OtpForward s t := by
  obtain ⟨u, hu⟩ := step_eq_done s
  obtain rfl : keepOtp { s with pending := s.pending.tail } u = t := Host.Outcome.next.inj (hu.symm.trans h)
  exact ⟨rfl, rfl, fun hb => by simp [hb], fun hb => by simp [hb], fun hb => by simp [hb], Nat.le_max_left ..⟩

theorem step_completes (s : State) : ∃ t, step s = .next t := by
  obtain ⟨t, h⟩ := step_eq_done s
  exact ⟨_, h⟩

/-! ### A run of any length -/

theorem runFor_succ {s t : State} (h : step s = .next t) (n : Nat) : runFor (n + 1) s = runFor n t := by
  simp only [runFor, h]

/-- What a reflexive and transitive relation says of every step it says of every run. -/
theorem runFor_of_step {R : State → State → Prop} (hrefl : ∀ s, R s s) (htrans : ∀ {s t u}, R s t → R t u → R s u)
    (hstep : ∀ {s t}, step s = .next t → R s t) (n : Nat) (s : State) : R s (runFor n s) := by
  induction n generalizing s with
  | zero => exact hrefl s
  | succ n ih =>
    obtain ⟨t, ht⟩ := step_completes s
    rw [runFor_succ ht]
    exact htrans (hstep ht) (ih t)

theorem OtpForward.refl (s : State) : OtpForward s s := ⟨rfl, id, id, id, Nat.le_refl _⟩

theorem OtpForward.trans {s t u : State} : OtpForward s t → OtpForward t u → OtpForward s u
  | ⟨serial, prov, field, retire, arb⟩, ⟨serial', prov', field', retire', arb'⟩ =>
    ⟨serial'.trans serial, prov' ∘ prov, field' ∘ field, retire' ∘ retire, Nat.le_trans arb arb'⟩

theorem runFor_otpForward (n : Nat) (s : State) : OtpForward s (runFor n s) :=
  runFor_of_step OtpForward.refl OtpForward.trans (fun h => (step_next h).2) n s

/-- Settles O48: OTP goes forward at every step, and so over every run. -/
theorem otpNeverGoesBack : Obligations.OtpNeverGoesBack := by
  unfold Obligations.OtpNeverGoesBack
  exact runFor_otpForward

/-! ### Retired (R237, R240) -/

/-- The Retired fuse alone makes a device Retired. -/
theorem lcOf_eq_retired_iff (s : State) : lcOf s = .retired ↔ s.keys.lcRetire = true := by
  unfold lcOf
  repeat' split
  all_goals simp_all

theorem OtpForward.retired {s t : State} (h : OtpForward s t) (hs : lcOf s = .retired) : lcOf t = .retired := by
  obtain ⟨-, -, -, retire, -⟩ := h
  exact (lcOf_eq_retired_iff t).2 (retire ((lcOf_eq_retired_iff s).1 hs))

/-- Settles O49: the Retired fuse stays blown at every step and over every run. -/
theorem retiredIsFinal : Obligations.RetiredIsFinal := by
  unfold Obligations.RetiredIsFinal
  exact ⟨fun s t hs h => (step_next h).2.retired hs, fun n s hs => (runFor_otpForward n s).retired hs⟩

/-! ### The queue -/

theorem runFor_pending (n : Nat) (s : State) : (runFor n s).pending = s.pending.drop n := by
  induction n generalizing s with
  | zero => rfl
  | succ n ih =>
    obtain ⟨t, ht⟩ := step_completes s
    rw [runFor_succ ht, ih, (step_next ht).1, List.drop_tail]

/-- Settles O47: each step takes the front command, so `n` steps take the first `n`. -/
theorem queueIsServedInOrder : Obligations.QueueIsServedInOrder := by
  unfold Obligations.QueueIsServedInOrder
  exact fun n s _ => runFor_pending n s

/-- Settles O46: every row and every step end in a next state. -/
theorem everyCommandCompletes : Obligations.EveryCommandCompletes := by
  unfold Obligations.EveryCommandCompletes
  exact ⟨fun c s => (exec_eq_done c s).imp' (keepOtp s) fun _ h => h, step_completes⟩

/-- Settles O42. -/
theorem stepServesTheFrontCommand : Obligations.StepServesTheFrontCommand := by
  unfold Obligations.StepServesTheFrontCommand
  exact fun _ _ _ h => step_of_pending_cons h

/-! ### The small rules of a step (R30) -/

theorem elapse_timebase (s : State) (n : Nat) :
    (elapse s n).cel.timebase = if s.cel.tbRun then s.cel.timebase + n else s.cel.timebase := by
  dsimp only [elapse]
  split <;> rfl

/-- Settles O43. -/
theorem idleStepIsOneTick : Obligations.IdleStepIsOneTick := by
  unfold Obligations.IdleStepIsOneTick
  exact fun s h => ⟨(step_of_pending_nil h).trans (done_eq rfl rfl rfl rfl), elapse_clock s 1, elapse_timebase s 1⟩

/-- Settles O44. -/
theorem noWordSpellsACommand : Obligations.NoWordSpellsACommand := by
  unfold Obligations.NoWordSpellsACommand
  exact fun _ _ _ => ⟨rfl, rfl⟩

/-- Settles O45. -/
theorem resetState : Obligations.ResetState := by
  unfold Obligations.ResetState
  decide +kernel

end Sys2Proof.Machine
end

section
/-! SUPPORT. Rows without an effect: instructions that are not at hand (R51) and the rows of a host die that is held in reset
(R404). -/

namespace Sys2Proof.Machine

open Sys2Proof

theorem settleSeq_of_wait_not_til {s : State} {e : SeqId} (h : ∀ t k, (seqOf s e).wait ≠ .til t k) : settleSeq s e = s := by
  unfold settleSeq
  split
  · exact absurd ‹_› (h _ _)
  · rfl

/-- Settles O51: an instruction that is not at hand leaves what the end of the one before it leaves. -/
theorem idleEngineRunsNothing : Obligations.IdleEngineRunsNothing := by
  unfold Obligations.IdleEngineRunsNothing
  intro i e op n s hi hat
  have hexec : exec i s = done s (settleSeq s e) := exec_of_seqAt_false hi hat
  refine ⟨hexec, fun hwait => ?_⟩
  rw [hexec, settleSeq_of_wait_not_til hwait]
  exact done_eq rfl rfl rfl rfl

/-- Every row of the host die runs under the guard of its reset. -/
theorem exec_of_isHostRow {c : Instr} (h : isHostRow c = true) (s : State) : ∃ f, exec c s = done s (hostRuns f s) := by
  cases c
  case spiRead | spiWrite | bread | breadCompletionDiscard | bwrite | csConflict | wren | wrdi | rdsr | wrsr | legacyRead
    | legacyWrite | mbDoorbell | rxqPop | wakeReq | vsReport | vsOdo | vsCfgWrite | vsCfgLock | vsTimeout | readbackFaultClear
    | readbackFault | doorDebouncedChange | canErrlatRead | brAnomRead | permitReadbackSample | engineStatus | immoStatusPeriod
    | j1939Request | j1939CanxTimeout | bamPacket | j1939Cts | j1939TpTimeout | canBusOff =>
    exact ⟨_, rfl⟩
  all_goals cases h

theorem hostRuns_of_held {s : State} (h : s.clk.hostHeld = true) (f : State → State) : hostRuns f s = s := by
  simp only [hostRuns, h, if_true]

theorem hostRuns_of_not_held {s : State} (h : s.clk.hostHeld = false) (f : State → State) : hostRuns f s = f s := by
  simp only [hostRuns, h, Bool.false_eq_true, if_false]

/-- Settles O54: the guard of a held host die leaves the state. -/
theorem hostDieHeld : Obligations.HostDieHeld := by
  unfold Obligations.HostDieHeld
  intro c s hrow hheld
  obtain ⟨f, hf⟩ := exec_of_isHostRow hrow s
  rw [hf, hostRuns_of_held hheld]
  exact done_eq rfl rfl rfl rfl

end Sys2Proof.Machine
end

section
/-! SUPPORT. The EVT ring (R387), the ledger queue (R329) and the lock-out of a path (R176, R177, R212, R238). -/

namespace Sys2Proof.Machine

open Sys2Proof

/-! ### The EVT ring -/

/-- EVT_TAMPER and EVT_BOOT, which no event displaces (R387). -/
def evtKept (x : Event) : Bool := x.code == 7 || x.code == 9

/-- The kept entry that leaves the ring is neither EVT_TAMPER nor EVT_BOOT, and it is one. -/
theorem evtDropOldest_eq_some {l r : List Event} (h : evtDropOldest l = some r) :
    r.length + 1 = l.length ∧ r.filter evtKept = l.filter evtKept := by
  induction l generalizing r with
  | nil => cases h
  | cons e es ih =>
    by_cases he : evtKept e = true
    · obtain ⟨r', hr, rfl⟩ := Option.map_eq_some_iff.1 ((if_pos he).symm.trans h)
      obtain ⟨hlen, hfilter⟩ := ih hr
      exact ⟨by simp [hlen], by simp [he, hfilter]⟩
    · obtain rfl : es = r := Option.some.inj ((if_neg he).symm.trans h)
      exact ⟨rfl, by simp [he]⟩

theorem evtKept_of_code_two {x : Event} (h : (x.code == 2) = true) : evtKept x = false := by
  rw [evtKept, eq_of_beq h]; rfl

/-- An EVT_PRESENCE takes the place of an EVT_PRESENCE. -/
theorem evtReplace_eq_some {x : Event} {l r : List Event} (hx : (x.code == 2) = true) (h : evtReplace x l = some r) :
    r.length = l.length ∧ r.filter evtKept = l.filter evtKept := by
  induction l generalizing r with
  | nil => cases h
  | cons e es ih =>
    simp only [evtReplace] at h
    split at h
    · rename_i hc
      obtain ⟨he, -⟩ := Bool.and_eq_true_iff.1 hc
      cases h
      exact ⟨rfl, by simp [evtKept_of_code_two he, evtKept_of_code_two hx]⟩
    · obtain ⟨r', hr, rfl⟩ := Option.map_eq_some_iff.1 h
      obtain ⟨hlen, hfilter⟩ := ih hr
      exact ⟨by rw [List.length_cons, List.length_cons, hlen], by rw [List.filter_cons, List.filter_cons, hfilter]⟩

theorem evtPush_of_room {v : Events} (h : v.ring.length < 32) (x : Event) : evtPush v x = { v with ring := v.ring ++ [x] } := by
  simp only [evtPush, h, if_true]

/-- What the ring is after an event: the event appended, in the place of another EVT_PRESENCE, after the oldest that may go, or
lost (R387). -/
theorem evtPush_ring (v : Events) (x : Event) :
    (evtPush v x).ring.length ≤ max 32 v.ring.length ∧ v.ring.filter evtKept <+: (evtPush v x).ring.filter evtKept := by
  unfold evtPush
  split
  · exact ⟨by simp only [List.length_append, List.length_singleton]; omega, by simp⟩
  · split
    · rename_i r hr
      obtain ⟨hx, hr⟩ : (x.code == 2) = true ∧ evtReplace x v.ring = some r := Option.ite_none_right_eq_some.1 hr
      obtain ⟨hlen, hfilter⟩ := evtReplace_eq_some hx hr
      exact ⟨by simp only; omega, by simp [hfilter]⟩
    · split
      · rename_i r hr
        obtain ⟨hlen, hfilter⟩ := evtDropOldest_eq_some hr
        exact ⟨by simp only [List.length_append, List.length_singleton]; omega, by simp [hfilter]⟩
      · exact ⟨Nat.le_max_right .., List.prefix_refl _⟩

theorem postEvent_of_masked {s : State} {code : Nat} (h : evtEnabled s.ev.mask code = false) (st : Status) (b : Bytes) :
    postEvent s code st b = s := by
  simp [postEvent, h]

theorem postEvent_of_enabled {s : State} {code : Nat} (h : evtEnabled s.ev.mask code = true) (st : Status) (b : Bytes) :
    (postEvent s code st b).ev =
      evtPush s.ev { code := byte code, status := statusCode st, rtcS := s.rtc.secs, tb := tbField s, body := b } := by
  simp only [postEvent, h, if_true]

theorem postEvent_ring (s : State) (code : Nat) (st : Status) (b : Bytes) :
    (postEvent s code st b).ev.ring.length ≤ max 32 s.ev.ring.length ∧
      s.ev.ring.filter evtKept <+: (postEvent s code st b).ev.ring.filter evtKept := by
  cases h : evtEnabled s.ev.mask code with
  | true => rw [postEvent_of_enabled h]; exact evtPush_ring ..
  | false => rw [postEvent_of_masked h]; exact ⟨Nat.le_max_right .., List.prefix_refl _⟩

/-! ### The ledger queue -/

theorem ledgerQueue_of_retired {s : State} (h : s.keys.lcRetire = true) (r : LedgerReq) : ledgerQueue s r = s := by
  simp only [ledgerQueue, h, if_true]

/-- A request is the last of those that wait, in the queue and outside it (R329). -/
theorem ledgerQueue_waiting {s : State} (h : s.keys.lcRetire = false) (r : LedgerReq) :
    (ledgerQueue s r).ledger.queue ++ (ledgerQueue s r).ledger.outside = s.ledger.queue ++ s.ledger.outside ++ [r] := by
  simp only [ledgerQueue, h, Bool.false_eq_true, if_false]
  split
  · rename_i hroom
    obtain ⟨-, hout⟩ := Bool.and_eq_true_iff.1 hroom
    simp [List.isEmpty_iff.1 hout]
  · simp

theorem ledgerQueue_length_le {s : State} (h : s.ledger.queue.length ≤ 16) (r : LedgerReq) :
    (ledgerQueue s r).ledger.queue.length ≤ 16 := by
  unfold ledgerQueue
  split
  · exact h
  · split
    · rename_i hroom
      obtain ⟨hlt, -⟩ := Bool.and_eq_true_iff.1 hroom
      simp only [List.length_append, List.length_singleton]
      have hfree := of_decide_eq_true hlt
      omega
    · exact h

/-- Settles O56. -/
theorem eventRingAndLedgerQueue : Obligations.EventRingAndLedgerQueue := by
  unfold Obligations.EventRingAndLedgerQueue
  refine ⟨fun code st b s => ⟨fun h => postEvent_of_masked h st b, rfl, rfl, fun h => ?_, (postEvent_ring s code st b).2,
      fun h hroom => ?_⟩,
    fun r s => ⟨fun h => ledgerQueue_of_retired h r, fun h => ledgerQueue_waiting h r, fun h => ledgerQueue_length_le h r⟩⟩
  · exact Nat.le_trans (postEvent_ring s code st b).1 (Nat.max_le.2 ⟨Nat.le_refl _, h⟩)
  · rw [postEvent_of_enabled h, evtPush_of_room hroom]
    exact ⟨_, rfl, rfl, rfl, rfl⟩

/-! ### Failures of a path -/

@[simp] theorem lockOf_setLock_same (s : State) (p : LockPath) (l : Lockout) : lockOf (setLock s p l) p = l := by
  cases p <;> rfl

theorem lockOf_setLock_ne {p q : LockPath} (h : q ≠ p) (s : State) (l : Lockout) : lockOf (setLock s p l) q = lockOf s q := by
  cases p <;> cases q <;> simp_all [lockOf, setLock]

/-- The lists lie in the presence decision and the credentials. -/
theorem lockOf_congr {s t : State} (hpres : t.pres = s.pres) (hcreds : t.creds = s.creds) (p : LockPath) :
    lockOf t p = lockOf s p := by
  cases p <;> simp only [lockOf, hpres, hcreds]

/-- An append to RING_SEC is a matter of the record store. -/
theorem appendSec_orr_congr {s t : State} (h : t.orr = s.orr) (n : Nat) (d : Bytes) :
    (appendSec t n d).orr = (appendSec s n d).orr := by
  simp only [appendSec, h]
  split <;> simp only [h]

/-- Nothing but the path's own list and its record changes where a failure does not lock the path out. -/
theorem addFailure_of_few {s : State} {p : LockPath} (h : (freshFails s p).length < 4) :
    addFailure s p = saveLock (setLock s p { lockOf s p with fails := freshFails s p ++ [rtcNow s] }) p := by
  have hlt : ¬ 5 ≤ (freshFails s p ++ [rtcNow s]).length := by
    rw [List.length_append, List.length_singleton]; omega
  simp only [addFailure, if_neg hlt]

theorem addFailure_of_fifth {s : State} {p : LockPath} (h : 4 ≤ (freshFails s p).length) :
    addFailure s p = enterLockout s p := by
  have hle : 5 ≤ (freshFails s p ++ [rtcNow s]).length := by
    rw [List.length_append, List.length_singleton]; omega
  simp only [addFailure, if_pos hle]

/-- The list that a failure leaves (R176). -/
def lockAfter (s : State) (p : LockPath) : Lockout :=
  if 4 ≤ (freshFails s p).length then { fails := [], endAt := rtcNow s + lockSecs s p }
  else { lockOf s p with fails := freshFails s p ++ [rtcNow s] }

/-- A lock-out sets the path's list and saves it; its event and its entry touch neither the lists nor the record store. -/
theorem enterLockout_saved (s : State) (p : LockPath) :
    ∃ ledger' ev', enterLockout s p =
      { saveLock (setLock s p { fails := [], endAt := rtcNow s + lockSecs s p }) p with ledger := ledger', ev := ev' } := by
  simp only [enterLockout]
  generalize saveLock _ p = u
  obtain ⟨ev', hev⟩ := evtLockout_frame u p 0 (rtcNow s + lockSecs s p)
  split
  · exact ⟨_, ev', hev⟩
  · obtain ⟨ledger', hledger⟩ := ledgerAdd_frame (evtLockout u p 0 (rtcNow s + lockSecs s p)) 7 0 0 none
      ([byte (lockCode p), 0] ++ leBytes 4 (rtcNow s + lockSecs s p))
    exact ⟨ledger', ev', by rw [hledger, hev]⟩

theorem saveLock_setLock_ledger (s : State) (p : LockPath) (l : Lockout) : (saveLock (setLock s p l) p).ledger = s.ledger := by
  obtain ⟨_, _, hset⟩ := setLock_frame s p l
  obtain ⟨_, hsave⟩ := saveLock_frame (setLock s p l) p
  rw [hsave, hset]

theorem saveLock_setLock_keys (s : State) (p : LockPath) (l : Lockout) : (saveLock (setLock s p l) p).keys = s.keys := by
  obtain ⟨_, _, hset⟩ := setLock_frame s p l
  obtain ⟨_, hsave⟩ := saveLock_frame (setLock s p l) p
  rw [hsave, hset]

/-- The lock-out of the passive or HF path requests one entry of type 7 (R176, R325). -/
theorem enterLockout_requests {s : State} {p : LockPath} (hp : p ≠ .credential) (hlc : s.keys.lcRetire = false) :
    ∃ r : LedgerReq, r.type.toNat = 7 ∧
      (enterLockout s p).ledger.queue ++ (enterLockout s p).ledger.outside = s.ledger.queue ++ s.ledger.outside ++ [r] := by
  have hledger := saveLock_setLock_ledger s p { fails := [], endAt := rtcNow s + lockSecs s p }
  have hkeys := saveLock_setLock_keys s p { fails := [], endAt := rtcNow s + lockSecs s p }
  simp only [enterLockout]
  generalize saveLock _ p = u at hledger hkeys ⊢
  rw [← hledger]
  have hadd := ledgerQueue_waiting (s := evtLockout u p 0 (rtcNow s + lockSecs s p)) (by rw [← hlc, ← hkeys]; rfl)
  exact ⟨ledgerReq _ 7 0 0 none _, rfl, hadd _⟩

theorem addFailure_saved (s : State) (p : LockPath) :
    ∃ ledger' ev', addFailure s p = { saveLock (setLock s p (lockAfter s p)) p with ledger := ledger', ev := ev' } := by
  by_cases h : 4 ≤ (freshFails s p).length
  · rw [addFailure_of_fifth h, lockAfter, if_pos h]
    exact enterLockout_saved s p
  · rw [addFailure_of_few (by omega), lockAfter, if_neg h]
    exact ⟨_, _, rfl⟩

theorem lockOf_addFailure (s : State) (p q : LockPath) : lockOf (addFailure s p) q = lockOf (setLock s p (lockAfter s p)) q := by
  obtain ⟨ledger', ev', h⟩ := addFailure_saved s p
  obtain ⟨orr', hsave⟩ := saveLock_frame (setLock s p (lockAfter s p)) p
  rw [h, hsave]
  exact lockOf_congr rfl rfl q

theorem addFailure_ledger_of_few {s : State} {p : LockPath} (h : (freshFails s p).length < 4) :
    (addFailure s p).ledger = s.ledger := by
  obtain ⟨pres', creds', hset⟩ := setLock_frame s p { lockOf s p with fails := freshFails s p ++ [rtcNow s] }
  obtain ⟨orr', hsave⟩ := saveLock_frame (setLock s p { lockOf s p with fails := freshFails s p ++ [rtcNow s] }) p
  rw [addFailure_of_few h, hsave, hset]

/-- Either way the path's list and end go to its RING_SEC record (R177). -/
theorem addFailure_orr (s : State) (p : LockPath) :
    (addFailure s p).orr = (appendSec s (lockRid p) (lockoutPayload (lockOf (addFailure s p) p))).orr := by
  obtain ⟨ledger', ev', h⟩ := addFailure_saved s p
  obtain ⟨pres', creds', hset⟩ := setLock_frame s p (lockAfter s p)
  rw [lockOf_addFailure, h, saveLock]
  exact appendSec_orr_congr (by rw [hset]) _ _

/-- Settles O59. -/
theorem failuresLockAPathOut : Obligations.FailuresLockAPathOut := by
  unfold Obligations.FailuresLockAPathOut
  intro p s
  refine ⟨fun h => ⟨?_, addFailure_ledger_of_few h⟩, fun h => ⟨?_, fun hp hlc => ?_⟩, addFailure_orr s p, fun q hq => ?_⟩
  · rw [lockOf_addFailure, lockOf_setLock_same, lockAfter, if_neg (by omega)]
  · rw [lockOf_addFailure, lockOf_setLock_same, lockAfter, if_pos h]
  · rw [addFailure_of_fifth h]
    exact enterLockout_requests hp hlc
  · rw [lockOf_addFailure, lockOf_setLock_ne hq]

end Sys2Proof.Machine
end

section
/-! SUPPORT. An append reads back, and with two pages erased it leaves every other RID (R305 to R307). -/

namespace Sys2Proof.Machine

open Sys2Proof

/-- A payload that fits stands in its slot uncut, so that its LEN bytes are the payload. -/
theorem ringRead_of_appendedSlot {g : RingGeo} {r q : Ring} {rid a : Nat} {payload : Bytes} (hne : payload ≠ [])
    (hfit : payload.length ≤ payloadLen g) (h : ringSlot q rid = some { appendedSlot g r rid payload with addr := a }) :
    ringRead q rid = some payload := by
  have hlen : (appendedSlot g r rid payload).len = payload.length := Nat.min_eq_right hfit
  have hpos : payload.length ≠ 0 := fun h0 => hne (List.length_eq_zero_iff.1 h0)
  have htake : (appendedSlot g r rid payload).payload.take payload.length = payload := by
    simp [appendedSlot, newSlot, padTo, List.take_of_length_le hfit]
  simp only [ringRead, h, hlen, if_neg hpos, htake]

/-- With two pages erased and no reclaim under way an append waits for none. -/
theorem ringRoom_of_room {g : RingGeo} {r : Ring} (hpages : 2 ≤ erasedRingPages g r) (hrec : r.reclaim = false) (k : Nat) :
    (ringRoom g k r).1 = r := by
  have hdue : reclaimDue g r = false := by
    simp only [reclaimDue, hrec, Bool.false_or, decide_eq_false_iff_not]; omega
  cases k with
  | zero => rfl
  | succ k => simp only [ringRoom, hdue, Bool.false_eq_true, if_false]

/-- An append that waits for no reclaim leaves the current record of every other RID. -/
theorem ringSlot_ringAppend_ne {g : RingGeo} {r : Ring} {rid q : Nat} (hlo : g.ridLo ≤ rid) (hhi : rid ≤ g.ridHi)
    (hrid : rid < 65536) (hseq : appendSeq r ≤ 0xFFFFFFF0) (hpages : 2 ≤ erasedRingPages g r) (hrec : r.reclaim = false)
    (hq : q ≠ rid) (payload : Bytes) (bad : Nat) : ringSlot (ringAppend g r rid payload bad).1 q = ringSlot r q := by
  have hne : (appendedSlot g r rid payload).rid.toNat ≠ q := by rw [appendedSlot_rid g r hrid payload]; exact hq.symm
  have hbefore : ringSlot (ringBeforePut g r rid payload bad) q = ringSlot r q := by
    rw [ringBeforePut, ringSlot_putFailed, ringRoom_of_room hpages hrec]
  rw [ringAppend_of_accepted hlo hhi hseq]
  exact (ringSlot_ringPut_ne (g := g) hne).trans hbefore

/-- Settles O58. -/
theorem ringAppendReadsBack : Obligations.RingAppendReadsBack := by
  unfold Obligations.RingAppendReadsBack
  intro g r rid payload bad hlo hhi hgeo hseq hne hfit hr
  refine ⟨?_, ?_, fun hpages hrec q hq => ?_⟩
  · rw [ringAppend_of_accepted hlo hhi hseq]
  · exact ringRead_of_appendedSlot hne hfit (ringSlot_ringAppend hlo hhi (by omega) hseq hr payload bad)
  · rw [ringRead, ringSlot_ringAppend_ne hlo hhi (by omega) hseq hpages hrec hq, ringRead]

end Sys2Proof.Machine
end

section
/-! SUPPORT. How the steward serves the command record at the head of its queue (R381 to R385, R389). -/

namespace Sys2Proof.Machine

open Sys2Proof

/-- What a row leaves of the record that it takes from the queue: the status of its first failed check, or its effect. -/
def rowServed (r : CmdRow) (c : CmdRec) (s : State) : State :=
  match cmdRefusal r s c.bytes with
  | some st => answerCmd s c st []
  | none => settleCmd r c (r.run c s)

theorem serveIf_of_mine {r : CmdRow} {mine : Bytes → Bool} {s : State} {c : CmdRec} {rest : List CmdRec} (hserves : servesNow s = true)
    (hqueue : s.cmds.queue = c :: rest) (hop : opcodeOf c.bytes = r.opcode) (hmine : mine c.bytes = true) :
    serveIf r mine s = afterAnswer (passEnd (rowServed r c (taken s rest))) := by
  simp only [serveIf, hqueue, hserves, hop, hmine, BEq.rfl, Bool.and_self, if_true]
  rfl

/-- A record whose opcode several rows name stays where it is not the row's share. -/
theorem serveIf_of_not_mine {r : CmdRow} {mine : Bytes → Bool} {s : State} {c : CmdRec} {rest : List CmdRec}
    (hqueue : s.cmds.queue = c :: rest) (hmine : mine c.bytes = false) : serveIf r mine s = s := by
  simp only [serveIf, hqueue, hmine, Bool.and_false, Bool.false_eq_true, if_false]

theorem serve_of_opcode {r : CmdRow} {s : State} {c : CmdRec} {rest : List CmdRec} (hserves : servesNow s = true)
    (hqueue : s.cmds.queue = c :: rest) (hop : opcodeOf c.bytes = r.opcode) :
    serve r s = afterAnswer (passEnd (rowServed r c (taken s rest))) :=
  serveIf_of_mine hserves hqueue hop rfl

/-! ### The order of the checks (R383) -/

theorem cmdRefusal_of_short {b : Bytes} (h : b.length < 4) (r : CmdRow) (s : State) : cmdRefusal r s b = some .badLength := by
  simp only [cmdRefusal, if_pos h]

theorem cmdRefusal_of_barred {s : State} {b : Bytes} {r : CmdRow} (hlen : 4 ≤ b.length)
    (hbars : (stateBars s r.opcode b || r.barred s) = true) : cmdRefusal r s b = some .wrongState := by
  simp only [cmdRefusal, if_neg (Nat.not_lt.2 hlen), hbars, if_true]

theorem rowServed_of_refused {r : CmdRow} {s : State} {c : CmdRec} {st : Status} (h : cmdRefusal r s c.bytes = some st) :
    rowServed r c s = answerCmd s c st [] := by
  simp only [rowServed, h]

theorem rowServed_of_admitted {r : CmdRow} {s : State} {c : CmdRec} (h : cmdRefusal r s c.bytes = none) :
    rowServed r c s = settleCmd r c (r.run c s) := by
  simp only [rowServed, h]

/-- Taking a record from the queue concerns no state rule. -/
theorem stateBars_taken (s : State) (rest : List CmdRec) (op : Nat) (b : Bytes) :
    stateBars (taken s rest) op b = stateBars s op b := rfl

/-! ### The rows that serve their opcode alone -/

theorem exec_of_commandOpcode {i : Instr} {op : Nat} (h : commandOpcode i = some op) (s : State) :
    ∃ r : CmdRow, r.opcode = op ∧ exec i s = done s (serve r s) := by
  cases i
  case sysInfo | sysEcho | sysTimeGet | sysTimeSet | sysPower | sysEvtMask | presProfile | presWake | presStart | presDoor
    | presTracked | rosterMode | rosterAdd | rosterAddHf | rosterRevoke | rosterLoad | rosterList | keyImport | keyTagLoad
    | keyImportPub | keyAttr | keyAttest | keyEndorse | stCreate | stDelete | stOpen | stClose | stRead | stWrite | stCommit
    | stDiscard | stPassword | lwRead | lwWrite | ledgerRead | ledgerAck | ledgerStatus | radioHfLinger | radioTagRead
    | radioTagWrite | radioCoex | stageOpen | stageWrite | stageVerify | stageAbort | cfgLoad | updConfirm | updStatus
    | lcChallenge | lcServiceExit | lcStatus | diagLfSweep | diagUwbTest | diagJournal | diagTelemetry | diagFieldCal | diagProbe =>
    cases h; exact ⟨_, rfl, rfl⟩
  all_goals cases h

/-- Settles O50: the first two checks of R383 come before everything that a row looks at. -/
theorem commandStateRules : Obligations.CommandStateRules := by
  unfold Obligations.CommandStateRules
  intro i op c rest s hi hserves hqueue hop
  obtain ⟨r, rfl, hexec⟩ := exec_of_commandOpcode hi s
  rw [hexec, serve_of_opcode hserves hqueue hop]
  refine ⟨fun hshort => ?_, fun hlen hbars => ?_⟩
  · rw [rowServed_of_refused (cmdRefusal_of_short hshort r _)]
    rfl
  · rw [rowServed_of_refused (cmdRefusal_of_barred hlen (by rw [stateBars_taken, hbars, Bool.true_or]))]
    rfl

end Sys2Proof.Machine
end

section
/-! SUPPORT. What RSSI, a write cycle of the legacy window and a write of Gules's input buffer store (R121, R124, R266, R292, R300,
R320, R321). -/

namespace Sys2Proof.Machine

open Sys2Proof

/-! ### Tenné's receive buffer (R121, R124) -/

@[simp] theorem setSeq_tn (s : State) (e : SeqId) (q : Sequencer) : (setSeq s e q).tn = s.tn := rfl

@[simp] theorem seqPast_tn (s : State) (e : SeqId) (n : Nat) (w : SeqWait) : (seqPast s e n w).tn = s.tn := rfl

@[simp] theorem seqResume_tn (s : State) (e : SeqId) : (seqResume s e).tn = s.tn := rfl

/-- RSSI begins without an effect on Tenné's registers and buffers. -/
theorem doRssi_tn {s : State} (h : (seqOf s .tenne).wait = .ready) (n : BitVec 4) (idx : Bool) (r : Fin 8) (v : Byte) :
    (doRssi n idx r v s).tn = s.tn := by
  simp only [doRssi, startInstr, settleSeq_of_wait_ready h]
  split <;> rfl

theorem doNop_tn (e : SeqId) (s : State) : (doNop e s).tn = (settleSeq s e).tn := by
  simp only [doNop, runInstr]
  split <;> rfl

/-- RSSI that has reached its end stores its value in byte 3 of its record (R121). -/
theorem settleSeq_tenne_rssi {s : State} {tick k : Nat} {v : Byte} (hwait : (seqOf s .tenne).wait = .til tick (.rssi k v))
    (hdue : tick ≤ now (elapseTo s tick)) :
    (settleSeq s .tenne).tn.rxbuf = putRxBytes s.tn.rxbuf (8 * k + 3) [v] := by
  simp only [settleSeq, hwait, if_pos hdue, finishTimed, seqResume_tn, elapseTo_tn]

theorem putRxBytes_singleton (m : Mem) (a : Nat) (b : Byte) : putRxBytes m a [b] = if a < 64 then memWrite m a b else m := by
  unfold putRxBytes
  split
  · rw [List.take_of_length_le (show [b].length ≤ 64 - a by rw [List.length_singleton]; omega)]; rfl
  · have hzero : 64 - a = 0 := by omega
    rw [hzero]; rfl

/-! ### The legacy window (R300, R320, R321) -/

theorem commitNv_pages (g : NvPage) (data : Bytes) (txn : W32) (k : Nat) (o : Store) :
    (commitNv g data txn k o).2.1.pages = o.pages ∧ (commitNv g data txn k o).2.1.lwStatus = o.lwStatus := by
  unfold commitNv
  split <;> exact ⟨rfl, rfl⟩

/-- The end of a write cycle of page `p` commits that page and touches no other cell of the store. -/
theorem doLwWriteCycleEnd_of_page {s : State} {p : Nat} {d : Bytes} (h : s.orr.cycle = some (.page p d)) :
    (doLwWriteCycleEnd s).orr.lw =
        vmodN s.orr.lw p (fun _ => (commitNv (vgetN s.orr.lw p {}) d 0 (readBacks s none) s.orr).1) ∧
      (doLwWriteCycleEnd s).orr.lwStatus = s.orr.lwStatus ∧ (doLwWriteCycleEnd s).orr.pages = s.orr.pages := by
  obtain ⟨hpages, hstatus⟩ := commitNv_pages (vgetN s.orr.lw p {}) d 0 (readBacks s none) s.orr
  simp only [doLwWriteCycleEnd, h]
  split
  · exact ⟨rfl, hstatus, hpages⟩
  · exact ⟨rfl, hstatus, hpages⟩

theorem lwPage_of_vmodN_ne {o o' : Store} {p q : Nat} {f : NvPage → NvPage} (h : o'.lw = vmodN o.lw p f) (hq : q ≠ p) :
    lwPage o' q = lwPage o q := by
  simp only [lwPage, h, vgetN_vmodN_ne _ _ _ hq]

/-- The committed page holds the cycle's image, or is WORN with its old content (R300). -/
theorem lwPage_of_commitNv {o o' : Store} {p k : Nat} {d : Bytes} {x : Store} (hp : p < 256)
    (hseq : ∀ c, currentCopy (vgetN o.lw p {}) = some c → c.seq.toNat < 0xFFFFFFFF)
    (h : o'.lw = vmodN o.lw p (fun _ => (commitNv (vgetN o.lw p {}) d 0 k x).1)) :
    lwPage o' p = d ∨ ((vgetN o'.lw p {}).worn = true ∧ lwPage o' p = lwPage o p) := by
  have hpage : vgetN o'.lw p {} = (commitNv (vgetN o.lw p {}) d 0 k x).1 := by rw [h, vgetN_vmodN_eq _ _ _ hp]
  rcases commitNv_content (vgetN o.lw p {}) d 0 k x hseq with hnew | ⟨hworn, hold⟩
  · left
    simp only [lwPage, hpage, hnew]
    rfl
  · right
    exact ⟨by rw [hpage, hworn], by simp only [lwPage, hpage, hold]⟩

/-! ### Gules's input buffer (R266, R292) -/

theorem gqWrite_of_inBuf {off : Nat} (hlo : 0x2000 ≤ off) (hhi : off < 0x5000) (v : W32) (s : State) :
    gqWrite off v s = { s with gq := { s.gq with inBuf := memWriteBytes s.gq.inBuf (off - 0x2000) (leBytes 4 v.toNat) } } := by
  have h1 : ¬(0x020 ≤ off ∧ off < 0x030) := by omega
  have h2 : off ≠ 0x038 := by omega
  have h3 : off ≠ 0x03C := by omega
  simp only [gqWrite, if_neg h1, if_neg h2, if_neg h3, if_pos (And.intro hlo hhi)]

theorem doRegisterWrite_gules_inBuf {off : W16} (halign : off.toNat % 4 = 0) (hlo : 0x2000 ≤ off.toNat) (hhi : off.toNat < 0x5000)
    (v : W32) (s : State) : (doRegisterWrite .gules off v s).gq.inBuf =
      memWriteBytes s.gq.inBuf (off.toNat - 0x2000) (leBytes 4 v.toNat) := by
  have hword : off.toNat / 4 * 4 = off.toNat := by omega
  have hsub : off.toNat ≠ 0x02C := by omega
  simp only [doRegisterWrite, hword, if_neg hsub, gqWrite_of_inBuf hlo hhi]

theorem length_leBytes (k n : Nat) : (leBytes k n).length = k := by
  induction k generalizing n with
  | zero => rfl
  | succ k ih => simp only [leBytes, List.length_cons, ih]

/-- Byte `i` of a little-endian number (R4). -/
theorem getD_leBytes {i k : Nat} (h : i < k) (n : Nat) : (leBytes k n).getD i 0 = byte (n / 256 ^ i) := by
  induction k generalizing i n with
  | zero => omega
  | succ k ih =>
    cases i with
    | zero => simp [leBytes, byte, BitVec.ofNat_eq_ofNat, ← BitVec.toNat_inj]
    | succ i =>
      have hdiv : n / 256 / 256 ^ i = n / 256 ^ (i + 1) := by rw [Nat.div_div_eq_div_mul, Nat.pow_succ']
      rw [leBytes, List.getD_cons_succ, ih (by omega), hdiv]

/-- Settles O55. -/
theorem storesTouchOnlyTheirBytes : Obligations.StoresTouchOnlyTheirBytes := by
  unfold Obligations.StoresTouchOnlyTheirBytes
  refine ⟨?_, ?_, ?_, ?_⟩
  · rintro n idx r v s t hwait ht
    obtain rfl : keepOtp s (doRssi n idx r v s) = t := Host.Outcome.next.inj ht
    rw [keepOtp_tn, doRssi_tn hwait]
  · rintro tick k v s t hwf hwait hdue ht
    obtain rfl : keepOtp s (doNop .tenne s) = t := Host.Outcome.next.inj ht
    rw [keepOtp_tn, doNop_tn, settleSeq_tenne_rssi hwait hdue, putRxBytes_singleton]
    split
    · exact ⟨memWf_memWrite hwf, fun _ => memRead_memWrite_self hwf, fun a ha => by rw [memRead_memWrite hwf, if_neg ha]⟩
    · exact ⟨hwf, fun h => absurd h ‹_›, fun _ _ => rfl⟩
  · rintro p d s t hp hcycle hseq ht
    obtain rfl : keepOtp s (doLwWriteCycleEnd s) = t := Host.Outcome.next.inj ht
    obtain ⟨hlw, hstatus, hpages⟩ := doLwWriteCycleEnd_of_page hcycle
    rw [keepOtp_orr]
    exact ⟨lwPage_of_commitNv hp hseq hlw, fun q hq => lwPage_of_vmodN_ne hlw hq, by simp only [lwBp, hstatus], hpages⟩
  · rintro off v s t hwf halign hlo hhi ht
    obtain rfl : keepOtp s (doRegisterWrite .gules off v s) = t := Host.Outcome.next.inj ht
    rw [keepOtp_gq, doRegisterWrite_gules_inBuf halign hlo hhi]
    refine ⟨memWf_memWriteBytes hwf, fun k hk => ?_, fun a ha => ?_⟩
    · rw [memRead_memWriteBytes hwf, length_leBytes, if_pos (by omega), Nat.add_sub_cancel_left, getD_leBytes hk]
    · rw [memRead_memWriteBytes hwf, length_leBytes, if_neg (by omega)]

end Sys2Proof.Machine
end

section
/-! SUPPORT. The frame of the sequence engines' instructions and of the ends of their operations (R51, R83 to R88, R121 to R123,
R146 to R149). -/

namespace Sys2Proof.Machine

open Sys2Proof

/-! ### What an engine leaves alone -/

/-- The units that no instruction of a sequence engine reaches, and the queue. -/
def otherUnits (s : State) :=
  (s.pending, s.lastRead, s.ctxs, s.hf, s.tag, s.keys, s.creds, s.tamper, s.gq, s.ledger, s.bar, s.host, s.pwr, s.boot, s.cmds)

/-- `t` differs from `s` by what engine `e` may change: with `poll` also by the run's note of a POLL, with `lock` also by the
record store and the events. -/
structure EngineFrame (e : SeqId) (poll lock : Bool) (s t : State) : Prop where
  units : otherUnits t = otherUnits s
  presRest : { t.pres with run := none } = { s.pres with run := none }
  pres : poll = false → t.pres = s.pres
  store : lock = false → t.orr = s.orr ∧ t.ev = s.ev
  tn : e ≠ .tenne → t.tn = s.tn
  az : e ≠ .azure → t.az = s.az

section
variable {e : SeqId} {poll lock : Bool} {s t u : State}

theorem EngineFrame.refl (s : State) : EngineFrame e poll lock s s :=
  ⟨rfl, rfl, fun _ => rfl, fun _ => ⟨rfl, rfl⟩, fun _ => rfl, fun _ => rfl⟩

theorem EngineFrame.trans (h : EngineFrame e poll lock s t) (h' : EngineFrame e poll lock t u) : EngineFrame e poll lock s u where
  units := h'.units.trans h.units
  presRest := h'.presRest.trans h.presRest
  pres hp := (h'.pres hp).trans (h.pres hp)
  store hl := ⟨(h'.store hl).1.trans (h.store hl).1, (h'.store hl).2.trans (h.store hl).2⟩
  tn he := (h'.tn he).trans (h.tn he)
  az he := (h'.az he).trans (h.az he)

/-- Time, the sequencers, Celeste, Vert and the clock status are every engine's to change. -/
theorem EngineFrame.common (s : State) (f c : Nat) (cel : Celeste) (seqs : Sequencers) (v : Vert) (r : Rtc) (k : Clocks)
    (b : Background) : EngineFrame e poll lock s
      { s with freeCtr := f, clock := c, cel := cel, seqs := seqs, vert := v, rtc := r, clk := k, bg := b } :=
  ⟨rfl, rfl, fun _ => rfl, fun _ => ⟨rfl, rfl⟩, fun _ => rfl, fun _ => rfl⟩

theorem EngineFrame.tenne (s : State) (f : Nat) (x : Tenne) : EngineFrame .tenne poll lock s { s with freeCtr := f, tn := x } :=
  ⟨rfl, rfl, fun _ => rfl, fun _ => ⟨rfl, rfl⟩, fun h => absurd rfl h, fun _ => rfl⟩

theorem EngineFrame.azure (s : State) (f : Nat) (x : Azure) (k : Clocks) :
    EngineFrame .azure poll lock s { s with freeCtr := f, az := x, clk := k } :=
  ⟨rfl, rfl, fun _ => rfl, fun _ => ⟨rfl, rfl⟩, fun _ => rfl, fun h => absurd rfl h⟩

/-! ### The operations that the instructions share -/

theorem frame_elapse (s : State) (n : Nat) : EngineFrame e poll lock s (elapse s n) := .common ..

theorem frame_elapseTo (s : State) (n : Nat) : EngineFrame e poll lock s (elapseTo s n) := by
  unfold elapseTo
  split
  · exact frame_elapse ..
  · exact .refl s

theorem frame_setSeq (s : State) (i : SeqId) (q : Sequencer) : EngineFrame e poll lock s (setSeq s i q) := .common ..

theorem frame_finishTimed (s : State) (e : SeqId) (k : TimedOp) : EngineFrame e poll lock s (finishTimed s e k) := by
  unfold finishTimed
  split
  · exact .tenne ..
  · exact .tenne ..
  · exact .azure ..
  · exact .refl s

theorem frame_settleSeq (s : State) (e : SeqId) : EngineFrame e poll lock s (settleSeq s e) := by
  unfold settleSeq
  split
  · dsimp only
    split
    · exact (frame_elapseTo ..).trans ((frame_setSeq ..).trans (frame_finishTimed ..))
    · exact frame_elapseTo ..
  · exact .refl s

theorem frame_engineIdle (s : State) (e : SeqId) : EngineFrame e poll lock s (engineIdle s e) := by
  cases e with
  | vert => obtain ⟨_, _, h⟩ := vertIdle_frame s; rw [engineIdle, h]; exact .common ..
  | azure => obtain ⟨_, _, _, h⟩ := azureIdle_frame s; rw [engineIdle, h]; exact .azure ..
  | tenne => obtain ⟨_, _, h⟩ := tenneIdle_frame s; rw [engineIdle, h]; exact .tenne ..

theorem frame_endProgram (s : State) (e : SeqId) (st : Status) : EngineFrame e poll lock s (endProgram s e st) := by
  unfold endProgram
  split
  · exact .refl s
  · exact (frame_engineIdle ..).trans (.common ..)

theorem frame_runInstr {f : State → State} (hf : ∀ t, EngineFrame e poll lock t (f t)) (s : State) (op : ProgOp) (ticks n : Nat) :
    EngineFrame e poll lock s (runInstr s e op ticks n f) := by
  unfold runInstr
  dsimp only
  split
  · exact (frame_settleSeq ..).trans ((frame_elapse ..).trans ((frame_setSeq ..).trans (hf _)))
  · exact frame_settleSeq ..

theorem frame_startInstr {f : State → State} (hf : ∀ t, EngineFrame e poll lock t (f t)) (s : State) (op : ProgOp) (n : Nat)
    (w : State → SeqWait) : EngineFrame e poll lock s (startInstr s e op n w f) := by
  unfold startInstr
  dsimp only
  split
  · exact (frame_settleSeq ..).trans ((frame_setSeq ..).trans (hf _))
  · exact frame_settleSeq ..

theorem frame_withPorts {f : State → State} (hf : ∀ t, EngineFrame .azure poll lock t (f t)) (s : State) (op : ProgOp) (n : Nat)
    (ps : State → List (Fin 6)) : EngineFrame .azure poll lock s (withPorts s op n ps f) := by
  unfold withPorts
  dsimp only
  split
  · split
    · exact (frame_settleSeq ..).trans (hf _)
    · exact (frame_settleSeq ..).trans (frame_endProgram ..)
  · exact frame_settleSeq ..

theorem frame_withKey {f : State → State} (hf : ∀ t, EngineFrame .azure poll lock t (f t)) (s : State) :
    EngineFrame .azure poll lock s (withKey s f) := by
  unfold withKey
  split
  · exact hf s
  · exact frame_endProgram ..

/-! ### The shared instructions -/

theorem frame_doWaitTb (e : SeqId) (off : BitVec 28) (s : State) : EngineFrame e poll lock s (doWaitTb e off s) := by
  unfold doWaitTb
  dsimp only
  split
  · split
    · exact (frame_settleSeq ..).trans (frame_endProgram ..)
    · exact (frame_settleSeq ..).trans (frame_setSeq ..)
  · exact frame_settleSeq ..

theorem frame_setLastTb (s : State) (e : SeqId) (t : Nat) : EngineFrame e poll lock s (setLastTb s e t) := by
  cases e with
  | vert => exact .common ..
  | azure => exact .azure ..
  | tenne => exact .refl s

theorem frame_doWaitTbRelease (e : SeqId) (s : State) : EngineFrame e poll lock s (doWaitTbRelease e s) := by
  unfold doWaitTbRelease
  split
  · dsimp only
    split
    · exact (frame_elapseTo ..).trans ((frame_setSeq ..).trans (frame_setLastTb ..))
    · exact frame_elapseTo ..
  · exact .refl s

theorem frame_doLoopEnd (e : SeqId) (s : State) : EngineFrame e poll lock s (doLoopEnd e s) :=
  frame_runInstr (fun t => by
    dsimp only
    split
    · exact .refl t
    · split <;> exact frame_setSeq ..) ..

/-! ### Vert's rows -/

theorem frame_doDriveOff (m : BitVec 3) (s : State) : EngineFrame .vert poll lock s (doDriveOff m s) :=
  frame_runInstr (fun t => by
    obtain ⟨_, _, h⟩ := cutMask_frame t m.toNat
    dsimp only
    rw [h]
    exact .common ..) ..

theorem frame_doSendComplete (s : State) : EngineFrame .vert poll lock s (doSendComplete s) := by
  unfold doSendComplete
  split
  · exact .refl s
  · dsimp only
    split
    · exact frame_elapseTo ..
    · exact (frame_elapseTo ..).trans (.common ..)

theorem frame_doMeasureWindowEnd (rcd : Fin 16) (i0 : BitVec 12) (p0 : Byte) (i1 : BitVec 12) (p1 : Byte) (i2 : BitVec 12) (p2 : Byte)
    (s : State) : EngineFrame .vert poll lock s (doMeasureWindowEnd rcd i0 p0 i1 p1 i2 p2 s) := by
  unfold doMeasureWindowEnd
  split
  · exact .refl s
  · dsimp only
    split
    · exact frame_elapseTo ..
    · exact (frame_elapseTo ..).trans (.common ..)

/-! ### Tenné's rows -/

theorem frame_doTnWaitLockTimeout (s : State) : EngineFrame .tenne poll lock s (doTnWaitLockTimeout s) := by
  unfold doTnWaitLockTimeout
  split
  · dsimp only
    split
    · exact (frame_elapseTo ..).trans (frame_endProgram ..)
    · exact frame_elapseTo ..
  · exact .refl s

theorem frame_doTnRxFrameEnd (sync : Bool) (toneLevel : Byte) (toneTicks at_ : W16) (medians : Bytes) (rssi weak : Byte)
    (payload : Bytes) (s : State) :
    EngineFrame .tenne poll lock s (doTnRxFrameEnd sync toneLevel toneTicks at_ medians rssi weak payload s) := by
  unfold doTnRxFrameEnd
  split
  · exact .refl s
  · exact (frame_elapseTo ..).trans ((EngineFrame.tenne ..).trans (frame_setSeq ..))

theorem frame_doTnTxOn (p : Fin 3) (step : BitVec 6) (s : State) : EngineFrame .tenne poll lock s (doTnTxOn p step s) := by
  unfold doTnTxOn
  dsimp only
  split
  · exact (frame_settleSeq ..).trans ((frame_elapseTo ..).trans (frame_runInstr (fun t => .tenne ..) ..))
  · exact frame_settleSeq ..

/-! ### Azure's rows -/

theorem frame_doAzWaitLock (t : Byte) (expired : Bool) (s : State) : EngineFrame .azure poll lock s (doAzWaitLock t expired s) := by
  unfold doAzWaitLock
  split
  · split
    · dsimp only
      split
      · exact (frame_elapseTo ..).trans (frame_endProgram ..)
      · exact frame_elapseTo ..
    · exact .refl s
  · exact frame_startInstr .refl ..

theorem frame_doAzSynthLock (s : State) : EngineFrame .azure poll lock s (doAzSynthLock s) := by
  unfold doAzSynthLock
  split
  · dsimp only
    split
    · exact (EngineFrame.azure ..).trans (frame_setSeq ..)
    · exact .azure ..
  · split
    · exact .azure ..
    · exact .refl s

theorem frame_doAzTxOn (p : Fin 6) (back : BitVec 6) (s : State) : EngineFrame .azure poll lock s (doAzTxOn p back s) := by
  unfold doAzTxOn
  refine frame_withPorts (fun t => ?_) ..
  split
  · exact (frame_elapseTo ..).trans (frame_runInstr (fun u => .azure ..) ..)
  · exact .refl t

theorem frame_doAzRxOn (a : Fin 6) (b : Option (Fin 6)) (s : State) : EngineFrame .azure poll lock s (doAzRxOn a b s) := by
  unfold doAzRxOn
  exact frame_withPorts (fun t => frame_runInstr (fun u => .azure ..) ..) ..

theorem frame_doAzRxFrame (report : Bool) (r : Fin 4) (search : W16) (s : State) :
    EngineFrame .azure poll lock s (doAzRxFrame report r search s) := by
  unfold doAzRxFrame
  exact frame_withPorts (fun t => frame_withKey (fun u => frame_startInstr (fun w => .azure ..) ..) _) ..

theorem frame_doAzLoopback (p q : Fin 6) (r : Fin 4) (s : State) : EngineFrame .azure poll lock s (doAzLoopback p q r s) := by
  unfold doAzLoopback
  exact frame_withPorts (fun t => frame_startInstr (fun w => .azure ..) ..) ..

theorem frame_azBoundary (s : State) : EngineFrame .azure poll lock s (azBoundary s) := by
  obtain ⟨_, h⟩ := azBoundary_frame s
  rw [h]
  exact .azure ..

theorem frame_doAzRxFrameEnd (received firstPath phrOk nlos : Bool) (delay : W16) (frac : BitVec 11) (stsq rssi : Byte) (pdoa cfo : W16)
    (payload : Bytes) (s : State) :
    EngineFrame .azure poll lock s (doAzRxFrameEnd received firstPath phrOk nlos delay frac stsq rssi pdoa cfo payload s) := by
  unfold doAzRxFrameEnd
  split
  · exact .refl s
  · dsimp only
    split
    · exact (frame_elapseTo ..).trans ((EngineFrame.azure ..).trans ((frame_setSeq ..).trans (frame_azBoundary _)))
    · exact (frame_elapseTo ..).trans ((EngineFrame.azure ..).trans (frame_setSeq ..))

/-- A change of the run alone. -/
theorem frame_modRun (e : SeqId) (s : State) (f : Run → Run) : EngineFrame e true lock s (modRun s f) :=
  ⟨rfl, rfl, fun h => Bool.noConfusion h, fun _ => ⟨rfl, rfl⟩, fun _ => rfl, fun _ => rfl⟩

theorem frame_doAzTxFrame (final : Bool) (r : Fin 4) (lead : W16) (s : State) :
    EngineFrame .azure (!final) lock s (doAzTxFrame final r lead s) := by
  unfold doAzTxFrame
  refine frame_withPorts (fun t => ?_) ..
  split
  · refine frame_startInstr (fun w => ?_) ..
    cases final with
    | true => exact .azure ..
    | false => exact (EngineFrame.azure ..).trans (frame_modRun ..)
  · exact frame_endProgram ..

/-! ### The lock after SYNTH (R189, R302) -/

theorem frame_evtStore_store (e : SeqId) (s : State) (o : Store) (a b c : Nat) (st : Status) :
    EngineFrame e poll true s (evtStore { s with orr := o } a b c st) :=
  ⟨rfl, rfl, fun _ => rfl, fun h => Bool.noConfusion h, fun _ => rfl, fun _ => rfl⟩

theorem frame_store (e : SeqId) (s : State) (o : Store) : EngineFrame e poll true s { s with orr := o } :=
  ⟨rfl, rfl, fun _ => rfl, fun h => Bool.noConfusion h, fun _ => rfl, fun _ => rfl⟩

theorem frame_commitData (e : SeqId) (s : State) (p : Fin 256) (d : Bytes) (txn : W32) (k : Nat) :
    EngineFrame e poll true s (commitData s p d txn k).1 := by
  unfold commitData
  dsimp only
  split
  · exact frame_store ..
  · exact frame_evtStore_store ..

theorem frame_commitSync (e : SeqId) (s : State) (p : Fin 256) : EngineFrame e poll true s (commitSync s p) :=
  (frame_commitData e s p _ _ _).trans (frame_store ..)

theorem frame_markDirty (e : SeqId) (s : State) (p : Fin 256) : EngineFrame e poll true s (markDirty s p) := by
  unfold markDirty
  split
  · exact .refl s
  · dsimp only
    split
    · exact frame_store ..
    · split
      · exact (frame_commitSync ..).trans (frame_store ..)
      · exact frame_store ..

theorem frame_doTnSynthLock (s : State) : EngineFrame .tenne poll true s (doTnSynthLock s) := by
  unfold doTnSynthLock
  split
  · dsimp only
    have hcache (c : Prop) [Decidable c] : EngineFrame (poll := poll) .tenne true s (if c then s else markDirty s calBand) := by
      split
      · exact .refl s
      · exact frame_markDirty ..
    split
    · exact (hcache _).trans ((EngineFrame.tenne ..).trans (frame_setSeq ..))
    · exact (hcache _).trans (.tenne ..)
  · exact .refl s

end

/-! ### Every row of an engine -/

/-- The row that notes a POLL in the run. -/
def isPollRow : Instr → Bool
  | .azTxFrame final _ _ => !final
  | _ => false

/-- The row that marks the band cache's page. -/
def isLockRow : Instr → Bool
  | .tnSynthLock => true
  | _ => false

theorem exec_engineFrame {c : Instr} {e : SeqId} (h : instrEngine c = some e) (s : State) :
    ∃ u, exec c s = done s u ∧ EngineFrame e (isPollRow c) (isLockRow c) s u := by
  cases c
  case halt => cases h; exact ⟨_, rfl, frame_runInstr (fun t => frame_endProgram ..) ..⟩
  case nop => cases h; exact ⟨_, rfl, frame_runInstr .refl ..⟩
  case waitTb => cases h; exact ⟨_, rfl, frame_doWaitTb ..⟩
  case waitTbRelease => cases h; exact ⟨_, rfl, frame_doWaitTbRelease ..⟩
  case loopStart => cases h; exact ⟨_, rfl, frame_runInstr (fun t => frame_setSeq ..) ..⟩
  case loopEnd => cases h; exact ⟨_, rfl, frame_doLoopEnd ..⟩
  case vertSel | setAmp | setPh | setPhBuf | setFreq | driveOn | measure =>
    cases h; exact ⟨_, rfl, frame_runInstr (fun t => .common ..) ..⟩
  case driveOff => cases h; exact ⟨_, rfl, frame_doDriveOff ..⟩
  case send => cases h; exact ⟨_, rfl, frame_startInstr (fun t => .common ..) ..⟩
  case sendComplete => cases h; exact ⟨_, rfl, frame_doSendComplete ..⟩
  case measureWindowEnd => cases h; exact ⟨_, rfl, frame_doMeasureWindowEnd ..⟩
  case tnSynth | tnRxOn | tnRxOff | tnTxOff => cases h; exact ⟨_, rfl, frame_runInstr (fun t => .tenne ..) ..⟩
  case tnWaitLock | dcoc | rssi | tnTxFrame => cases h; exact ⟨_, rfl, frame_startInstr .refl ..⟩
  case tnRxFrame => cases h; exact ⟨_, rfl, frame_startInstr (fun t => .tenne ..) ..⟩
  case tnWaitLockTimeout => cases h; exact ⟨_, rfl, frame_doTnWaitLockTimeout ..⟩
  case tnSynthLock => cases h; exact ⟨_, rfl, frame_doTnSynthLock ..⟩
  case tnRxFrameEnd => cases h; exact ⟨_, rfl, frame_doTnRxFrameEnd ..⟩
  case tnTxOn => cases h; exact ⟨_, rfl, frame_doTnTxOn ..⟩
  case azPhy | azRxOff | azTxOff => cases h; exact ⟨_, rfl, frame_runInstr (fun t => .azure ..) ..⟩
  case azWaitLock => cases h; exact ⟨_, rfl, frame_doAzWaitLock ..⟩
  case azSynthLock => cases h; exact ⟨_, rfl, frame_doAzSynthLock ..⟩
  case azRxOn => cases h; exact ⟨_, rfl, frame_doAzRxOn ..⟩
  case azTxOn => cases h; exact ⟨_, rfl, frame_doAzTxOn ..⟩
  case azTxFrame => cases h; exact ⟨_, rfl, frame_doAzTxFrame ..⟩
  case azRxFrame => cases h; exact ⟨_, rfl, frame_doAzRxFrame ..⟩
  case azRxFrameEnd => cases h; exact ⟨_, rfl, frame_doAzRxFrameEnd ..⟩
  case azLoopback => cases h; exact ⟨_, rfl, frame_doAzLoopback ..⟩
  all_goals cases h

/-- A row that is no POLL, resp. no lock, is not marked as one. -/
theorem isPollRow_eq_false {c : Instr} (h : ∀ r lead, c ≠ .azTxFrame false r lead) : isPollRow c = false := by
  cases c
  case azTxFrame final r lead => cases final with
    | true => rfl
    | false => exact absurd rfl (h r lead)
  all_goals rfl

theorem isLockRow_eq_false {c : Instr} (h : c ≠ .tnSynthLock) : isLockRow c = false := by
  cases c
  case tnSynthLock => exact absurd rfl h
  all_goals rfl

/-- Settles O53. -/
theorem programInstructionsFrame : Obligations.ProgramInstructionsFrame := by
  unfold Obligations.ProgramInstructionsFrame
  intro c e s t hc ht
  obtain ⟨u, hu, hframe⟩ := exec_engineFrame hc s
  have hunits := hframe.units
  simp only [otherUnits, Prod.mk.injEq] at hunits
  obtain ⟨hpending, hread, hctxs, hhf, htag, hkeys, hcreds, htamper, hgq, hledger, hbar, hhost, hpwr, hboot, hcmds⟩ := hunits
  obtain rfl : u = t := by
    have hkeep : done s u = .next u := done_eq hpending hkeys hboot (by rw [hhost])
    exact Host.Outcome.next.inj (hkeep.symm.trans (hu.symm.trans ht))
  exact ⟨hpending, hread, hctxs, hhf, htag, hkeys, hcreds, htamper, hgq, hledger, hbar, hhost, hpwr, hboot, hcmds,
    hframe.presRest, fun h => hframe.pres (isPollRow_eq_false h), fun h => hframe.store (isLockRow_eq_false h), hframe.tn, hframe.az⟩

end Sys2Proof.Machine
end

section
/-! SUPPORT. How a row comes to its effect: an operation on CEL_CMD (R62), an instruction that is at hand (R51, R138, R148), a
barrier frame that arrives (R341, R343), a command record that passes its checks (R381 to R385). -/

namespace Sys2Proof.Machine

open Sys2Proof

/-! ### The launch table (R62) -/

theorem celOp_of_done {s : State} (h : cmdDone s = true) (top : Nat) (f : State → State) :
    celOp top f s = inProgress top s (f s) := by
  simp only [celOp, h, if_true]; rfl

theorem celOp_of_busy {s : State} (h : cmdDone s = false) (top : Nat) (f : State → State) : celOp top f s = s := by
  simp only [celOp, h, Bool.false_eq_true, if_false]

/-! ### An instruction at hand (R51) -/

theorem runInstr_of_seqAt {s : State} {e : SeqId} {op : ProgOp} {n : Nat} (h : seqAt (settleSeq s e) e op n = true) (ticks : Nat)
    (f : State → State) : runInstr s e op ticks n f = f (seqPast (elapse (settleSeq s e) ticks) e n .ready) := by
  simp only [runInstr, h, if_true]

theorem startInstr_of_seqAt {s : State} {e : SeqId} {op : ProgOp} {n : Nat} (h : seqAt (settleSeq s e) e op n = true)
    (w : State → SeqWait) (f : State → State) :
    startInstr s e op n w f = f (seqPast (settleSeq s e) e n (w (settleSeq s e))) := by
  simp only [startInstr, h, if_true]

theorem withPorts_of_ports_in {s : State} {op : ProgOp} {n : Nat} {ps : State → List (Fin 6)}
    (h : seqAt (settleSeq s .azure) .azure op n = true)
    (hports : ((ps (settleSeq s .azure)).all fun p => portIn (settleSeq s .azure) p) = true) (f : State → State) :
    withPorts s op n ps f = f (settleSeq s .azure) := by
  simp only [withPorts, h, hports, if_true]

theorem withPorts_of_port_out {s : State} {op : ProgOp} {n : Nat} {ps : State → List (Fin 6)}
    (h : seqAt (settleSeq s .azure) .azure op n = true)
    (hports : ((ps (settleSeq s .azure)).all fun p => portIn (settleSeq s .azure) p) = false) (f : State → State) :
    withPorts s op n ps f = endProgram (settleSeq s .azure) .azure .antennaFault := by
  simp only [withPorts, h, hports, if_true, Bool.false_eq_true, if_false]

/-! ### A frame that arrives (R341, R343) -/

theorem receive_of_frame {s : State} {toHost : Bool} {kind : Fin 8} {p : BitVec 17} (h : arrival s.bar toHost kind = .frame p)
    (act : BitVec 17 → State → State) : receive s toHost kind act = act p (takeShort s toHost) := by
  simp only [receive, h]

/-! ### A command record that passes its checks (R383) -/

/-- The record at the head of the queue passes every check of the row that serves its opcode. -/
structure Admitted (r : CmdRow) (s : State) (c : CmdRec) (rest : List CmdRec) : Prop where
  served : nextServed s r.opcode c rest
  barred : r.barred (taken s rest) = false
  len : r.len c.bytes = true
  bad : r.bad (taken s rest) c.bytes = false
  busy : resBusy (taken s rest) r c.bytes = false

section
variable {r : CmdRow} {mine : Bytes → Bool} {s : State} {c : CmdRec} {rest : List CmdRec}

theorem cmdRefusal_of_admitted (h : Admitted r s c rest) : cmdRefusal r (taken s rest) c.bytes = none := by
  obtain ⟨⟨-, -, -, hlen4, hbars⟩, hbarred, hlen, hbad, hbusy⟩ := h
  simp only [cmdRefusal, if_neg (Nat.not_lt.2 hlen4), stateBars_taken, hbars, hbarred, hlen, hbad, hbusy, Bool.or_self,
    Bool.not_true, Bool.false_eq_true, if_false]

theorem serveIf_of_admitted (h : Admitted r s c rest) (hmine : mine c.bytes = true) :
    serveIf r mine s = afterAnswer (passEnd (settleCmd r c (r.run c (taken s rest)))) := by
  obtain ⟨hserves, hqueue, hop, -⟩ := h.served
  rw [serveIf_of_mine hserves hqueue hop hmine, rowServed_of_admitted (cmdRefusal_of_admitted h)]

theorem serveIf_now {st : Status} {result : Bytes} {u : State} (h : Admitted r s c rest) (hmine : mine c.bytes = true)
    (hrun : r.run c (taken s rest) = .now st result u) : serveIf r mine s = replied u c st result := by
  rw [serveIf_of_admitted h hmine, hrun]; rfl

theorem serveIf_long {a : LongAns} {u : State} (h : Admitted r s c rest) (hmine : mine c.bytes = true)
    (hrun : r.run c (taken s rest) = .long a u) : serveIf r mine s = underway u c r.res a := by
  rw [serveIf_of_admitted h hmine, hrun]; rfl

theorem serveIf_later {u : State} (h : Admitted r s c rest) (hmine : mine c.bytes = true)
    (hrun : r.run c (taken s rest) = .later u) : serveIf r mine s = afterAnswer (passEnd u) := by
  rw [serveIf_of_admitted h hmine, hrun]; rfl

theorem serve_now {st : Status} {result : Bytes} {u : State} (h : Admitted r s c rest)
    (hrun : r.run c (taken s rest) = .now st result u) : serve r s = replied u c st result :=
  serveIf_now h rfl hrun

theorem serve_long {a : LongAns} {u : State} (h : Admitted r s c rest) (hrun : r.run c (taken s rest) = .long a u) :
    serve r s = underway u c r.res a :=
  serveIf_long h rfl hrun

theorem serve_later {u : State} (h : Admitted r s c rest) (hrun : r.run c (taken s rest) = .later u) :
    serve r s = afterAnswer (passEnd u) :=
  serveIf_later h rfl hrun

/-- A row without a shared resource is never busy (R384). -/
theorem resBusy_of_none (h : r.res = .none) (b : Bytes) : resBusy s r b = false := by
  simp only [resBusy, h, bne_self_eq_false, Bool.false_and]

/-- A resource that no long command holds is free. -/
theorem resBusy_of_unheld (h : unheld s r.res = true) (b : Bytes) : resBusy s r b = false := by
  have hany : (s.cmds.longs.any fun l => l.res == r.res) = false := by simpa only [unheld, Bool.not_eq_true'] using h
  simp only [resBusy, hany, Bool.and_false, Bool.false_and]

end

end Sys2Proof.Machine
end

section
/-! SUPPORT. The operations of CEL_CMD (R40, R49, R61, R62). -/

namespace Sys2Proof.Machine

open Sys2Proof

theorem cancelEntry_of_waiting {s : State} {n : Fin 128}
    (h : (entryOf s n).state = .armed ∨ ((entryOf s n).state = .posted ∧ firesNow s n = false)) :
    cancelEntry s n = (cancelOrphans (retract s n) n, .ok) := by
  rcases h with harmed | ⟨hposted, hfires⟩
  · simp only [cancelEntry, harmed]
  · simp only [cancelEntry, hposted, hfires, Bool.false_eq_true, if_false]

theorem cancelEntry_of_running {s : State} {n : Fin 128} (h : (entryOf s n).state = .running) :
    cancelEntry s n = (modEntry s n fun x => { x with cancelAfter := true }, .ok) := by
  simp only [cancelEntry, h]

/-- A mark on an entry concerns no sequencer. -/
theorem runsOn_modEntry (s : State) (n m : Fin 128) (f : LaunchEntry → LaunchEntry) : runsOn (modEntry s n f) m = runsOn s m := rfl

theorem cancelStopEntry_of_runsOn {s : State} {n : Fin 128} {q : SeqId} (h : runsOn (cancelEntry s n).1 n = some q) (st : Status) :
    cancelStopEntry s n st = (stopProgram (cancelEntry s n).1 q st, (cancelEntry s n).2) := by
  simp only [cancelStopEntry, h]

theorem cancelStopEntry_of_not_runsOn {s : State} {n : Fin 128} (h : runsOn (cancelEntry s n).1 n = none) (st : Status) :
    cancelStopEntry s n st = cancelEntry s n := by
  simp only [cancelStopEntry, h]

/-- Settles O1. -/
theorem launchTableCommands : Obligations.LaunchTableCommands := by
  unfold Obligations.LaunchTableCommands
  refine ⟨?_, ?_, ?_, ?_, ?_, ?_, ?_, ?_⟩
  · intro n s hdone hactive hcount hrange hbundle hfallback hrefused hlate
    have harm : armEntry n s = cmdResult (modEntry s n fun x =>
        { x with state := .armed, doneCnt := 0, due := tickOf x, waiting := x.trig, late := false, cancelAfter := false
                 atOnce := !x.trig && decide (tickOf x < now s + 128) }) n .ok := by
      simp only [armEntry, hactive, if_neg hcount, hrange, hbundle, hfallback, hrefused, Bool.or_self, Bool.false_eq_true, if_false]
      exact if_neg (ne_true_of_eq_false hlate)
    exact congrArg (done s) ((celOp_of_done hdone 8 _).trans (congrArg (inProgress 8 s) harm))
  · intro n s hdone hactive hcount
    have harm : armEntry n s = cmdResult (modEntry s n fun x => { x with state := .disabled }) n .ok := by
      simp only [armEntry, hactive, if_pos hcount, Bool.false_eq_true, if_false]
    exact congrArg (done s) ((celOp_of_done hdone 8 _).trans (congrArg (inProgress 8 s) harm))
  · intro n s hbusy
    exact congrArg (done s) (celOp_of_busy hbusy 8 _)
  · intro n s hdone hwaits
    refine congrArg (done s) ((celOp_of_done hdone 8 _).trans ?_)
    rw [cancelEntry_of_waiting hwaits]
  · intro n s hdone hruns
    refine congrArg (done s) ((celOp_of_done hdone 8 _).trans ?_)
    rw [cancelEntry_of_running hruns]
  · intro n q s hdone hruns hon
    have hcancel := cancelEntry_of_running hruns
    refine congrArg (done s) ((celOp_of_done hdone 8 _).trans ?_)
    rw [cancelStopEntry_of_runsOn (q := q) (by rw [hcancel, runsOn_modEntry, hon]), hcancel]
  · intro n s hdone harmed hon
    have hcancel := cancelEntry_of_waiting (.inl harmed)
    refine congrArg (done s) ((celOp_of_done hdone 8 _).trans ?_)
    rw [cancelStopEntry_of_not_runsOn (by rw [hcancel, hon]), hcancel]
  · intro s hdone
    exact congrArg (done s) (celOp_of_done hdone 64 _)

end Sys2Proof.Machine
end

section
/-! SUPPORT. The sequence engines' shared instructions (R51, R54, R55). -/

namespace Sys2Proof.Machine

open Sys2Proof

/-- Of two writes of an engine's sequencer the later stands. -/
theorem setSeq_setSeq (s : State) (e : SeqId) (p q : Sequencer) : setSeq (setSeq s e p) e q = setSeq s e q := by cases e <;> rfl

theorem seqOf_elapse (s : State) (n : Nat) (e : SeqId) : seqOf (elapse s n) e = seqOf s e := rfl

/-- The sequencer of an engine that has gone past `n` words in `ticks`. -/
theorem seqOf_seqPast_elapse (s : State) (e : SeqId) (ticks n : Nat) (w : SeqWait) :
    seqOf (seqPast (elapse s ticks) e n w) e = { seqOf s e with pc := (seqOf s e).pc + n, wait := w } := by
  rw [seqPast, seqOf_setSeq, seqOf_elapse]

theorem setSeq_seqPast (s : State) (e : SeqId) (n : Nat) (w : SeqWait) (q : Sequencer) :
    setSeq (seqPast s e n w) e q = setSeq s e q := setSeq_setSeq s e _ q

theorem doLoopEnd_of_seqAt {s : State} {e : SeqId} {f : LoopFrame} {fs : List LoopFrame}
    (h : seqAt (settleSeq s e) e .loopEnd 1 = true) (hloops : (seqOf (settleSeq s e) e).loops = f :: fs) :
    doLoopEnd e s = setSeq (elapse (settleSeq s e) 1) e { seqOf (settleSeq s e) e with
      wait := .ready
      pc := if f.i + 1 < f.reps then f.body else (seqOf (settleSeq s e) e).pc + 1
      loops := if f.i + 1 < f.reps then { f with i := f.i + 1 } :: fs else fs } := by
  simp only [doLoopEnd, runInstr_of_seqAt h, seqOf_seqPast_elapse, hloops, setSeq_seqPast]
  split <;> rfl

/-- Settles O3. -/
theorem sequencerInstructions : Obligations.SequencerInstructions := by
  unfold Obligations.SequencerInstructions
  refine ⟨?_, ?_, ?_, ?_, ?_, ?_, ?_, ?_⟩
  · rintro e u s rfl hat
    exact congrArg (done s) (runInstr_of_seqAt hat 1 _)
  · rintro e u s rfl hat
    exact congrArg (done s) (runInstr_of_seqAt hat 1 _)
  · rintro e off u s rfl hat htick
    refine congrArg (done s) ?_
    simp only [doWaitTb, if_pos hat, if_neg (Nat.not_lt.2 htick)]
  · rintro e off u s rfl hat htick
    refine congrArg (done s) ?_
    simp only [doWaitTb, if_pos hat, if_pos htick]
  · rintro e n t u s hentry hwait rfl htick
    refine congrArg (done s) ?_
    simp only [doWaitTbRelease, hentry, hwait, if_pos htick]
  · rintro e n stride x64 u s rfl hat
    refine congrArg (done s) ((runInstr_of_seqAt hat 1 _).trans ?_)
    simp only [seqOf_seqPast_elapse, setSeq_seqPast]
    rfl
  · rintro e f fs u s rfl hat hloops hleft
    refine congrArg (done s) ((doLoopEnd_of_seqAt hat hloops).trans ?_)
    simp only [if_pos hleft]
  · rintro e f fs u s rfl hat hloops hover
    refine congrArg (done s) ((doLoopEnd_of_seqAt hat hloops).trans ?_)
    simp only [if_neg (Nat.not_lt.2 hover)]

end Sys2Proof.Machine
end

section
/-! SUPPORT. The launch ports, the log and the snapshot banks (R41 to R47, R59 to R64). -/

namespace Sys2Proof.Machine

open Sys2Proof

/-- A firing that meets no cause of lateness, none of BUSY, a ready synthesiser and its grant acts at its due tick (R43, R44). -/
theorem decideFiring_of_on_time {s : State} {n : Fin 128}
    (hlate : firingLate s (entryOf s n) = false) (hheld : firingHeld s (entryOf s n) = false)
    (hbusy : firingBusy s (entryOf s n) = false)
    (hsynth : ((entryOf s n).tx && !synthReady s (entryOf s n).island.toNat) = false)
    (hgrant : firingGranted s (entryOf s n) = true) :
    decideFiring s n = actFiring (elapseTo s (entryOf s n).due) n false := by
  simp only [decideFiring, hlate, hheld, hbusy, hsynth, hgrant, Bool.false_and, Bool.not_true, Bool.false_eq_true, if_false]

/-- Settles O2. -/
theorem launchPortCommands : Obligations.LaunchPortCommands := by
  unfold Obligations.LaunchPortCommands
  refine ⟨?_, ?_, ?_, ?_, ?_, ?_, ?_, ?_⟩
  · rintro n t s hpostable ht hisland hroom hearlier hdue
    refine congrArg (done s) ?_
    have hstands : ¬ (decide (5 ≤ (entryOf t n).island.toNat) ||
        decide (4 ≤ (vgetN t.cel.ports (entryOf t n).island.toNat []).length) || earlierDue t n (entryOf t n) ||
        decide (now t + tPost < (entryOf t n).due)) = true := by
      simp only [hearlier, Bool.or_false, Bool.or_eq_true, decide_eq_true_eq, not_or, Nat.not_le, Nat.not_lt]
      exact ⟨⟨hisland, hroom⟩, hdue⟩
    subst ht
    simp only [doLaunchPost, hpostable, Bool.not_true, Bool.false_eq_true, if_false]
    exact if_neg hstands
  · rintro island n t s hnext rfl hfire hlate hbusy hsynth hgrant
    refine congrArg (done s) ?_
    have hontime : firingLate (elapseTo s (fireAt (entryOf s n))) (entryOf (elapseTo s (fireAt (entryOf s n))) n) = false := hlate
    simp only [doLaunchFire, hnext, if_pos hfire]
    exact decideFiring_of_on_time hontime (by simp only [firingHeld, hontime, Bool.false_and]) hbusy hsynth hgrant
  · rintro c cs s hcompletions
    refine congrArg (done s) ?_
    simp only [doLaunchComplete, hcompletions]
  · rintro s
    exact done_eq rfl rfl rfl rfl
  · rintro s
    exact done_eq rfl rfl rfl rfl
  · rintro s
    exact done_eq rfl rfl rfl rfl
  · rintro bankS groups s hfree hgroups
    refine (congrArg (done s) (?_ : _ = _)).trans (done_eq rfl rfl rfl rfl)
    simp only [doSnapTrigger, hfree, hgroups, Bool.false_or, decide_false, Bool.false_eq_true, if_false]
    rfl
  · rintro bankS group t s hbusy hpend rfl
    refine congrArg (done s) ?_
    simp only [doSnapshotCapture, hbusy, hpend, Bool.not_true, Bool.or_self, Bool.false_eq_true, if_false]

end Sys2Proof.Machine
end

section
/-! SUPPORT. Vert's own instructions (R83 to R89). -/

namespace Sys2Proof.Machine

open Sys2Proof

/-- Settles O4. -/
theorem vertInstructions : Obligations.VertInstructions := by
  unfold Obligations.VertInstructions
  refine ⟨?_, ?_, ?_, ?_, ?_, ?_, ?_, ?_, ?_, ?_, ?_⟩
  · rintro slot ch u t s rfl hat rfl
    exact congrArg (done s) (runInstr_of_seqAt hat _ _)
  · rintro slot amp u s rfl hat
    exact congrArg (done s) (runInstr_of_seqAt hat _ _)
  · rintro slot ph u s rfl hat
    exact congrArg (done s) (runInstr_of_seqAt hat _ _)
  · rintro slot add b u s rfl hat
    exact congrArg (done s) (runInstr_of_seqAt hat _ _)
  · rintro trim freq u t s rfl hat rfl
    exact congrArg (done s) (runInstr_of_seqAt hat _ _)
  · rintro mask u t s rfl hat rfl
    exact congrArg (done s) (runInstr_of_seqAt hat _ _)
  · rintro mask u t s rfl hat rfl
    exact congrArg (done s) (runInstr_of_seqAt hat _ _)
  · rintro mask n b u sd s rfl hat rfl
    exact congrArg (done s) (startInstr_of_seqAt hat _ _)
  · rintro sd t s hsend rfl hwt
    refine congrArg (done s) ?_
    simp only [doSendComplete, hsend, if_neg (Nat.not_lt.2 hwt)]
  · rintro mask rcd periods u t last x s rfl hat rfl rfl rfl
    exact congrArg (done s) (runInstr_of_seqAt hat _ _)
  · rintro rcd i0 i1 i2 p0 p1 p2 x t v s hfind rfl hstop rfl
    refine congrArg (done s) ?_
    simp only [doMeasureWindowEnd, hfind, if_neg (Nat.not_lt.2 hstop)]

end Sys2Proof.Machine
end

section
/-! SUPPORT. Tenné's own instructions (R121 to R125). -/

namespace Sys2Proof.Machine

open Sys2Proof

/-- Settles O6. -/
theorem tenneInstructions : Obligations.TenneInstructions := by
  unfold Obligations.TenneInstructions
  refine ⟨?_, ?_, ?_, ?_, ?_, ?_, ?_, ?_, ?_, ?_, ?_, ?_, ?_, ?_, ?_⟩
  · rintro n u t s rfl hat rfl
    exact congrArg (done s) (runInstr_of_seqAt hat _ _)
  · rintro d u s rfl hat
    exact congrArg (done s) (startInstr_of_seqAt hat _ _)
  · rintro a t s hwait rfl hover hruns
    refine congrArg (done s) ?_
    simp only [doTnWaitLockTimeout, hwait, hover, hruns]
    rfl
  · rintro u v s hon hlocked rfl rfl
    refine congrArg (done s) ?_
    simp only [doTnSynthLock, hon, hlocked, Bool.not_false, Bool.and_self, if_true] <;> rfl
  · rintro s hlocked hphase htxOn hruns
    refine congrArg (done s) ?_
    simp only [doTnLockLost, hlocked, hphase, htxOn, hruns, Bool.not_true, Bool.and_self, Bool.false_eq_true, if_false, if_true]
  · rintro s hlocked hphase htxOn
    refine congrArg (done s) ?_
    simp only [doTnLockLost, hlocked, hphase, htxOn, Bool.not_true, Bool.false_eq_true, if_false]
  · rintro b u t s rfl hat rfl
    exact congrArg (done s) (runInstr_of_seqAt hat _ _)
  · rintro u t s rfl hat rfl
    exact congrArg (done s) (runInstr_of_seqAt hat _ _)
  · rintro n u s rfl hat
    exact congrArg (done s) (startInstr_of_seqAt hat _ _)
  · rintro format idx r search u s rfl hat
    exact congrArg (done s) (startInstr_of_seqAt hat _ _)
  · rintro sync toneLevel toneTicks d medians rssi weak payload x at_ len cls t s hrxFrame rfl rfl rfl rfl
    refine congrArg (done s) ?_
    simp only [doTnRxFrameEnd, hrxFrame]
    rfl
  · rintro n idx r value u s rfl hat
    exact congrArg (done s) (startInstr_of_seqAt hat _ _)
  · rintro b step u v t s rfl hlocked hat rfl hat' rfl
    refine congrArg (done s) ((if_pos ?_).trans (runInstr_of_seqAt hat' _ _))
    rw [hlocked, hat, Bool.and_self]
  · rintro u s rfl hat
    exact congrArg (done s) (startInstr_of_seqAt hat _ _)
  · rintro u t s rfl hat rfl
    exact congrArg (done s) (runInstr_of_seqAt hat _ _)

end Sys2Proof.Machine
end

section
/-! SUPPORT. Azure's own instructions (R138, R148 to R152). -/

namespace Sys2Proof.Machine

open Sys2Proof

theorem all_portIn_one {s : State} {p : Fin 6} (h : portIn s p = true) : ([p].all fun x => portIn s x) = true := by
  rw [List.all_cons, h, List.all_nil, Bool.and_self]

theorem all_portIn_of_eq {s : State} {o : Option (Fin 6)} {p : Fin 6} (ho : o = some p) (h : portIn s p = true) :
    (o.toList.all fun x => portIn s x) = true := by
  subst ho; exact all_portIn_one h

theorem keyServes_iff {a : Azure} {final : Bool} :
    keyServes a final = true ↔ a.key.valid = true ∧ (final = true ∨ a.key.used ≠ 2) := by
  simp only [keyServes, Bool.and_eq_true, Bool.or_eq_true, bne_iff_ne]

theorem not_keyServes_of_spent {a : Azure} (h : a.key.valid = false ∨ a.key.used = 2) : ¬ keyServes a false = true := by
  rw [keyServes_iff]
  rintro ⟨hvalid, hleft⟩
  rcases h with hvoid | hspent
  · exact Bool.false_ne_true (hvoid.symm.trans hvalid)
  · simp [hspent] at hleft

/-- Settles O8. -/
theorem azureInstructions : Obligations.AzureInstructions := by
  unfold Obligations.AzureInstructions
  refine ⟨?_, ?_, ?_, ?_, ?_, ?_, ?_, ?_, ?_, ?_, ?_, ?_, ?_, ?_, ?_, ?_, ?_⟩
  · rintro n u t s rfl hat rfl
    exact congrArg (done s) (runInstr_of_seqAt hat _ _)
  · rintro d u s rfl hat
    exact congrArg (done s) ((if_neg Bool.false_ne_true).trans (startInstr_of_seqAt hat _ _))
  · rintro d a t s hwait rfl hover
    refine congrArg (done s) ?_
    simp only [doAzWaitLock, hwait, if_pos hover, if_true]
  · rintro u s hsynthOn hlocked rfl
    refine congrArg (done s) ?_
    simp only [doAzSynthLock, hsynthOn, hlocked, Bool.not_false, Bool.and_self, if_true] <;> rfl
  · rintro s hlocked hruns
    exact congrArg (done s) (if_pos (by rw [hlocked, hruns, Bool.and_self]))
  · rintro a b u v t s rfl hat hports rfl hat' rfl
    refine congrArg (done s) ?_
    simp only [doAzRxOn, withPorts_of_ports_in (ps := fun _ => a :: b.toList) hat hports]
    exact runInstr_of_seqAt hat' _ _
  · rintro a b u s rfl hat hport
    refine congrArg (done s) ?_
    simp only [doAzRxOn, withPorts_of_port_out (ps := fun _ => a :: b.toList) hat hport]
  · rintro u t s rfl hat rfl
    exact congrArg (done s) (runInstr_of_seqAt hat _ _)
  · rintro b back u v t s rfl hat hport hlocked rfl hat' rfl
    refine congrArg (done s) ?_
    simp only [doAzTxOn, withPorts_of_ports_in (ps := fun _ => [b]) hat (all_portIn_one hport)]
    simp only [if_pos hlocked, runInstr_of_seqAt hat']
  · rintro u t s rfl hat rfl
    exact congrArg (done s) (runInstr_of_seqAt hat _ _)
  · rintro final r lead a u v t mark s rfl hat htx hport hkey rfl hat' rfl rfl
    refine congrArg (done s) ?_
    simp only [doAzTxFrame, withPorts_of_ports_in (ps := fun t => t.az.txPort.toList) hat (all_portIn_of_eq htx hport)]
    rw [if_pos (keyServes_iff.2 hkey)]
    exact startInstr_of_seqAt hat' _ _
  · rintro report r search u v t s rfl hat hports hkey rfl hat' rfl
    refine congrArg (done s) ?_
    simp only [doAzRxFrame, withPorts_of_ports_in (ps := fun t => t.az.rxA.toList ++ t.az.rxB.toList) hat hports]
    simp only [withKey, if_pos hkey]
    exact startInstr_of_seqAt hat' _ _
  · rintro r lead a u s rfl hat htx hport hkey
    refine congrArg (done s) ?_
    simp only [doAzTxFrame, withPorts_of_ports_in (ps := fun t => t.az.txPort.toList) hat (all_portIn_of_eq htx hport)]
    exact if_neg (not_keyServes_of_spent hkey)
  · rintro report r search u s rfl hat hports hkey
    refine congrArg (done s) ?_
    simp only [doAzRxFrame, withPorts_of_ports_in (ps := fun t => t.az.rxA.toList ++ t.az.rxB.toList) hat hports]
    simp only [withKey, hkey, Bool.false_eq_true, if_false]
  · rintro received firstPath phrOk nlos delay frac stsq rssi pdoa cfo payload x got psdu cls mark bit t a s hrxFrame hreport rfl rfl rfl rfl rfl rfl rfl
    refine congrArg (done s) ?_
    simp only [doAzRxFrameEnd, hrxFrame, hreport, Bool.false_and, Bool.false_eq_true, if_false]
  · rintro a b r u v t s rfl hat htx hrx rfl hat' rfl
    have hports : ([a, b].all fun p => portIn (settleSeq s .azure) p) = true := by
      rw [List.all_cons, htx, all_portIn_one hrx, Bool.and_self]
    refine congrArg (done s) ?_
    simp only [doAzLoopback, withPorts_of_ports_in (ps := fun _ => [a, b]) hat hports]
    exact startInstr_of_seqAt hat' _ _
  · rintro decoded nlos delay frac stsq rssi cfo amp dly l got mark t a s hloop rfl rfl rfl rfl
    refine congrArg (done s) ?_
    simp only [doAzLoopbackEnd, hloop]

end Sys2Proof.Machine
end

section
/-! SUPPORT. Vert's monitors, tracking and sweeps (R70 to R79, R91). -/

namespace Sys2Proof.Machine

open Sys2Proof

theorem sweepYields_eq_none {s : State} {n : Nat} :
    sweepYields s n = none ↔ ∀ p, nextPosting s 0 = some p → now s + n ≤ p := by
  simp only [sweepYields, Option.filter_eq_none_iff, decide_eq_true_eq, Nat.not_lt]

theorem sweepYields_of_near {s : State} {n p : Nat} (hnext : nextPosting s 0 = some p) (hnear : p < now s + n) :
    sweepYields s n = some p := by
  simp only [sweepYields, hnext, Option.filter_some, decide_eq_true hnear, if_true]

/-- A sweep that is asked for and may run, with no entry of Vert in the way, runs unless a posting meets it. -/
theorem doLfSweep_of_may {s : State} {c : Fin 12} {f : Vector Byte 8} {g : Vector Byte 3} {cur : BitVec 12} {ph : Byte}
    (hpop : bitAt s.vert.pop.toNat c.val = true) (hasked : ((s.vert.ch[c]).sweepReq || diagSweeps s c) = true)
    (hmay : sweepMay s = true) (hruns : seqRuns s .vert = false)
    (hfree : (s.cel.entries.toList.any fun e => e.island.toNat == 0 &&
      (e.state = .posted || e.state = .running || ((s.vert.ch[c]).sweepExtra && e.state = .armed))) = false) :
    doLfSweep c f g cur ph s = (sweepYields s (2400 * sweepDrives c)).elim
      (markDirty { diagSwept (sweepRun s c f g cur ph) c with vert := { (diagSwept (sweepRun s c f g cur ph) c).vert with
        sweeping := none } } calLf)
      fun p => sweepYield c 8 2400 p s := by
  have hmayRun : (sweepAsked s c && sweepMay s && !seqRuns s .vert) = true := by
    rw [sweepAsked, hpop, hasked, hmay, hruns]; rfl
  simp only [doLfSweep, hmayRun, hfree, Bool.not_false, Bool.and_self, if_true]
  cases sweepYields s (2400 * sweepDrives c) <;> rfl

/-- Settles O5. -/
theorem vertMonitorEvents : Obligations.VertMonitorEvents := by
  unfold Obligations.VertMonitorEvents
  refine ⟨?_, ?_, ?_, ?_, ?_, ?_, ?_, ?_, ?_, ?_, ?_⟩
  · rintro c phErr iMeas residual b t s hended hcls hmeasurable hsupply rfl hopen hdetuned hlow
    refine congrArg (done s) ?_
    have hin : (lfOut LfClass.normal || s.pwr.vbatLow || s.pwr.vbatOvp || s.vert.vlfUv) = false := by
      simpa [lfOut, Bool.or_assoc] using hsupply
    simp only [doLfBurstMeasured, hended, hcls, hmeasurable, hin, if_neg (Nat.not_le.2 hopen), if_neg (Nat.not_le.2 hdetuned),
      decide_eq_false (Nat.not_le.2 hlow), reduceCtorEq, decide_false, Bool.not_true, Bool.or_self, Bool.and_false,
      Bool.false_and, Bool.false_eq_true, if_false]
  · rintro c s hcls
    refine congrArg (done s) ?_
    simp only [doLfOvercurrentTrip, hcls]
    rfl
  · rintro c n t s hticksToCap htbRun rfl
    refine congrArg (done s) ?_
    simp only [doDutyCapacityReached, hticksToCap, htbRun]
    rfl
  · rintro t s hdutyHold rfl hall
    refine congrArg (done s) ?_
    simp only [doDutyHoldClear, hdutyHold, hall]
    rfl
  · rintro t s rfl
    rfl
  · rintro s
    rfl
  · rintro c t s hseqRuns hbitAt hbitAt' rfl h2
    refine congrArg (done s) ?_
    simp only [doLfTrackingStep, hseqRuns, hbitAt, hbitAt', h2]
    rfl
  · rintro c f g cur ph t s hpop hasked hmay hruns hfree hnear rfl
    refine congrArg (done s) ((doLfSweep_of_may hpop hasked hmay hruns hfree).trans ?_)
    rw [sweepYields_eq_none.2 hnear]
    rfl
  · rintro c f g cur ph p t s hpop hasked hmay hruns hfree hnext hnear rfl
    refine congrArg (done s) ((doLfSweep_of_may hpop hasked hmay hruns hfree).trans ?_)
    rw [sweepYields_of_near hnext hnear]
    rfl
  · rintro c s hcls
    refine congrArg (done s) ?_
    simp only [doLfSweepSpacingTimer, hcls]
    rfl
  · rintro v s
    rfl

end Sys2Proof.Machine
end

section
/-! SUPPORT. The untimed transmit, coexistence and the VCO check (R192, R197 to R201, R444); the STS key and port trips (R137,
R138, R144). -/

namespace Sys2Proof.Machine

open Sys2Proof

theorem vcalSettle_of_none {s : State} (h : s.tn.vcal = none) : vcalSettle s = s := by
  simp only [vcalSettle, h]

theorem vcalSettle_of_ended {s : State} {e : Nat} {a : Int} (h : s.tn.vcal = some (e, a)) (hended : e ≤ now s) :
    vcalSettle s = markDirty { s with tn := { s.tn with
      vcal := none, refill := false, cache := 0xFF, cacheTemp := some a } } calBand := by
  simp only [vcalSettle, h, if_pos hended]

theorem vcoChecked_of_moved {s u : State} {temp a : Int} (hsettled : vcalSettle s = u) (hcache : u.tn.cacheTemp = some a)
    (h : 20 ≤ temp - a ∨ 20 ≤ a - temp) :
    vcoChecked temp s = vcalStart temp (markDirty { u with tn := { u.tn with
      cache := 0, cacheTemp := none, refill := true } } calBand) := by
  simp only [vcoChecked, hsettled, hcache, if_pos h]

theorem vcoChecked_of_near {s u : State} {temp a : Int} (hsettled : vcalSettle s = u) (hcache : u.tn.cacheTemp = some a)
    (h : temp - a < 20 ∧ a - temp < 20) : vcoChecked temp s = vcalStart temp u := by
  have hstays : ¬ (20 ≤ temp - a ∨ 20 ≤ a - temp) := by omega
  simp only [vcoChecked, hsettled, hcache, if_neg hstays]

/-- Settles O7. -/
theorem untimedTransmitAndCoexistence : Obligations.UntimedTransmitAndCoexistence := by
  unfold Obligations.UntimedTransmitAndCoexistence
  refine ⟨?_, ?_, ?_, ?_, ?_, ?_, ?_⟩
  · rintro v u s hgo hidle hlock rfl hprofile hstep hcoex
    refine congrArg (done s) ((if_pos hgo).trans ?_)
    have hlegal : ¬ (((utxFields s.tn.utx v).profile.toNat ≠ 1 ∧ (utxFields s.tn.utx v).profile.toNat ≠ 2) ∨
        pwrMaxOf s (utxFields s.tn.utx v).entry.toNat < (utxFields s.tn.utx v).step.toNat ∨
        2 ≤ (utxFields s.tn.utx v).coex.toNat) := by omega
    simp only [utxGo, hlock, hidle, if_neg hlegal, ne_eq, not_true_eq_false, Bool.false_eq_true, if_false]
  · rintro t s hphase rfl hsvcLock hvbatNoTx hseqRuns hisEmpty hvcalRuns hutxGranted hnear32 hnow
    refine congrArg (done s) ?_
    simp only [doUtxStart, hphase, hsvcLock, hvbatNoTx, hseqRuns, hisEmpty, hvcalRuns, hutxGranted, hnear32, hnow]
    rfl
  · rintro t s hphase rfl
    refine congrArg (done s) ?_
    simp only [doUtxDeadline, hphase]
    rfl
  · rintro s hphase
    refine congrArg (done s) ?_
    simp only [doUtxFrameEnd, hphase]
    rfl
  · rintro pair level g s - rfl
    rfl
  · rintro temp a u t s hpstate rfl rfl hvcal hcacheTemp hmoved
    exact congrArg (done s) ((if_pos hpstate).trans (vcoChecked_of_moved (vcalSettle_of_none hvcal) hcacheTemp hmoved))
  · rintro temp a b e u t v s hpstate rfl rfl hvcal hended rfl hcacheTemp hnear
    exact congrArg (done s) ((if_pos hpstate).trans (vcoChecked_of_near (vcalSettle_of_ended hvcal hended) hcacheTemp hnear))

/-- Settles O9. -/
theorem uwbPortTripsAndStsKey : Obligations.UwbPortTripsAndStsKey := by
  unfold Obligations.UwbPortTripsAndStsKey
  refine ⟨?_, ?_, ?_, ?_, ?_⟩
  · rintro b s htxPort hcls
    refine congrArg (done s) ?_
    simp only [doAzVswrTrip, htxPort, hcls]
    rfl
  · rintro t s hvalid rfl hloadedAt
    refine congrArg (done s) ?_
    simp only [doStsKeyExpire, hvalid, hloadedAt]
    rfl
  · rintro s
    rfl
  · rintro s hvalid hruns
    refine congrArg (done s) ((if_pos hvalid).trans ?_)
    exact if_pos hruns
  · rintro s hvalid hruns
    refine congrArg (done s) ((if_pos hvalid).trans ?_)
    exact if_neg (ne_true_of_eq_false hruns)

end Sys2Proof.Machine
end

section
/-! SUPPORT. Job submissions (R244, R249, R265, R266). -/

namespace Sys2Proof.Machine

open Sys2Proof

theorem submit_of_mayAccept {s : State} {op : JobOp} {w : JobWords} {privileged : Bool} (h : mayAccept s op w privileged) :
    submit op w privileged s = accepted s op w privileged := by
  obtain ⟨hfree, hpasses⟩ := h
  have hnone : ¬ (jobAt { s with gq := { s.gq with privileged := privileged } } w.tag).isSome = true := by
    have hjob : jobAt { s with gq := { s.gq with privileged := privileged } } w.tag = none := hfree
    simp only [hjob, Option.isSome_none, Bool.false_eq_true, not_false_eq_true]
  simp only [submit, if_neg hnone, hpasses]
  rfl

theorem takeNonce_jobs (s : State) (n : Fin 224) : (takeNonce s n).2.gq.jobs = s.gq.jobs := by
  unfold takeNonce
  split
  · rfl
  · dsimp only
    split
    · rfl
    · dsimp only
      split <;> rfl

theorem commitRecord_jobs (s : State) (n : Fin 224) : (commitRecord s n).gq.jobs = s.gq.jobs := by
  simp only [commitRecord, modKey]
  split
  · rfl
  · exact takeNonce_jobs _ _

theorem countUse_jobs (s : State) (op : JobOp) (w : JobWords) : (countUse s op w).gq.jobs = s.gq.jobs := by
  unfold countUse
  split
  · dsimp only
    split
    · split
      · exact commitRecord_jobs _ _
      · rfl
    · rfl
  · rfl

/-- An accepted job is held or ready, never done at its submission (R266). -/
theorem exists_jobAt_accepted (s : State) (op : JobOp) (w : JobWords) (privileged : Bool) :
    ∃ k, jobAt (accepted s op w privileged) w.tag = some k ∧ k.phase ≠ .done := by
  simp only [jobAt, accepted, countUse_jobs, setJob, vset, Fin.getElem_fin, Vector.getElem_set_self]
  refine ⟨_, rfl, ?_⟩
  dsimp only
  split <;> exact JobPhase.noConfusion

theorem settleRefused_of_accepted {s : State} {op : JobOp} {w : JobWords} {privileged : Bool} (h : mayAccept s op w privileged) :
    settleRefused s (submit op w privileged s) w.tag = accepted s op w privileged := by
  obtain ⟨k, hk, hphase⟩ := exists_jobAt_accepted s op w privileged
  rw [submit_of_mayAccept h]
  simp only [settleRefused, h.1, hk, if_neg hphase]

theorem done_submit {s : State} {op : JobOp} {w : JobWords} {privileged : Bool} (h : mayAccept s op w privileged) :
    done s (submit op w privileged s) = .next (keepOtp s (accepted s op w privileged)) :=
  congrArg (done s) (submit_of_mayAccept h)

theorem done_settleRefused {s : State} {op : JobOp} {w : JobWords} {privileged : Bool} (h : mayAccept s op w privileged) :
    done s (settleRefused s (submit op w privileged s) w.tag) = .next (keepOtp s (accepted s op w privileged)) :=
  congrArg (done s) (settleRefused_of_accepted h)

/-- Settles O10: each command submits its operation, and three settle a refusal at once. -/
theorem jobSubmissions : Obligations.JobSubmissions := by
  unfold Obligations.JobSubmissions
  exact ⟨fun _ _ => done_submit, fun _ _ => done_submit, fun _ _ => done_submit, fun _ _ => done_submit, fun _ _ => done_submit,
    fun _ _ => done_submit, fun _ _ => done_settleRefused, fun _ _ => done_settleRefused, fun _ _ => done_submit,
    fun _ _ => done_submit, fun _ _ => done_submit, fun _ _ => done_submit, fun _ _ => done_submit, fun _ _ => done_submit,
    fun _ _ => done_submit, fun _ _ => done_submit, fun _ _ => done_settleRefused, fun _ _ _ => done_submit,
    fun _ _ _ => done_submit⟩

end Sys2Proof.Machine
end

section
/-! SUPPORT. Gules's own services (R252 to R254, R267, R270, R281, R283, R292, R480). -/

namespace Sys2Proof.Machine

open Sys2Proof

theorem startJob_of_no_refusal {s : State} (t : Fin 48) {j : Job} {e : Nat} (h : startRefusal s j e = none) :
    startJob s t j e =
      (let u := if (opUse j.op).isSome then remaskWait s j.w.slot.toNat else s
       let v := (loadShares u j e).2
       segLands (setJob v t (some (takeSeg v { j with phase := .running, engine := e, shares := (loadShares u j e).1 }))) j) := by
  simp only [startJob, h]

theorem setArea_jobs (s : State) (n : Nat) (a : StageArea) : (setArea s n a).gq.jobs = s.gq.jobs := by
  unfold setArea
  split <;> rfl

theorem segLands_jobs (s : State) (j : Job) : (segLands s j).gq.jobs = s.gq.jobs := by
  unfold segLands
  split
  · exact setArea_jobs _ _ _
  · rfl

theorem takeSeg_phase (s : State) (j : Job) : (takeSeg s j).phase = j.phase := by
  unfold takeSeg
  split <;> rfl

theorem exists_jobAt_startJob {s : State} (t : Fin 48) (j : Job) (e : Nat) (h : startRefusal s j e = none) :
    ∃ k, jobAt (startJob s t j e) t = some k ∧ k.phase = .running := by
  simp only [startJob_of_no_refusal t h, jobAt, segLands_jobs, setJob, vset, Fin.getElem_fin, Vector.getElem_set_self]
  exact ⟨_, rfl, takeSeg_phase _ _⟩

/-- Settles O11. -/
theorem gulesServices : Obligations.GulesServices := by
  unfold Obligations.GulesServices
  refine ⟨?_, ?_, ?_, ?_, ?_, ?_, ?_, ?_, ?_, ?_, ?_, ?_, ?_⟩
  · rintro t j e u v s hpick hjob hstarts rfl rfl
    refine congrArg (done s) ?_
    obtain ⟨k, hk, hphase⟩ := exists_jobAt_startJob t j e hstarts
    simp only [doGqJobDispatch, hpick, settleRefused, hjob, hk, hphase, reduceCtorEq, decide_false, Bool.and_false, Bool.false_eq_true,
      if_false]
    exact startJob_of_no_refusal t hstarts
  · rintro tag j s hvgetN hphase
    refine (congrArg (done s) (?_ : _ = _)).trans (done_eq rfl rfl rfl rfl)
    simp only [doGqFree, hvgetN, hphase]
    rfl
  · rintro tag j s hjob hheld
    refine congrArg (done s) ?_
    have htag : (BitVec.ofNat 6 tag.val).toNat = tag.val := by
      rw [BitVec.toNat_ofNat, Nat.mod_eq_of_lt (by omega)]
    have hlt : (BitVec.ofNat 6 tag.val).toNat < 48 := by omega
    have hsame : (⟨(BitVec.ofNat 6 tag.val).toNat, hlt⟩ : Fin 48) = tag := Fin.ext htag
    simp only [doGqCancel, dif_pos hlt, hsame, hjob, if_pos hheld]
  · rintro d ds s hdones
    refine (congrArg (done s) (?_ : _ = _)).trans (done_eq rfl rfl rfl rfl)
    simp only [doGqDoneRead, hdones]
  · rintro n s horphansWaiting
    refine congrArg (done s) ?_
    simp only [doOrphanZeroise, horphansWaiting]
  · rintro ctx a l t s hproofTicks rfl
    refine congrArg (done s) ?_
    simp only [doProofRecordExpire, hproofTicks]
  · rintro failA failB t s hkatDue rfl hfilter
    refine congrArg (done s) ?_
    have hfew : ¬ (3 ≤ ((katRun { s with gq := { s.gq with katDue := false } } failA failB).gq.mismatches.filter fun a =>
        decide (now (katRun { s with gq := { s.gq with katDue := false } } failA failB) ≤ a + 10 * ticksPerSec)).length ∧
        (katRun { s with gq := { s.gq with katDue := false } } failA failB).gq.engAOut = false ∧
        (katRun { s with gq := { s.gq with katDue := false } } failA failB).gq.engBOut = false) :=
      fun h => Nat.not_le.2 hfilter h.1
    simp only [doMismatchKat, hkatDue, if_neg hfew, Bool.not_true, Bool.false_eq_true, if_false]
  · rintro failA failB due t u s hpstate rfl rfl rfl
    exact congrArg (done s) (if_pos hpstate)
  · rintro due t s hpstate rfl rfl
    refine congrArg (done s) ?_
    exact if_pos hpstate
  · rintro s htrngOut
    refine congrArg (done s) ?_
    simp only [doTrngHealthFail, htrngOut]
    rfl
  · rintro s htrngRestart
    refine (congrArg (done s) (?_ : _ = _)).trans (done_eq rfl rfl rfl rfl)
    simp only [doTrngRestartDone, htrngRestart]
    rfl
  · rintro s htrngRestart hx
    refine congrArg (done s) ?_
    simp only [doTrngRestartDone, htrngRestart, hx]
    rfl
  · rintro t s rfl
    rfl

end Sys2Proof.Machine
end

section
/-! SUPPORT. The yard tag: inventory and singulation (R215 to R217); memory, security and the loss of the field (R218 to R227). -/

namespace Sys2Proof.Machine

open Sys2Proof

/-- Settles O12. -/
theorem yardTagInventory : Obligations.YardTagInventory := by
  unfold Obligations.YardTagInventory
  refine ⟨?_, ?_, ?_, ?_, ?_, ?_, ?_, ?_, ?_, ?_⟩
  · rintro u k s rfl hkRid
    refine congrArg (done s) ?_
    simp only [doTagSessionStart, hkRid]
  · rintro target action bank pointer mask truncate t v s rfl hpowered htarget rfl
    refine congrArg (done s) ?_
    have hnotSl : ¬ (truncate = true ∧ target = 4 ∧ bank = 1) := by
      rintro ⟨-, rfl, -⟩
      exact absurd htarget (by decide)
    simp only [doTagSelect, hpowered, if_neg hnotSl, if_pos htarget, Bool.not_true, Bool.false_eq_true, if_false]
    rfl
  · rintro action bank pointer mask truncate t s rfl hpowered
    refine congrArg (done s) ?_
    simp only [doTagSelect, hpowered, true_and, Bool.not_true, Bool.false_eq_true, if_false]
    rfl
  · rintro dr miller trext sel session target q t x y s rfl hpowered rfl rfl hsl hflag
    refine congrArg (done s) ?_
    simp only [doTagQuery, hpowered, Bool.not_true, Bool.false_eq_true, if_false]
    refine if_pos ?_
    rw [hsl, hflag, beq_self_eq_true, Bool.and_self]
  · rintro session upDn t s rfl hpowered rfl hupDn hst
    refine congrArg (done s) ?_
    have hlegal : (decide (upDn = 6) || decide (upDn = 0) || decide (upDn = 3)) = true := by
      simpa [or_assoc] using hupDn
    have hsingled : tagSingled (tagCommand s).tag = false := by
      rcases hst with h | h <;> simp only [tagSingled, h] <;> rfl
    have hround : (decide ((tagCommand s).tag.st = .arbitrate) || decide ((tagCommand s).tag.st = .reply)) = true := by
      simpa using hst
    simp only [doTagQueryAdjust, hpowered, hlegal, hsingled, hround, bne_self_eq_false, Bool.not_true, Bool.or_self,
      Bool.false_eq_true, if_false, if_true]
  · rintro session t s rfl hpowered rfl hst hleft
    refine congrArg (done s) ?_
    have hsingled : tagSingled (tagCommand s).tag = false := by simp only [tagSingled, hst]; rfl
    simp only [doTagQueryRep, hpowered, hsingled, hst, if_neg hleft, bne_self_eq_false, Bool.not_true, Bool.or_self,
      Bool.false_eq_true, if_false]
  · rintro rn t s rfl hpowered hst rfl
    refine congrArg (done s) ?_
    simp only [doTagAck, hpowered, hst]
    rfl
  · rintro t s rfl hpowered hst
    refine congrArg (done s) ?_
    simp only [doTagNak, hpowered, hst]
    rfl
  · rintro rn t s rfl hpowered hst rfl
    refine congrArg (done s) ?_
    simp only [doTagReqRn, hpowered, hst]
    rfl
  · rintro s
    rfl

/-- Settles O13. -/
theorem yardTagMemoryAndSecurity : Obligations.YardTagMemoryAndSecurity := by
  unfold Obligations.YardTagMemoryAndSecurity
  refine ⟨?_, ?_, ?_, ?_, ?_, ?_, ?_, ?_, ?_, ?_⟩
  · rintro handle bank word count sent t u d s rfl htagOpen rfl htagReadBank
    refine congrArg (done s) ?_
    simp only [doTagRead, htagOpen, htagReadBank]
    rfl
  · rintro handle word data energy sent t u s rfl hopen hpower hword hmay hfree rfl
    refine congrArg (done s) ?_
    simp only [doTagWrite, hopen, hpower, if_neg (Nat.not_le.2 hword), hmay, hfree, ne_eq, not_true_eq_false, Bool.not_true,
      Bool.or_self, Bool.false_eq_true, if_false]
  · rintro handle mask action t s rfl hopen hst hmask hperma
    refine congrArg (done s) ?_
    simp only [doTagLock, hopen, hst, hperma, Nat.not_le.2 hmask, bne_self_eq_false, Bool.not_true, Bool.or_self, false_and,
      or_self, Bool.false_eq_true, if_false]
  · rintro handle keyId m t u s rfl hopen hfails hsupported hauth hkey rfl
    refine congrArg (done s) ?_
    have hmay : ¬ (16 ≤ (tagCommand s).tag.authFails ∧ (tagCommand s).tag.authTried = true) := fun h => Nat.not_le.2 hfails h.1
    simp only [doTagAuthenticate, hopen, if_neg hmay, Bool.not_true, Bool.false_eq_true, if_false]
    cases m with
    | unsupported => exact absurd rfl hsupported
    | tam1 => exact absurd rfl hauth
    | _ =>
      simp only [Bool.true_and]
      exact if_pos hkey
  · rintro handle tid user t s rfl htagOpen hst htid
    refine congrArg (done s) ?_
    simp only [doTagUntraceable, htagOpen, hst, htid]
    rfl
  · rintro handle t s rfl htagOpen
    refine congrArg (done s) ?_
    simp only [doTagKill, htagOpen]
    rfl
  · rintro a as t s hsteward hcmd hheld rfl
    refine congrArg (done s) ?_
    have hwaits : (s.tag.readerHold || s.orr.ash) = true := by simpa using hheld
    have hblocked : (!s.tag.readerHold && !s.orr.ash) = false := by rw [← Bool.not_or, hwaits]; rfl
    simp only [doTagWaitTimeout, hsteward, tagRespond, hcmd, hblocked, Option.isSome_none, Bool.false_eq_true, if_false]
    rfl
  · rintro point s hsupplied
    refine congrArg (done s) ?_
    simp only [doTagFieldCollapse, tagFieldGone, tearCounter, tearTarget, hsupplied]
    rfl
  · rintro tear point s hsupplied htearTarget
    refine congrArg (done s) ?_
    simp only [doTagFieldCollapse, setTagPage, tagDark, tagFieldGone, tagPage, tearCounter, tearPage, tearPoint, touchPage, hsupplied, htearTarget]
    rfl
  · rintro point pg data word x u t v s hsupplied rfl htearTarget rfl rfl
    refine congrArg (done s) ?_
    simp only [doTagFieldCollapse, tagFieldGone, tearCounter, tearPoint, hsupplied, htearTarget]
    rfl

end Sys2Proof.Machine
end

section
/-! SUPPORT. The barrier's frames, credits and acknowledgements (R342 to R355, R372). -/

namespace Sys2Proof.Machine

open Sys2Proof

/-- An address of the bridge's window, and its offset there (R344). -/
theorem mapped_of_addr {n a : Nat} (h : n = 0x01000000 + a) : ¬ n < 0x01000000 ∧ n - 0x01000000 = a := by omega

/-- Settles O14. -/
theorem barrierShortFrames : Obligations.BarrierShortFrames := by
  unfold Obligations.BarrierShortFrames
  refine ⟨?_, ?_, ?_, ?_, ?_, ?_, ?_, ?_, ?_, ?_, ?_, ?_, ?_, ?_, ?_, ?_⟩
  · rintro x t s harrival rfl hsynced
    refine congrArg (done s) ?_
    simp only [doVerdictEntry, receive_of_frame harrival, hsynced]
    rfl
  · rintro x t s harrival rfl hsynced hvehicleAllows hreadbackFault
    refine congrArg (done s) ?_
    simp only [doVerdictStart, receive_of_frame harrival, hsynced, hvehicleAllows, hreadbackFault, Bool.not_true, Bool.false_eq_true,
      if_false]
  · rintro x t s harrival rfl hsynced hvehicleAllows
    refine congrArg (done s) ?_
    simp only [doVerdictStart, receive_of_frame harrival, hsynced, hvehicleAllows]
    rfl
  · rintro x t s harrival rfl hsynced
    refine congrArg (done s) ?_
    simp only [doVerdictStart, receive_of_frame harrival, hsynced]
    rfl
  · rintro x t s harrival rfl hsynced hvehicleAllows hreadbackFault
    refine congrArg (done s) ?_
    simp only [doVerdictStart, receive_of_frame harrival, hsynced, hvehicleAllows, hreadbackFault]
    rfl
  · rintro x t s harrival rfl hsynced
    refine congrArg (done s) ?_
    simp only [doVerdictEntry, receive_of_frame harrival, hsynced]
    rfl
  · rintro x s harrival
    refine congrArg (done s) ?_
    simp only [doVstate, receive_of_frame harrival]
  · rintro x s harrival
    refine congrArg (done s) ?_
    simp only [doResult, receive_of_frame harrival]
  · rintro x t s harrival rfl
    refine congrArg (done s) ?_
    simp only [doHeartbeat, receive_of_frame harrival]
    rfl
  · rintro x s harrival
    refine congrArg (done s) ?_
    simp only [doHeartbeat, receive_of_frame harrival]
    rfl
  · rintro toHost x t e s harrival rfl rfl hbitAt hrxHi
    refine congrArg (done s) ?_
    simp only [doEpoch, receive_of_frame harrival, hbitAt, hrxHi]
    rfl
  · rintro toHost x lo t e s harrival rfl rfl hbitAt hrxLo
    refine congrArg (done s) ?_
    simp only [doEpoch, receive_of_frame harrival, hbitAt, hrxLo]
    rfl
  · rintro x t s harrival rfl
    refine congrArg (done s) ?_
    simp only [doCoexReqFrame, receive_of_frame harrival]
  · rintro x t s harrival rfl
    refine congrArg (done s) ?_
    simp only [doCoexGntFrame, receive_of_frame harrival]
  · rintro x s hcontrolNext harrival
    exact congrArg (done s) ((if_pos hcontrolNext).trans (receive_of_frame harrival _))
  · rintro x r s hcontrolNext harrival hbitsOf
    refine congrArg (done s) ((if_pos hcontrolNext).trans ((receive_of_frame harrival _).trans ?_))
    simp only [List.mem_cons, Prod.mk.injEq, List.not_mem_nil, or_false] at hbitsOf
    obtain ⟨hr, rfl⟩ | ⟨hr, rfl⟩ | ⟨hr, rfl⟩ | ⟨hr, rfl⟩ := hbitsOf <;> simp only [hr]

/-- Settles O15. -/
theorem barrierBulkFramesAndCredits : Obligations.BarrierBulkFramesAndCredits := by
  unfold Obligations.BarrierBulkFramesAndCredits
  refine ⟨?_, ?_, ?_, ?_, ?_, ?_, ?_, ?_, ?_, ?_, ?_, ?_, ?_, ?_, ?_, ?_, ?_⟩
  · rintro f s hbulkArrival hisEmpty
    refine congrArg (done s) ?_
    simp only [doBulkWrite, hbulkArrival, hisEmpty]
    rfl
  · rintro f s hbulkArrival hisEmpty
    refine congrArg (done s) ?_
    simp only [doBulkWrite, hbulkArrival, hisEmpty]
    rfl
  · rintro f a t d s hbulkArrival htoNat rfl hany hisEmpty hbridgeWords hbridgeRcd
    obtain ⟨hmapped, haddr⟩ := mapped_of_addr htoNat
    refine congrArg (done s) ?_
    simp only [doBulkRead, hbulkArrival, if_neg hmapped, haddr, hany, hisEmpty, hbridgeWords, hbridgeRcd, Bool.false_eq_true, if_false]
  · rintro f a t u d s hbulkArrival htoNat rfl hany hisEmpty hbridgeWords hbridgeRcd rfl
    obtain ⟨hmapped, haddr⟩ := mapped_of_addr htoNat
    refine congrArg (done s) ?_
    simp only [doBulkRead, hbulkArrival, if_neg hmapped, haddr, hany, hisEmpty, hbridgeWords, hbridgeRcd, Bool.false_eq_true, if_true, if_false]
  · rintro f a t s hbulkArrival htoNat rfl hany hisEmpty hbridgeWords
    obtain ⟨hmapped, haddr⟩ := mapped_of_addr htoNat
    refine congrArg (done s) ?_
    simp only [doBulkRead, hbulkArrival, if_neg hmapped, haddr, hany, hisEmpty, hbridgeWords, Bool.false_eq_true, if_false]
  · rintro f a t s hbulkArrival htoNat rfl hany
    obtain ⟨hmapped, haddr⟩ := mapped_of_addr htoNat
    refine congrArg (done s) ?_
    simp only [doBulkRead, hbulkArrival, if_neg hmapped, haddr, hany, if_true]
  · rintro f t s hbulkArrival rfl
    refine congrArg (done s) ?_
    simp only [doBulkCompletion, hbulkArrival]
  · rintro f x t s hbulkArrival rfl hfind
    refine congrArg (done s) ?_
    simp only [doRcdResolve, hbulkArrival, hfind]
  · rintro x xs t s hrcd ht
    have hdo : doRcdResolveDeadline s = { t with bar := { t.bar with rcd := xs } } := by
      simp only [doRcdResolveDeadline, hrcd, ht]
      rfl
    subst ht
    exact (congrArg (done s) hdo).trans (done_eq (by simp) (by simp) (by simp) (by simp))
  · rintro toHost n t l s harrival hbitsOf rfl rfl
    refine congrArg (done s) ?_
    simp only [doCredit, receive_of_frame harrival, hbitsOf]
    rfl
  · rintro n t l s harrival hbitsOf rfl rfl
    refine congrArg (done s) ?_
    simp only [doCredit, receive_of_frame harrival, hbitsOf]
    rfl
  · rintro toHost payload l n f s hlink hbitAt hbitAt' rfl hackedAt htaken hmismatch
    refine (congrArg (done s) (?_ : _ = _)).trans (done_eq rfl rfl rfl rfl)
    simp only [doAck, hlink, hbitAt, hbitAt', hackedAt, htaken, hmismatch]
    rfl
  · rintro payload l s hlink hbitAt hbitAt' rfl
    refine congrArg (done s) ?_
    have hactive : (bitAt payload.toNat 1 || decide (s.bar.link ≠ .up)) = false := by simp [hbitAt, hlink]
    simp only [doAck, hactive, hbitAt', Bool.false_eq_true, if_false, if_true]
    rfl
  · rintro toHost payload l n f t s hlink hbitAt hbitAt' rfl hackedAt hmismatch rfl
    refine congrArg (done s) ?_
    have hactive : (!bitAt payload.toNat 1 || bitAt payload.toNat 0 || decide (s.bar.link ≠ .up)) = false := by
      simp [hbitAt, hbitAt', hlink]
    simp only [doNak, hactive, hackedAt, hmismatch, Bool.false_eq_true, if_false, if_true]
  · rintro toHost f fs s hlink hframes hfailed
    refine (congrArg (done s) (?_ : _ = _)).trans (done_eq rfl rfl rfl rfl)
    simp only [doAckTimeout, if_neg (not_not_intro hlink), hframes, if_neg (Nat.not_le.2 hfailed), Bool.false_eq_true, if_false]
  · rintro toHost f fs s hlink hframes hx
    refine congrArg (done s) ?_
    simp only [doAckTimeout, if_neg (not_not_intro hlink), hframes, if_pos hx, Bool.false_eq_true, if_false]
  · rintro toHost noise n f s hlink hnextShort honWire hbitsPass
    refine congrArg (done s) ?_
    simp only [doFrameCheckFail, if_neg (not_not_intro hlink), hnextShort, honWire, hbitsPass, Bool.not_false, Bool.and_self,
      Bool.false_eq_true, if_false, if_true]

end Sys2Proof.Machine
end

section
/-! SUPPORT. The barrier's heartbeats, epochs, link and resets (R349 to R357). -/

namespace Sys2Proof.Machine

open Sys2Proof

/-- A step that ends in a state with the old queue, keys, boot record and revision ends in that state. -/
theorem done_next_of {s t u : State} (h : t = u) (hp : u.pending = s.pending) (hk : u.keys = s.keys) (hb : u.boot = s.boot)
    (hh : u.host.revision = s.host.revision) : done s t = .next u :=
  (congrArg (done s) h).trans (done_eq hp hk hb hh)

/-- H_WAKE pulses while the link is not up and something waits for the host in Chalk (R355). -/
theorem pulses_of_waits {s : State} (hlink : s.bar.link ≠ .up) (hpstate : s.pwr.pstate = .chalk) (hwaits : toDeliver s = true) :
    (decide (s.bar.link = .up) || decide (s.pwr.pstate ≠ .chalk) || !toDeliver s) = false := by
  simp [hlink, hpstate, hwaits]

/-- Settles O16. -/
theorem barrierTimersAndLink : Obligations.BarrierTimersAndLink := by
  unfold Obligations.BarrierTimersAndLink
  refine ⟨?_, ?_, ?_, ?_, ?_, ?_, ?_, ?_, ?_, ?_, ?_, ?_, ?_, ?_, ?_, ?_, ?_, ?_, ?_, ?_⟩
  · rintro t e s hlink rfl rfl
    refine congrArg (done s) ?_
    simp only [doHeartbeatPeriod, endOf, setEnd, ticksPerMs, hlink]
    rfl
  · rintro t s hlink hpstate rfl
    refine congrArg (done s) ?_
    simp only [doHeartbeatPeriod, endOf, setEnd, ticksPerMs, vstatePayload, hlink, hpstate]
    rfl
  · rintro s hslept hsilent
    refine congrArg (done s) ?_
    simp [doHeartbeatLoss, endOf, ticksPerMs, hslept, hsilent]
  · rintro t s hslept hsilent hpstate rfl
    refine congrArg (done s) ?_
    simp [doHeartbeatLoss, endOf, ticksPerMs, hslept, hsilent, hpstate]
  · rintro t s hlink hsilent hstewardStall rfl
    refine congrArg (done s) ?_
    simp only [doAliveStall, ticksPerMs, hlink, hsilent, hstewardStall]
    rfl
  · rintro host s hlink hsynced
    refine congrArg (done s) ?_
    simp only [doEpochPairTimer, hlink, hsynced]
    rfl
  · rintro s hlink hclock hretrain
    refine congrArg (done s) ?_
    simp [doLanesAligned, hlink, hclock, hretrain]
  · rintro s hlink hclock hretrain
    refine congrArg (done s) ?_
    simp only [doLanesAligned, upFromDown, hlink, hclock, hretrain]
    rfl
  · rintro s hlink
    rfl
  · rintro s hlink
    rfl
  · rintro t s hlink hretrain rfl
    refine congrArg (done s) ?_
    simp [doLinkTrainTimeout, hlink, hretrain]
  · rintro s hlink hlinkPowered
    refine (congrArg (done s) (?_ : _ = _)).trans (done_eq rfl rfl rfl rfl)
    simp only [doLinkTrainStart, startTraining, hlink, hlinkPowered]
    rfl
  · rintro t s hpowered hslept hlink rfl
    have hretry : doLinkRetryTimer s = startTraining (elapseToClock s (s.bar.trainSince + 38400)) := by
      simp only [doLinkRetryTimer, hpowered, hslept, elapseToClock_bar, hlink, Bool.not_true, Bool.or_self, Bool.false_eq_true, if_false]
      rfl
    exact done_next_of hretry (by simp) (by simp) (by simp) (by simp)
  · rintro s
    rfl
  · rintro s hisSome
    exact congrArg (done s) (if_pos hisSome)
  · rintro s hlink hpstate hwaits hfrom
    refine done_next_of ?_ rfl rfl rfl rfl
    simp only [doHWakePulse, pulses_of_waits hlink hpstate hwaits, hfrom, Bool.false_eq_true, if_false]
  · rintro n t s hlink hpstate hwaits hfrom hleft rfl
    refine done_next_of ?_ (by simp) (by simp) (by simp) (by simp)
    simp only [doHWakePulse, pulses_of_waits hlink hpstate hwaits, hfrom, if_neg (Nat.not_le.2 hleft), Bool.false_eq_true, if_false]
    rfl
  · rintro s hactive
    exact congrArg (done s) (if_pos hactive)
  · rintro f fs t s hheld rfl
    refine done_next_of ?_ (by simp) (by simp) (by simp) (by simp)
    simp only [doEntryVerdictDiscard, hheld]
    rfl
  · rintro t s hnone rfl
    exact congrArg (done s) (if_neg (ne_true_of_eq_false hnone))

end Sys2Proof.Machine
end

section
/-! SUPPORT. Argent's SPI target, bridge window and mailbox (R359 to R365). -/

namespace Sys2Proof.Machine

open Sys2Proof

/-- A row of a host die that runs has its effect. -/
theorem done_hostRuns {s u : State} {f : State → State} (hheld : s.clk.hostHeld = false) (h : f s = u) :
    done s (hostRuns f s) = .next (keepOtp s u) :=
  congrArg (done s) ((hostRuns_of_not_held hheld f).trans h)

theorem breadLink_of_up {s : State} (hlink : s.bar.link = .up) (hsilent : s.bar.hostEnd.silent = false) :
    (decide (s.bar.link ≠ .up) || s.bar.hostEnd.silent) = false := by
  simp [hlink, hsilent]

theorem bwriteAccepted_of_legal {s : State} {a : Nat} {data : Bytes} (haddr : a = 0x010020 ∨ a = 0x06000C)
    (hlen : 4 ≤ data.length) (hfree : s.host.bwrite = none) :
    ¬ ((a ≠ 0x010020 ∧ a ≠ 0x06000C) ∨ data.length < 4 ∨ s.host.bwrite.isSome = true) := by
  rw [hfree]
  simp only [Option.isSome_none, Bool.false_eq_true, or_false]
  omega

/-- Settles O17. -/
theorem hostSpiAndMailbox : Obligations.HostSpiAndMailbox := by
  unfold Obligations.HostSpiAndMailbox
  refine ⟨?_, ?_, ?_, ?_, ?_, ?_, ?_, ?_, ?_, ?_, ?_, ?_, ?_, ?_, ?_, ?_, ?_, ?_, ?_⟩
  · rintro addr n l s hheld rfl
    exact done_hostRuns hheld rfl
  · rintro addr data s hheld
    exact done_hostRuns hheld rfl
  · rintro addr count clocked s hheld hbad
    refine done_next_of ((hostRuns_of_not_held hheld _).trans ?_) rfl rfl rfl rfl
    simp only [doBread, hbad, if_true, List.length_nil, Nat.sub_zero, List.nil_append]
    rfl
  · rintro addr count clocked tag t s hheld hbad hlink hsilent hfind htag hcredit rfl
    refine done_hostRuns hheld ?_
    simp only [doBread, hbad, breadLink_of_up hlink hsilent, hfind, htag, if_neg hcredit, Bool.false_eq_true, if_false]
    rfl
  · rintro addr count clocked s hheld hbad hlink
    refine done_next_of ((hostRuns_of_not_held hheld _).trans ?_) rfl rfl rfl rfl
    have hdown : (decide (s.bar.link ≠ .up) || s.bar.hostEnd.silent) = true := by simp [hlink]
    simp only [doBread, hbad, hdown, Bool.false_eq_true, if_false, if_true]
    rfl
  · rintro addr count clocked r s hheld hbad hlink hsilent hfind hdone
    refine done_next_of ((hostRuns_of_not_held hheld _).trans ?_) rfl rfl rfl rfl
    simp only [doBread, hbad, breadLink_of_up hlink hsilent, hfind, hdone, Bool.false_eq_true, if_false]
    rfl
  · rintro addr count clocked r x d t n s hheld hbad hlink hsilent hfind hdone hx rfl rfl
    have hok : x = statusCode .ok := BitVec.eq_of_toNat_eq hx
    refine done_hostRuns hheld ?_
    simp only [doBread, hbad, breadLink_of_up hlink hsilent, hfind, hdone, if_pos hok, Bool.false_eq_true, if_false]
  · rintro r t s hheld hfind rfl
    refine done_hostRuns hheld ?_
    simp only [doBreadCompletionDiscard, hfind]
    rfl
  · rintro addr data t s hheld haddr hlen hfree hlink rfl
    refine done_hostRuns hheld ((if_neg ?_).trans (if_neg hlink))
    exact bwriteAccepted_of_legal haddr hlen hfree
  · rintro addr data t s hheld haddr hlen hfree hlink hcredit rfl
    refine done_hostRuns hheld ((if_neg ?_).trans ((if_pos hlink).trans ?_))
    · exact bwriteAccepted_of_legal haddr hlen hfree
    · simp only [bwriteGo, if_pos hcredit]
  · rintro addr data t s hheld haddr hlen hfree hlink hcredit rfl
    refine done_hostRuns hheld ((if_neg ?_).trans ((if_pos hlink).trans ?_))
    · exact bwriteAccepted_of_legal haddr hlen hfree
    · simp only [bwriteGo, if_neg (Nat.not_lt.2 hcredit)]
  · rintro addr data s hheld hbad
    refine done_hostRuns hheld (if_pos ?_)
    exact hbad.imp_right .inl
  · rintro s hheld
    exact done_hostRuns hheld rfl
  · rintro v t s hheld hlen hmax hfree hstage hlink rfl
    refine done_hostRuns hheld (if_neg ?_)
    simp [hlen, Nat.not_lt.2 hmax, hfree, hstage, hlink]
  · rintro v s hheld hbad
    refine done_hostRuns hheld (if_pos ?_)
    exact hbad.imp_right (Or.imp_right .inl)
  · rintro r rs s hheld hvisible
    refine done_hostRuns hheld ?_
    simp only [doRxqPop, hvisible]
  · rintro s hheld hlink
    exact done_next_of ((hostRuns_of_not_held hheld _).trans (if_neg hlink)) rfl rfl rfl rfl
  · rintro n l s hheld rfl
    refine done_hostRuns hheld ?_
    have hn : (BitVec.ofNat 13 (Nat.min 4 n.toNat)).toNat = Nat.min 4 n.toNat := by
      rw [BitVec.toNat_ofNat, Nat.mod_eq_of_lt (Nat.lt_of_le_of_lt (Nat.min_le_left 4 n.toNat) (by decide))]
    simp only [doCanErrlatRead, doSpiRead, hn]
    rfl
  · rintro n s hheld
    exact done_hostRuns hheld rfl

end Sys2Proof.Machine
end

section
/-! SUPPORT. Vehicle state, the permit output and the door inputs (R368 to R376). -/

namespace Sys2Proof.Machine

open Sys2Proof

/-- A row of a host die that runs and that touches none of the fused fields has its effect. -/
theorem done_next_hostRuns {s u : State} {f : State → State} (hheld : s.clk.hostHeld = false) (h : f s = u)
    (hp : u.pending = s.pending) (hk : u.keys = s.keys) (hb : u.boot = s.boot) (hh : u.host.revision = s.host.revision) :
    done s (hostRuns f s) = .next u :=
  done_next_of ((hostRuns_of_not_held hheld f).trans h) hp hk hb hh

theorem doVsReport_of_spi {s : State} (h : s.host.vs.srcCan = false) (v : W32) :
    doVsReport v s = report s (crc8J1850 [s.host.vs.dataId, byte (bitsOf v 7 0), byte (bitsOf v 15 8)] == bitsOf v 23 16)
      (BitVec.ofNat 4 (bitsOf v 11 8)) (bitsOf v 2 0) :=
  if_neg (ne_true_of_eq_false h)

theorem report_of_good {s : State} {crcOk : Bool} {cnt : BitVec 4} (hcrc : crcOk = true) (hcnt : cntOk s.host.vs.lastCnt cnt = true)
    (bits : Nat) : report s crcOk cnt bits = reportAccepted s cnt bits :=
  if_pos (by rw [hcrc, hcnt, Bool.and_self])

theorem report_of_bad {s : State} {crcOk : Bool} {cnt : BitVec 4} (h : crcOk = false ∨ cntOk s.host.vs.lastCnt cnt = false)
    (bits : Nat) : report s crcOk cnt bits = reportRejected s :=
  if_neg (by rcases h with h | h <;> simp [h])

theorem readbackAt_of_agree {s : State} {t : Nat} {level : Bool} (hfault : s.host.pmt.readbackFault = false)
    (h : level = (permitPins s.host.pmt t).1) :
    readbackAt t level s =
      { s with host := { s.host with pmt := { s.host.pmt with fb := level, fbNext := t + 19200, wrong := 0 } } } := by
  have hok : (level == (permitPins s.host.pmt t).1) = true := beq_iff_eq.2 h
  simp only [readbackAt, hfault, hok, Bool.not_true, Bool.false_and, Bool.false_eq_true, if_false, if_true]

theorem readbackAt_of_first_wrong {s : State} {t : Nat} {level : Bool} (hfault : s.host.pmt.readbackFault = false)
    (h : level ≠ (permitPins s.host.pmt t).1) (hwrong : s.host.pmt.wrong = 0) :
    readbackAt t level s =
      { s with host := { s.host with pmt := { s.host.pmt with fb := level, fbNext := t + 19200, wrong := 1 } } } := by
  have hbad : (level == (permitPins s.host.pmt t).1) = false := beq_eq_false_iff_ne.2 h
  simp only [readbackAt, hfault, hbad, hwrong, Bool.false_eq_true, if_false]
  rfl

theorem readbackAt_of_wrong_again {s : State} {t : Nat} {level : Bool} (hfault : s.host.pmt.readbackFault = false)
    (h : level ≠ (permitPins s.host.pmt t).1) (hwrong : 1 ≤ s.host.pmt.wrong) :
    readbackAt t level s = latchReadback { s with host := { s.host with pmt := { s.host.pmt with
      fb := level, fbNext := t + 19200, wrong := s.host.pmt.wrong + 1 } } } := by
  have hbad : (level == (permitPins s.host.pmt t).1) = false := beq_eq_false_iff_ne.2 h
  simp only [readbackAt, hfault, hbad, decide_eq_true hwrong, Bool.not_false, Bool.and_self, Bool.false_eq_true, if_false, if_true]

/-- Settles O18. -/
theorem hostVehicleStateAndPermit : Obligations.HostVehicleStateAndPermit := by
  unfold Obligations.HostVehicleStateAndPermit
  refine ⟨?_, ?_, ?_, ?_, ?_, ?_, ?_, ?_, ?_, ?_, ?_, ?_, ?_, ?_, ?_, ?_⟩
  · rintro v s hheld hspi hcrc hcnt
    exact done_hostRuns hheld ((doVsReport_of_spi hspi v).trans (report_of_good (beq_iff_eq.2 hcrc) hcnt _))
  · rintro v s hheld hspi hbad
    exact done_hostRuns hheld ((doVsReport_of_spi hspi v).trans (report_of_bad (hbad.imp_left beq_eq_false_iff_ne.2) _))
  · rintro v s hheld hcan
    exact done_next_hostRuns hheld (if_pos hcan) rfl rfl rfl rfl
  · rintro v s hheld hlink
    exact done_hostRuns hheld (if_neg hlink)
  · rintro v t s hheld hlock hsource rfl
    exact done_hostRuns hheld ((if_neg (ne_true_of_eq_false hlock)).trans (if_pos hsource))
  · rintro v s hheld hlock
    exact done_next_hostRuns hheld (if_pos hlock) rfl rfl rfl rfl
  · rintro s hheld
    exact done_next_hostRuns hheld rfl rfl rfl rfl rfl
  · rintro t s hheld hvalid hspi rfl
    refine done_hostRuns hheld ?_
    simp [doVsTimeout, vsTicks, hvalid, hspi, ticksPerMs]
  · rintro level n t s hheld rfl rfl hfault hlevel
    exact done_hostRuns hheld (readbackAt_of_agree hfault hlevel)
  · rintro level n t s hheld rfl rfl hfault hlevel hwrong
    exact done_hostRuns hheld (readbackAt_of_first_wrong hfault hlevel hwrong)
  · rintro level n t u s hheld rfl rfl hfault hlevel hwrong rfl
    exact done_hostRuns hheld (readbackAt_of_wrong_again hfault hlevel hwrong)
  · rintro a s hheld hfault rfl
    exact done_hostRuns hheld (if_neg (ne_true_of_eq_false hfault))
  · rintro s hheld hfault hcorrect
    refine done_next_hostRuns hheld (if_pos ?_) rfl rfl rfl rfl
    rw [hfault, decide_eq_true hcorrect, Bool.and_self]
  · rintro s hheld hcorrect
    refine done_next_hostRuns hheld (if_neg ?_) rfl rfl rfl rfl
    simp [Nat.not_le.2 hcorrect]
  · rintro d high t m s hheld hen hopen hdebounced rfl rfl
    refine done_hostRuns hheld ?_
    have hisOpen : (high != bitAt s.host.doors.pol.toNat d.val) = true := bne_iff_ne.2 hopen
    simp only [doDoorDebouncedChange, hen, hisOpen, hdebounced, Bool.not_true, if_true]
    rfl
  · rintro d high t m s hheld hen rfl hdebounced rfl rfl
    refine done_hostRuns hheld ?_
    simp only [doDoorDebouncedChange, hen, bne_self_eq_false, hdebounced, Bool.not_true, Bool.false_eq_true, if_false]
    rfl

end Sys2Proof.Machine
end

section
/-! SUPPORT. The legacy window's serial-memory commands (R319 to R323, R366). -/

namespace Sys2Proof.Machine

open Sys2Proof

theorem lwSelect_of_chalk {s : State} (h : s.pwr.pstate = .chalk) : lwSelect s = s := if_pos h

theorem lwSelect_of_not_chalk {s : State} (h : s.pwr.pstate ≠ .chalk) :
    lwSelect s = { s with host := { s.host with wakeReq := true } } := if_neg h

theorem not_lwServes_of_not_chalk {s : State} (h : s.pwr.pstate ≠ .chalk) : lwServes s = false := by
  simp only [lwServes, decide_eq_false h, Bool.false_and]

theorem not_lwActs_of_not_chalk {s : State} (h : s.pwr.pstate ≠ .chalk) : lwActs s = false := by
  simp only [lwActs, not_lwServes_of_not_chalk h, Bool.false_and]

/-- Settles O19. -/
theorem legacyWindowCommands : Obligations.LegacyWindowCommands := by
  unfold Obligations.LegacyWindowCommands
  refine ⟨?_, ?_, ?_, ?_, ?_, ?_, ?_, ?_, ?_, ?_, ?_, ?_, ?_, ?_, ?_, ?_⟩
  · rintro s hheld hacts hlock
    refine done_next_hostRuns hheld (if_pos ?_) rfl rfl rfl rfl
    rw [hacts, hlock]; rfl
  · rintro s hheld hacts
    exact done_next_hostRuns hheld (if_pos hacts) rfl rfl rfl rfl
  · rintro s hheld hchalk hlock
    refine done_next_hostRuns hheld ((if_neg ?_).trans (lwSelect_of_chalk hchalk)) rfl rfl rfl rfl
    simp only [hlock, Bool.not_true, Bool.and_false, Bool.false_eq_true, not_false_eq_true]
  · rintro s hheld hserves
    exact done_next_hostRuns hheld (if_pos hserves) rfl rfl rfl rfl
  · rintro v s hheld hacts hwel
    exact done_next_hostRuns hheld ((if_pos hacts).trans (if_pos hwel)) rfl rfl rfl rfl
  · rintro addr n s hheld hacts
    exact done_next_hostRuns hheld (if_pos hacts) rfl rfl rfl rfl
  · rintro addr data s hheld hacts hwel hdata hopen
    refine done_next_hostRuns hheld ?_ rfl rfl rfl rfl
    simp only [doLegacyWrite, hacts, hwel, hdata, hopen, Bool.not_true, Bool.or_self, Bool.false_eq_true, if_false]
  · rintro s hheld hasleep
    refine done_next_hostRuns hheld ((if_neg ?_).trans (lwSelect_of_not_chalk hasleep)) rfl rfl rfl rfl
    simp only [not_lwActs_of_not_chalk hasleep, Bool.false_and, Bool.false_eq_true, not_false_eq_true]
  · rintro s hheld hasleep
    refine done_next_hostRuns hheld ((if_neg ?_).trans (lwSelect_of_not_chalk hasleep)) rfl rfl rfl rfl
    exact ne_true_of_eq_false (not_lwActs_of_not_chalk hasleep)
  · rintro v s hheld hasleep
    refine done_next_hostRuns hheld ((if_neg ?_).trans (lwSelect_of_not_chalk hasleep)) rfl rfl rfl rfl
    exact ne_true_of_eq_false (not_lwActs_of_not_chalk hasleep)
  · rintro addr data s hheld hasleep
    refine done_next_hostRuns hheld ((if_pos ?_).trans (lwSelect_of_not_chalk hasleep)) rfl rfl rfl rfl
    rw [not_lwActs_of_not_chalk hasleep]; rfl
  · rintro s hheld hasleep
    refine done_next_hostRuns hheld ((if_neg ?_).trans (if_neg hasleep)) rfl rfl rfl rfl
    exact ne_true_of_eq_false (not_lwServes_of_not_chalk hasleep)
  · rintro addr n s hheld hasleep
    refine done_next_hostRuns hheld ((if_neg ?_).trans (if_neg hasleep)) rfl rfl rfl rfl
    exact ne_true_of_eq_false (not_lwActs_of_not_chalk hasleep)
  · rintro addr data s hheld hacts hwel hprotected
    refine done_next_hostRuns hheld ?_ rfl rfl rfl rfl
    simp only [doLegacyWrite, hacts, hwel, hprotected, Bool.not_true, Bool.or_true, Bool.false_eq_true, if_false, if_true]
  · rintro v s hheld hacts hwel
    exact done_next_hostRuns hheld ((if_pos hacts).trans (if_neg (ne_true_of_eq_false hwel))) rfl rfl rfl rfl
  · rintro addr data s hheld hacts hwel
    refine done_next_hostRuns hheld ?_ rfl rfl rfl rfl
    simp only [doLegacyWrite, hacts, hwel, Bool.not_true, Bool.not_false, Bool.false_eq_true, if_false, if_true]

end Sys2Proof.Machine
end

section
/-! SUPPORT. Argent's CAN port and J1939 exports (R376 to R379). -/

namespace Sys2Proof.Machine

open Sys2Proof

/-- A port that is on and serves a protocol takes its frames. -/
theorem canServes_of_on {a b : Bool} (ha : a = true) (hb : b = true) : ¬ (!a || !b) = true := by
  rw [ha, hb]; exact Bool.false_ne_true

/-- A J1939 request (PGN byte 0x4C, mode 0 or 1) that the port takes (R379). -/
theorem j1939Taken {c : CanCtl} {d : Bytes} (hon : canOn c = true) (hj : canJ1939 c = true) (hfn : byteAt d 0 = 0x4C)
    (hmode : byteAt d 6 ≤ 1) : ¬ (!canOn c || !canJ1939 c || byteAt d 0 != 0x4C || decide (1 < byteAt d 6)) = true := by
  simp [hon, hj, hfn, hmode]

/-- Settles O20. -/
theorem canAndJ1939 : Obligations.CanAndJ1939 := by
  unfold Obligations.CanAndJ1939
  refine ⟨?_, ?_, ?_, ?_, ?_, ?_, ?_, ?_, ?_, ?_, ?_, ?_, ?_, ?_⟩
  · rintro data s hheld hon heng hspi hcrc
    refine done_hostRuns hheld ?_
    simp only [doEngineStatus, if_neg (canServes_of_on hon heng), hspi, hcrc, Bool.not_false, Bool.true_or, Bool.and_self,
      Bool.false_eq_true, if_false, if_true]
  · rintro data d t s hheld hon heng rfl hcan hcrc hcnt rfl
    refine done_hostRuns hheld ?_
    simp only [doEngineStatus, if_neg (canServes_of_on hon heng), hcan, hcrc, hcnt, report_of_good rfl hcnt, Bool.not_true, Bool.or_true,
      Bool.and_self, if_true]
  · rintro data d s hheld hon heng rfl hcan hcrc
    refine done_hostRuns hheld ?_
    simp only [doEngineStatus, if_neg (canServes_of_on hon heng), hcan, hcrc, report_of_bad (.inl rfl), Bool.false_and,
      Bool.false_eq_true, if_false, if_true]
  · rintro s hheld hsends heng hchanged
    exact done_hostRuns hheld ((if_neg (canServes_of_on hsends heng)).trans ((if_pos rfl).trans (if_pos hchanged)))
  · rintro s hheld hsends heng
    refine done_hostRuns hheld ((if_neg (canServes_of_on hsends heng)).trans ?_)
    simp only [ticksPerMs, Bool.false_eq_true, if_false]
  · rintro data d s hheld rfl hon hj hfn hmode hfree hzero hmax hlink
    refine done_hostRuns hheld ((if_neg (j1939Taken hon hj hfn hmode)).trans ?_)
    have hcount : ¬ (byteAt data.toList 5 = 0 ∨ 27 < byteAt data.toList 5) := by omega
    simp only [hfree, if_neg hcount, if_neg (not_not_intro hlink), Option.isSome_none, Bool.false_eq_true, if_false]
  · rintro data d s hheld rfl hon hj hfn hmode hbusy
    exact done_hostRuns hheld ((if_neg (j1939Taken hon hj hfn hmode)).trans (if_pos hbusy))
  · rintro data d s hheld rfl hon hj hfn hmode hfree hcount
    refine done_hostRuns hheld ((if_neg (j1939Taken hon hj hfn hmode)).trans ((if_neg ?_).trans (if_pos hcount)))
    rw [hfree]; exact Bool.false_ne_true
  · rintro x s hheld hxfer hrecord
    refine done_hostRuns hheld ?_
    simp only [doJ1939CanxTimeout, hxfer, hrecord, ticksPerMs, Option.isSome_none, Bool.false_eq_true, if_false]
  · rintro x r s hheld hxfer hrecord hbam hsends
    refine done_hostRuns hheld ?_
    simp only [doBamPacket, hxfer, hrecord, hbam, hsends, ticksPerMs, Bool.not_true, Bool.or_self, Bool.false_eq_true, if_false]
  · rintro x r n b s hheld hxfer hrecord hcm hsends hn hb hnext
    refine done_hostRuns hheld ?_
    have hlegal : ¬ (b = 0 ∨ ceilDiv r.length 7 < b.toNat) := not_or.2 ⟨hb, Nat.not_lt.2 hnext⟩
    simp only [doJ1939Cts, hxfer, hrecord, hcm, hsends, if_neg hn, if_neg hlegal]
    rfl
  · rintro x s hheld hxfer hcm hrecord
    refine done_hostRuns hheld ?_
    simp only [doJ1939TpTimeout, hxfer, hcm, hrecord, Bool.and_self, if_true]
  · rintro tec rcnt s hheld hstarted
    refine done_hostRuns hheld ?_
    simp only [doCanBusOff, hstarted, Bool.not_true, Bool.false_eq_true, if_false, if_true]
  · rintro tec rcnt s hheld hstarted hoff
    refine done_next_hostRuns hheld ?_ rfl rfl rfl rfl
    simp only [doCanBusOff, hstarted, if_pos hoff, Bool.not_true, Bool.false_eq_true, if_false]

end Sys2Proof.Machine
end

section
/-! SUPPORT. Register writes (R61, R92, R130, R262, R409): the word at an offset of a register table. -/

namespace Sys2Proof.Machine

open Sys2Proof

/-- An offset that is a multiple of 4 is the word it lies in. -/
theorem regWord_of_aligned {a : Nat} (h : a % 4 = 0) (hlt : a < 65536) : (BitVec.ofNat 16 a).toNat / 4 * 4 = a := by
  rw [BitVec.toNat_ofNat, Nat.mod_eq_of_lt hlt]
  omega

theorem vmodN_val {α : Type} {n : Nat} (v : Vector α n) (i : Fin n) (f : α → α) : vmodN v i.val f = vmod v i f := by
  simp only [vmodN, i.isLt, dif_pos]

theorem celWrite_of_entry (n : Fin 128) (x : Fin 5) (v : W32) (s : State) :
    celWrite (0x400 + 20 * n.val + 4 * x.val) v s =
      if entryActive (entryOf s n) then { s with cel := { s.cel with entryWe := true } }
      else modEntry s n fun e => entryWord e x.val v := by
  have hn := n.isLt
  have hx := x.isLt
  have hrange : 0x400 ≤ 0x400 + 20 * n.val + 4 * x.val ∧ 0x400 + 20 * n.val + 4 * x.val < 0xE00 := by omega
  have hentry : (⟨(0x400 + 20 * n.val + 4 * x.val - 0x400) / 20, by omega⟩ : Fin 128) = n := Fin.ext (by simp only; omega)
  have hword : (0x400 + 20 * n.val + 4 * x.val - 0x400) % 20 / 4 = x.val := by omega
  have hcfg : 0x400 + 20 * n.val + 4 * x.val ≠ 0x008 := by omega
  have hcmd : 0x400 + 20 * n.val + 4 * x.val ≠ 0x00C := by omega
  simp only [celWrite, if_neg hcfg, if_neg hcmd, dif_pos hrange, hentry, hword]

theorem celWrite_of_move (m : Fin 32) (v : W32) (s : State) :
    celWrite (0xE00 + 8 * m.val) v s = { s with cel := { s.cel with moves := vmod s.cel.moves m fun d =>
      { d with src := fld v 7 0 8, dst := fld v 15 8 8, len := fld v 31 16 16 } } } := by
  have hm := m.isLt
  have hentries : ¬ (0x400 ≤ 0xE00 + 8 * m.val ∧ 0xE00 + 8 * m.val < 0xE00) := by omega
  have hmoves : 0xE00 ≤ 0xE00 + 8 * m.val ∧ 0xE00 + 8 * m.val < 0xF00 := by omega
  have hmove : (0xE00 + 8 * m.val - 0xE00) / 8 = m.val := by omega
  have hfirst : (0xE00 + 8 * m.val) % 8 = 0 := by omega
  have hcfg : 0xE00 + 8 * m.val ≠ 0x008 := by omega
  have hcmd : 0xE00 + 8 * m.val ≠ 0x00C := by omega
  simp only [celWrite, if_neg hcfg, if_neg hcmd, dif_neg hentries, if_pos hmoves, hmove, if_pos hfirst, vmodN_val]

theorem sableWrite_of_touch (n : Fin 4) (v : W32) (s : State) :
    sableWrite (0x020 + 4 * n.val) v s = { s with pwr := { s.pwr with touch := vmod s.pwr.touch n fun c =>
      { c with en := bitAt v.toNat 0, thr := fld v 6 1 6, confirm := bitAt v.toNat 7 } } } := by
  have hn := n.isLt
  have htouch : 0x020 ≤ 0x020 + 4 * n.val ∧ 0x020 + 4 * n.val < 0x030 := by omega
  have hchannel : (0x020 + 4 * n.val - 0x020) / 4 = n.val := by omega
  have hrest : 0x020 + 4 * n.val ≠ 0x004 := by omega
  simp only [sableWrite, if_neg hrest, if_pos htouch, hchannel, vmodN_val]

/-- Settles O21. -/
theorem registerWrites : Obligations.RegisterWrites := by
  unfold Obligations.RegisterWrites
  refine ⟨?_, ?_, ?_, ?_, ?_, ?_, ?_, ?_, ?_, ?_⟩
  · rintro n x v s hidle
    refine done_next_of ?_ rfl rfl rfl rfl
    simp only [doRegisterWrite, regWord_of_aligned (a := 0x400 + 20 * n.val + 4 * x.val) (by omega) (by omega), celWrite_of_entry, hidle,
      Bool.false_eq_true, if_false]
  · rintro n x v s hactive
    refine done_next_of ?_ rfl rfl rfl rfl
    simp only [doRegisterWrite, regWord_of_aligned (a := 0x400 + 20 * n.val + 4 * x.val) (by omega) (by omega), celWrite_of_entry, hactive,
      if_true]
  · rintro m v s
    refine done_next_of ?_ rfl rfl rfl rfl
    simp only [doRegisterWrite, regWord_of_aligned (a := 0xE00 + 8 * m.val) (by omega) (by omega), celWrite_of_move]
  · rintro v s
    exact congrArg (done s) rfl
  · rintro v s hlo hhi
    exact done_next_of (if_pos (And.intro hlo hhi)) rfl rfl rfl rfl
  · rintro v s
    exact done_next_of rfl rfl rfl rfl rfl
  · rintro v s
    exact done_next_of rfl rfl rfl rfl rfl
  · rintro o v s
    refine done_next_of ?_ rfl rfl rfl rfl
    have ho := o.isLt
    have hsub : 0x2000 + 4 * o.val ≠ 0x02C := by omega
    have hat : 0x2000 + 4 * o.val - 0x2000 = 4 * o.val := by omega
    simp only [doRegisterWrite, regWord_of_aligned (a := 0x2000 + 4 * o.val) (by omega) (by omega), if_neg hsub,
      gqWrite_of_inBuf (off := 0x2000 + 4 * o.val) (by omega) (by omega), hat]
  · rintro v s
    exact congrArg (done s) rfl
  · rintro n v s
    refine done_next_of ?_ rfl rfl rfl rfl
    simp only [doRegisterWrite, regWord_of_aligned (a := 0x020 + 4 * n.val) (by omega) (by omega), sableWrite_of_touch]

end Sys2Proof.Machine
end

section
/-! SUPPORT. The command set's system group (section 14). -/

namespace Sys2Proof.Machine

open Sys2Proof

theorem lenIs_of_length {n : Nat} {b : Bytes} (h : b.length = n) : lenIs n b = true := beq_iff_eq.2 h

theorem four_le_of_nextServed {s : State} {n : Nat} {c : CmdRec} {rest : List CmdRec} (h : nextServed s n c rest) :
    4 ≤ c.bytes.length := by
  obtain ⟨-, -, -, hlen, -⟩ := h
  exact hlen

theorem lenWithin_of_le {b : Bytes} {lo hi : Nat} (hlo : lo ≤ b.length) (hhi : b.length ≤ hi) :
    (decide (lo ≤ b.length) && decide (b.length ≤ hi)) = true := by
  rw [decide_eq_true hlo, decide_eq_true hhi, Bool.and_self]

/-- The fields of SYS_TIME_SET in range. -/
theorem timeFields_good {b : Bytes} {mode : Nat} (hms : leAt b 8 2 ≤ 1023) (hmode : byteAt b 10 = mode) (hle : mode ≤ 1)
    (hzero : byteAt b 11 = 0) : (decide (1023 < leAt b 8 2) || decide (1 < byteAt b 10) || byteAt b 11 != 0) = false := by
  simp [hms, hmode, hle, hzero]

/-- What a command that has run leaves: its answer, the long command under way, or neither yet (R383 to R385). -/
def ended (res : Resource) (c : CmdRec) : Served → State
  | .now st result u => replied u c st result
  | .long a u => underway u c res a
  | .later u => afterAnswer (passEnd u)

theorem ended_now (res : Resource) (c : CmdRec) (st : Status) (result : Bytes) (u : State) :
    ended res c (.now st result u) = replied u c st result := rfl

theorem ended_long (res : Resource) (c : CmdRec) (a : LongAns) (u : State) : ended res c (.long a u) = underway u c res a := rfl

theorem ended_ite {p : Prop} [Decidable p] (res : Resource) (c : CmdRec) (x y : Served) :
    ended res c (if p then x else y) = if p then ended res c x else ended res c y := by
  split <;> rfl

theorem serveIf_ended {r : CmdRow} {mine : Bytes → Bool} {s : State} {c : CmdRec} {rest : List CmdRec} (h : Admitted r s c rest)
    (hmine : mine c.bytes = true) : serveIf r mine s = ended r.res c (r.run c (taken s rest)) := by
  cases hrun : r.run c (taken s rest) with
  | now st result u => exact serveIf_now h hmine hrun
  | long a u => exact serveIf_long h hmine hrun
  | later u => exact serveIf_later h hmine hrun

theorem serve_ended {r : CmdRow} {s : State} {c : CmdRec} {rest : List CmdRec} (h : Admitted r s c rest) :
    serve r s = ended r.res c (r.run c (taken s rest)) :=
  serveIf_ended h rfl

/-- Settles O22. -/
theorem systemCommands : Obligations.SystemCommands := by
  unfold Obligations.SystemCommands
  refine ⟨?_, ?_, ?_, ?_, ?_, ?_, ?_, ?_, ?_, ?_⟩
  · rintro c rest t s hc rfl hlen hrunning
    refine congrArg (done s) (serve_now ⟨hc, rfl, lenIs_of_length hlen, rfl, rfl⟩ ?_)
    simp only [fwVer, if_neg hrunning]
  · rintro c rest t s hc rfl hlen
    refine congrArg (done s) (serve_now ⟨hc, rfl, lenWithin_of_le (four_le_of_nextServed hc) (by omega), rfl, rfl⟩ (if_pos ?_))
    rw [List.length_drop]; omega
  · rintro c rest x u t s hc rfl hlong hlen rfl rfl
    refine congrArg (done s) (serve_now ⟨hc, rfl, lenWithin_of_le (four_le_of_nextServed hc) hlen, rfl, rfl⟩ ((if_neg ?_).trans ?_))
    · rw [List.length_drop]; omega
    · simp only [List.length_drop]
      rfl
  · rintro c rest t s hc rfl hlen
    exact congrArg (done s) (serve_now ⟨hc, rfl, lenIs_of_length hlen, rfl, rfl⟩ rfl)
  · rintro c rest t s hc rfl hlen hms hmode hzero
    refine congrArg (done s) (serve_now ⟨hc, rfl, ?_, timeFields_good hms hmode (Nat.zero_le 1) hzero, rfl⟩ ?_)
    · simp only [hmode, lenIs_of_length hlen]; rfl
    · simp only [hmode]; rfl
  · rintro c rest x issued u t s hc rfl hlen hms hmode hzero hchal hvalid htime rfl
    refine congrArg (done s) ((serve_ended ⟨hc, rfl, ?_, timeFields_good hms hmode (Nat.le_refl 1) hzero, rfl⟩).trans ?_)
    · simp only [hmode, lenIs_of_length hlen]; rfl
    · simp only [hmode, hchal, hvalid, decide_eq_true htime, decide_true, Bool.true_and, Nat.reduceBEq, Bool.false_eq_true, if_false]
      split <;> rfl
  · rintro c rest t s hc rfl hlen hmode hzero
    refine congrArg (done s) (serveIf_now ⟨hc, rfl, lenIs_of_length hlen, ?_, rfl⟩ ?_ rfl)
    · simp [restartBad, hmode, hzero]
    · simp [hmode]
  · rintro c rest t s hc rfl hlen hmode hzero
    refine congrArg (done s) ((serveIf_ended ⟨hc, rfl, lenIs_of_length hlen, ?_, rfl⟩ ?_).trans ?_)
    · simp [restartBad, hmode, hzero]
    · simp [hmode]
    · dsimp only
      split <;> rfl
  · rintro c rest x t s hc rfl hlen hlo hhi hzero rfl hmay happroach hsession hreq hlongs
    refine congrArg (done s) (serve_now ⟨hc, rfl, lenIs_of_length hlen, ?_, rfl⟩ ?_)
    · simp [hhi, hzero]; omega
    · have hallowed : (decide (restOf (byteAt c.bytes 4) = .amber) && !(amberEn (taken s rest) && !(taken s rest).keys.svcLock)) = false := by
        rcases hmay with h | ⟨hen, hlock⟩
        · simp [h]
        · simp [hen, hlock]
      simp only [hallowed, happroach, hsession, hreq, hlongs]
      rfl
  · rintro c rest t s hc rfl hlen heven hmax hzero
    refine congrArg (done s) (serve_now ⟨hc, rfl, lenIs_of_length hlen, ?_, rfl⟩ rfl)
    simp [heven, hmax, hzero]

end Sys2Proof.Machine
end

section
/-! SUPPORT. The command set's presence group (section 14). -/

namespace Sys2Proof.Machine

open Sys2Proof

theorem grantState_of_lc {s : State} (h : lcOf s = .provisioned ∨ lcOf s = .fielded) : grantState s = true := by
  rcases h with h | h <;> simp only [grantState, h] <;> rfl

theorem presDoor_fields_good {b : Bytes} (hdoor : byteAt b 4 ≤ 3) (hopen : byteAt b 5 ≤ 1) (hzero : leAt b 6 2 = 0) :
    (decide (3 < byteAt b 4) || decide (1 < byteAt b 5) || leAt b 6 2 != 0) = false := by
  simp [hdoor, hopen, hzero]

/-- Settles O23. -/
theorem presenceCommands : Obligations.PresenceCommands := by
  unfold Obligations.PresenceCommands
  refine ⟨?_, ?_, ?_, ?_, ?_, ?_⟩
  · rintro c rest t s hc rfl hlen hdeep hdouble hzero
    refine congrArg (done s) (serve_now ⟨hc, rfl, lenIs_of_length hlen, ?_, rfl⟩ rfl)
    simp [hdeep, hdouble, hzero]
  · rintro c rest t s hc rfl hlen hlc hmask hmax hzero
    refine congrArg (done s) ((serve_ended ⟨hc, ?_, lenIs_of_length hlen, ?_, rfl⟩).trans ?_)
    · simp only [grantState_of_lc hlc, Bool.not_true]
    · simp [hmask, hmax, hzero]
    · simp only [ended_ite, ended_now]
  · rintro c rest t s hc rfl hlen hlc
    refine congrArg (done s) ((serve_ended ⟨hc, ?_, lenIs_of_length hlen, rfl, rfl⟩).trans ?_)
    · simp only [grantState_of_lc hlc, Bool.not_true]
    · simp only [Bool.not_eq_true', Bool.or_eq_true, or_assoc]
      cases (taken s rest).pres.start <;> simp only [ended_ite, ended_now]
  · rintro c rest t s hc rfl hlen hdoor hopen hzero hknown
    refine congrArg (done s) (serve_now ⟨hc, rfl, lenIs_of_length hlen, presDoor_fields_good hdoor hopen hzero, rfl⟩ (if_pos ?_))
    rw [hknown, beq_self_eq_true]
  · rintro c rest u t s hc rfl hlen hdoor hopen hzero hknown hroom rfl
    refine congrArg (done s) (serve_now ⟨hc, rfl, lenIs_of_length hlen, presDoor_fields_good hdoor hopen hzero, rfl⟩ ?_)
    have hnew : (vgetN (taken s rest).cmds.doors (byteAt c.bytes 4) none == some (byteAt c.bytes 5 == 1)) = false :=
      beq_eq_false_iff_ne.2 hknown
    simp only [hnew, hroom, Bool.not_true, Bool.false_eq_true, if_false] <;> rfl
  · rintro c rest t s hc rfl hlen
    exact congrArg (done s) (serve_now ⟨hc, rfl, lenIs_of_length hlen, rfl, rfl⟩ rfl)

end Sys2Proof.Machine
end

section
/-! SUPPORT. The command set's roster group (section 14). -/

namespace Sys2Proof.Machine

open Sys2Proof

/-- The handle of a roster command in direct mode, with its reserved bytes zero. -/
theorem rosterHandle_good {b : Bytes} (hctx : byteAt b 4 ≤ 15) (hzero : allZero (slice b 5 3) = true) :
    (decide (15 < byteAt b 4) || !allZero (slice b 5 3)) = false := by
  simp [hctx, hzero]

/-- Settles O24. -/
theorem rosterCommands : Obligations.RosterCommands := by
  unfold Obligations.RosterCommands
  refine ⟨?_, ?_, ?_, ?_, ?_, ?_⟩
  · rintro c rest t s hc rfl hlen hmode hkey hzero hrw hepoch
    refine congrArg (done s) (serve_now ⟨hc, rfl, lenIs_of_length hlen, ?_, rfl⟩ (if_neg ?_))
    · simp [hmode, hkey, hzero]
    · rw [hrw, hepoch]; exact Bool.false_ne_true
  · rintro c rest x r t s hc rfl hlen hdirect hctx hzero hx hslot helsewhere rfl
    refine congrArg (done s) ((serve_ended ⟨hc, hdirect, lenIs_of_length hlen, rosterHandle_good hctx hzero, rfl⟩).trans ?_)
    simp only [hx, hslot, helsewhere, bne_self_eq_false, Bool.or_self, Bool.false_eq_true, if_false]
    split <;> rfl
  · rintro c rest x r t s hc rfl hlen hdirect hctx hzero hx hvalid hkt hslot rfl
    refine congrArg (done s) ((serve_ended ⟨hc, hdirect, lenIs_of_length hlen, rosterHandle_good hctx hzero, rfl⟩).trans ?_)
    simp only [hx, hvalid, hkt, hslot, bne_self_eq_false, decide_true, Bool.and_self, Bool.not_true, Bool.false_eq_true, if_false]
    split <;> rfl
  · rintro c rest x u t s hc rfl hlen hdirect hctx hzero hx hkt hkhf rfl
    refine congrArg (done s) (serve_now ⟨hc, hdirect, lenIs_of_length hlen, rosterHandle_good hctx hzero, rfl⟩ ?_)
    simp only [hx, hkt, hkhf, Bool.or_self, Bool.false_eq_true, if_false]
  · rintro c rest r t s hc rfl hlen hdepot hverified hfree rfl
    refine congrArg (done s) ((serve_ended ⟨hc, ?_, lenIs_of_length hlen, rfl, resBusy_of_unheld hfree _⟩).trans ?_)
    · simp only [hdepot, hverified, Bool.not_true, Bool.or_self]
    · dsimp only
      split <;> rfl
  · rintro c rest t s hc rfl hlen hcount hmax hzero hrange
    refine congrArg (done s) (serve_now ⟨hc, rfl, lenIs_of_length hlen, ?_, rfl⟩ rfl)
    simp only [hzero, decide_eq_false (Nat.not_lt.2 hmax), decide_eq_false (Nat.not_lt.2 hrange), bne_self_eq_false, Bool.or_false]
    exact beq_eq_false_iff_ne.2 hcount

end Sys2Proof.Machine
end

section
/-! SUPPORT. The command set's keys and attestation group (section 14). -/

namespace Sys2Proof.Machine

open Sys2Proof

theorem slotN_val (n : Fin 224) : slotN n.val = some n := by
  simp only [slotN, n.isLt, dif_pos]

/-- Settles O25. -/
theorem keyAndAttestationCommands : Obligations.KeyAndAttestationCommands := by
  unfold Obligations.KeyAndAttestationCommands
  refine ⟨?_, ?_, ?_, ?_, ?_, ?_⟩
  · rintro c rest r t s hc rfl hlen hlc hslot rfl
    refine congrArg (done s) ((serve_ended ⟨hc, ?_, lenIs_of_length hlen, ?_, rfl⟩).trans ?_)
    · simp only [hlc, bne_self_eq_false]
    · rcases hslot with h | h <;> simp only [h] <;> rfl
    · dsimp only
      split <;> rfl
  · rintro c rest t s hc rfl hlen hlc hrid hkey0 hkey1
    refine congrArg (done s) (serve_now ⟨hc, ?_, lenIs_of_length hlen, rfl, rfl⟩ rfl)
    simp [hlc, hrid, hkey0, hkey1]
  · rintro c rest head t s hc rfl hlen hfree rfl
    refine congrArg (done s) ((serve_ended ⟨hc, rfl, lenIs_of_length hlen, rfl, resBusy_of_unheld hfree _⟩).trans ?_)
    dsimp only
    cases dikRefusal (taken s rest) <;> rfl
  · rintro c rest n t s hc rfl hlen hzero hslot
    refine congrArg (done s) (serve_now ⟨hc, rfl, lenIs_of_length hlen, ?_, rfl⟩ ?_)
    · have hn := n.isLt
      simp only [hzero, hslot, decide_eq_false (show ¬ 223 < n.val by omega), Bool.not_true, Bool.or_self]
    · simp only [hslot, slotN_val]
  · rintro c rest t s hc rfl hmin hmax hfree
    refine congrArg (done s) ((serve_ended ⟨hc, rfl, lenWithin_of_le hmin hmax, rfl, resBusy_of_unheld hfree _⟩).trans ?_)
    dsimp only
    cases dikRefusal (taken s rest) <;> rfl
  · rintro c rest t s hc rfl hlen hfree
    exact congrArg (done s) (serve_long ⟨hc, rfl, lenIs_of_length hlen, rfl, resBusy_of_unheld hfree _⟩ rfl)

end Sys2Proof.Machine
end

section
/-! SUPPORT. The command set's native store commands (section 14, group 0x05). -/

namespace Sys2Proof.Machine

open Sys2Proof

theorem ite_bnot {α : Type} (b : Bool) (x y : α) : (if (!b) = true then x else y) = if b = true then y else x := by
  cases b <;> rfl

theorem le_of_partN {n : Nat} {p : Fin 8} (h : partN n = some p) : n ≤ 7 := by
  simp only [partN] at h
  split at h
  · omega
  · exact absurd h (by simp)

theorem partN_out_of {n : Nat} {p : Fin 8} (h : partN n = some p) : decide (7 < n) = false :=
  decide_eq_false (Nat.not_lt.2 (le_of_partN h))

/-- An access that the partition's password or an open right covers (R317). -/
theorem rightCovers {pw : Option Bytes} {live : Bool} (h : pw = none ∨ live = true) : (pw.isSome && !live) = false := by
  rcases h with h | h <;> simp [h]

/-- Settles O26. -/
theorem storeCommands : Obligations.StoreCommands := by
  unfold Obligations.StoreCommands
  refine ⟨?_, ?_, ?_, ?_, ?_, ?_, ?_, ?_, ?_, ?_⟩
  · rintro c rest p r t s hc rfl hlen hp hpages hmax hread hwrite rfl
    refine congrArg (done s) ((serve_ended ⟨hc, rfl, lenIs_of_length hlen, ?_, rfl⟩).trans ?_)
    · simp only [partN_out_of hp, beq_eq_false_iff_ne.2 hpages, decide_eq_false (Nat.not_lt.2 hmax), hread, hwrite, Bool.or_self]
    · simp only [hp]
      cases freeRun (taken s rest) (byteAt c.bytes 5) with
      | none => split <;> rfl
      | some a =>
        simp only [ended_ite, ended_now]
  · rintro c rest p q u v x t s hc rfl hlen hp hzero hpw hpart hright rfl rfl rfl
    refine congrArg (done s) ((serve_ended ⟨hc, rfl, lenIs_of_length hlen, ?_, rfl⟩).trans ?_)
    · simp only [partN_out_of hp, hzero, hpw, bne_self_eq_false, Bool.or_self]
    · simp only [hp, hpart, ite_bnot, if_pos hright]
      split <;> rfl
  · rintro c rest p q u t s hc rfl hlen hp hmode hzero hpw hpart rfl
    refine congrArg (done s) ((serve_ended ⟨hc, rfl, lenIs_of_length hlen, ?_, rfl⟩).trans ?_)
    · simp only [partN_out_of hp, decide_eq_false (Nat.not_lt.2 hmode), hzero, hpw, bne_self_eq_false, Bool.or_self]
    · simp only [hp, hpart, ite_bnot]
      split <;> rfl
  · rintro c rest p t s hc rfl hlen hp hzero
    refine congrArg (done s) (serve_now ⟨hc, rfl, lenIs_of_length hlen, ?_, rfl⟩ ?_)
    · simp only [partN_out_of hp, hzero, Bool.not_true, Bool.or_self]
    · simp only [hp]
  · rintro c rest p q n t s hc rfl hlen hp hzero rfl hn hmax hpart hright hrange
    refine congrArg (done s) (serve_now ⟨hc, rfl, lenIs_of_length hlen, ?_, rfl⟩ ?_)
    · simp only [partN_out_of hp, hzero, decide_eq_false (Nat.not_lt.2 hmax), bne_self_eq_false, Bool.or_self]
    · simp only [if_neg hn, hp, hpart, Option.bind_some, Option.map_some, rightCovers hright, if_neg (Nat.not_lt.2 hrange),
        Bool.false_eq_true, if_false]
  · rintro c rest p q n t s hc rfl hlen hp hzero rfl hn hmax hpart hpw hright
    refine congrArg (done s) (serve_now ⟨hc, rfl, lenIs_of_length hlen, ?_, rfl⟩ ?_)
    · simp only [partN_out_of hp, hzero, decide_eq_false (Nat.not_lt.2 hmax), bne_self_eq_false, Bool.or_self]
    · simp only [if_neg hn, hp, hpart, Option.bind_some, Option.map_some, hpw, hright, Bool.not_false, Bool.and_self, if_true]
  · rintro c rest p q d off t s hc rfl hmin hlen hp hzero rfl rfl hpart hright hroom hrange
    refine congrArg (done s) (serve_now ⟨hc, rfl, lenWithin_of_le (Nat.le_of_lt hmin) hlen, ?_, rfl⟩ ?_)
    · simp only [partN_out_of hp, hzero, Bool.not_true, Bool.or_self]
    · have hdata : (c.bytes.drop 12).isEmpty = false := by
        rw [List.isEmpty_eq_false_iff, ← List.length_pos_iff, List.length_drop]; omega
      simp only [hdata, hp, hpart, Option.bind_some, Option.map_some, rightCovers hright, if_neg (Nat.not_lt.2 hroom),
        if_neg (Nat.not_lt.2 hrange), Bool.false_eq_true, if_false]
  · rintro c rest bad r t s hc rfl hlen hbuf rfl
    refine congrArg (done s) ((serve_ended ⟨hc, rfl, lenIs_of_length hlen, rfl, rfl⟩).trans ?_)
    simp only [List.isEmpty_eq_false_iff.2 hbuf, Bool.false_eq_true, if_false]
    split <;> rfl
  · rintro c rest t s hc rfl hlen
    exact congrArg (done s) (serve_now ⟨hc, rfl, lenIs_of_length hlen, rfl, rfl⟩ rfl)
  · rintro c rest p q x r y t s hc rfl hlen hp hmode hold hnew hpart rfl rfl rfl
    refine congrArg (done s) ((serve_ended ⟨hc, rfl, lenIs_of_length hlen, ?_, rfl⟩).trans ?_)
    · simp only [partN_out_of hp, decide_eq_false (Nat.not_lt.2 hmode), hold, hnew, Bool.or_self]
    · simp only [hp, hpart, Option.bind_some, Option.map_some, ite_bnot, ended_ite, ended_now]

end Sys2Proof.Machine
end

section
/-! SUPPORT. The command set's legacy window, ledger and radio commands (section 14, groups 0x05 and 0x06). -/

namespace Sys2Proof.Machine

open Sys2Proof

/-- The words of a tag command lie in the user memory and fit a record (R220). -/
theorem tagSpan_good {b : Bytes} (hn : leAt b 6 2 ≠ 0) (hmax : leAt b 6 2 ≤ 120) (hend : leAt b 4 2 + leAt b 6 2 ≤ 1024) :
    (leAt b 6 2 == 0 || decide (120 < leAt b 6 2) || decide (1024 < leAt b 4 2 + leAt b 6 2)) = false := by
  simp only [beq_eq_false_iff_ne.2 hn, decide_eq_false (Nat.not_lt.2 hmax), decide_eq_false (Nat.not_lt.2 hend), Bool.or_self]

theorem tagWriteLen_good {b : Bytes} (hmin : 10 ≤ b.length) (hmax : b.length ≤ 248) (hlen : b.length = 8 + 2 * leAt b 6 2) :
    (decide (10 ≤ b.length) && decide (b.length ≤ 248) &&
      (leAt b 6 2 == 0 || decide (120 < leAt b 6 2) || b.length == 8 + 2 * leAt b 6 2)) = true := by
  rw [lenWithin_of_le hmin hmax, beq_iff_eq.2 hlen, Bool.or_true, Bool.and_self]

/-- Settles O27. -/
theorem legacyLedgerAndRadioCommands : Obligations.LegacyLedgerAndRadioCommands := by
  unfold Obligations.LegacyLedgerAndRadioCommands
  refine ⟨?_, ?_, ?_, ?_, ?_, ?_, ?_, ?_, ?_, ?_, ?_⟩
  · rintro c rest u t s hc rfl hlen hn hmax rfl
    refine congrArg (done s) (serve_now ⟨hc, rfl, lenIs_of_length hlen, ?_, rfl⟩ rfl)
    simp only [beq_eq_false_iff_ne.2 hn, decide_eq_false (Nat.not_lt.2 hmax), Bool.or_self]
  · rintro c rest u a t s hc rfl hmin hmax hzero rfl rfl
    refine congrArg (done s) ((serve_ended ⟨hc, rfl, lenWithin_of_le hmin hmax, ?_, rfl⟩).trans ?_)
    · simp only [hzero, bne_self_eq_false]
    · dsimp only
      split <;> rfl
  · rintro c rest l t s hc rfl hlen hn hmax hzero hfree rfl
    refine congrArg (done s) ((serve_ended ⟨hc, rfl, lenIs_of_length hlen, ?_, resBusy_of_unheld hfree _⟩).trans ?_)
    · simp only [beq_eq_false_iff_ne.2 hn, decide_eq_false (Nat.not_lt.2 hmax), hzero, Bool.not_true, Bool.or_self]
    · simp only [List.isEmpty_iff]
      split <;> rfl
  · rintro c rest t s hc rfl hlen
    refine congrArg (done s) (serve_now ⟨hc, rfl, lenIs_of_length hlen, rfl, rfl⟩ ?_)
    simp only [Bool.and_eq_true, decide_eq_true_eq, Bool.not_eq_true']
  · rintro c rest t s hc rfl hlen
    exact congrArg (done s) (serve_now ⟨hc, rfl, lenIs_of_length hlen, rfl, rfl⟩ rfl)
  · rintro c rest t s hc rfl hlen hmin hmax hzero
    refine congrArg (done s) (serve_now ⟨hc, rfl, lenIs_of_length hlen, ?_, rfl⟩ rfl)
    simp only [decide_eq_false (Nat.not_lt.2 hmin), decide_eq_false (Nat.not_lt.2 hmax), hzero, Bool.not_true, Bool.or_self]
  · rintro c rest t s hc rfl hlen hn hmax hend
    exact congrArg (done s) (serve_later ⟨hc, rfl, lenIs_of_length hlen, tagSpan_good hn hmax hend, rfl⟩ rfl)
  · rintro c rest read bad t s hc rfl hmin hmax hlen hn hnmax hend hregions hwaits
    refine congrArg (done s) (serve_later ⟨hc, rfl, tagWriteLen_good hmin hmax hlen, tagSpan_good hn hnmax hend, rfl⟩ ?_)
    have hreader : (read && !bad && !(taken s rest).tag.readerHold) = false := by
      rcases hwaits with h | h | h <;> simp [h]
    simp only [hregions, hreader, Bool.not_true, Bool.false_eq_true, if_false]
  · rintro c rest a u t s hc rfl hmin hmax hlen hn hnmax hend hregions hhold rfl rfl
    refine congrArg (done s) (serve_later ⟨hc, rfl, tagWriteLen_good hmin hmax hlen, tagSpan_good hn hnmax hend, rfl⟩ ?_)
    simp only [hregions, hhold, Bool.not_true, Bool.not_false, Bool.and_self, Bool.false_eq_true, if_false, if_true]
  · rintro c rest read bad n t s hc rfl hmin hmax hlen hn hnmax hend hlt hnot0 hnot4
    refine congrArg (done s) (serve_now ⟨hc, rfl, tagWriteLen_good hmin hmax hlen, tagSpan_good hn hnmax hend, rfl⟩ (if_pos ?_))
    rw [Bool.not_eq_true', List.all_eq_false]
    exact ⟨n, List.mem_range.2 hlt, by simp [hnot0, hnot4]⟩
  · rintro c rest t s hc rfl hlen
    exact congrArg (done s) (serve_now ⟨hc, rfl, lenIs_of_length hlen, rfl, rfl⟩ rfl)

end Sys2Proof.Machine
end

section
/-! SUPPORT. The command set's update and configuration group (section 14, group 0x07). -/

namespace Sys2Proof.Machine

open Sys2Proof

theorem areaBad_of_good {b : Bytes} (harea : byteAt b 4 ≤ 2) (hzero : allZero (slice b 5 3) = true) : areaBad b = false := by
  simp only [areaBad, decide_eq_false (Nat.not_lt.2 harea), hzero, Bool.not_true, Bool.or_self]

theorem whenBad_of_good {b : Bytes} (hwhen : byteAt b 4 ≤ 1) (hzero : allZero (slice b 5 3) = true) : whenBad b = false := by
  simp only [whenBad, decide_eq_false (Nat.not_lt.2 hwhen), hzero, Bool.not_true, Bool.or_self]

/-- Settles O28. -/
theorem updateCommands : Obligations.UpdateCommands := by
  unfold Obligations.UpdateCommands
  refine ⟨?_, ?_, ?_, ?_, ?_, ?_, ?_, ?_, ?_⟩
  · rintro c rest t s hc rfl hlen harea hzero hmin hmax hfree
    refine congrArg (done s) ((serve_ended ⟨hc, rfl, lenIs_of_length hlen, ?_, resBusy_of_unheld hfree _⟩).trans ?_)
    · simp only [areaBad_of_good harea hzero, decide_eq_false (Nat.not_lt.2 hmin), decide_eq_false (Nat.not_lt.2 hmax), Bool.or_self]
    · simp only [Bool.and_eq_true, decide_eq_true_eq]
      split <;> rfl
  · rintro c rest x y d t s hc rfl hmin hmax harea hzero rfl hopened rfl hdata hfree hat hfits rfl
    refine congrArg (done s) ((serve_ended ⟨hc, rfl, lenWithin_of_le hmin hmax, areaBad_of_good harea hzero,
      resBusy_of_unheld hfree _⟩).trans ?_)
    have hnext : ¬ (leAt c.bytes 8 4 ≠ (areaOf (taken s rest) (byteAt c.bytes 4)).received ∨
        (areaOf (taken s rest) (byteAt c.bytes 4)).total <
          (areaOf (taken s rest) (byteAt c.bytes 4)).received + (c.bytes.drop 12).length) :=
      not_or.2 ⟨not_not_intro hat, Nat.not_lt.2 hfits⟩
    simp only [hopened, if_neg hnext, hdata, Bool.not_false, Bool.or_true, Bool.not_true, Bool.false_eq_true, if_false,
      Bool.and_eq_true, decide_eq_true_eq, Bool.not_eq_true']
    split <;> rfl
  · rintro c rest x t s hc rfl hlen harea hzero rfl hopened hcomplete hfree
    refine congrArg (done s) ((serve_ended ⟨hc, rfl, lenIs_of_length hlen, areaBad_of_good harea hzero,
      resBusy_of_unheld hfree _⟩).trans ?_)
    simp only [hopened, decide_eq_false (Nat.not_lt.2 hcomplete), Bool.not_true, Bool.or_self, Bool.false_eq_true, if_false]
    cases (areaOf (taken s rest) (byteAt c.bytes 4)).verified <;> rfl
  · rintro c rest t s hc rfl hlen harea hzero
    exact congrArg (done s) (serve_now ⟨hc, rfl, lenIs_of_length hlen, areaBad_of_good harea hzero, rfl⟩ rfl)
  · rintro c rest temp b t s hc rfl hlen hfree hverified rfl
    refine congrArg (done s) ((serve_ended ⟨hc, ?_, lenIs_of_length hlen, rfl, resBusy_of_unheld hfree _⟩).trans ?_)
    · simp only [hverified, Bool.not_true]
    · simp only [Bool.or_eq_true, Bool.and_eq_true, beq_iff_eq, and_assoc]
      split <;> rfl
  · rintro c rest t s hc rfl hlen hnow hzero hverified hfree
    refine congrArg (done s) ((serveIf_ended ⟨hc, ?_, lenIs_of_length hlen, whenBad_of_good (by omega) hzero,
      resBusy_of_unheld hfree _⟩ ?_).trans ?_)
    · simp only [hverified, Bool.not_true]
    · simp only [hnow]; rfl
    · simp only [Bool.or_eq_true, ite_bnot, ended_ite, ended_now]
  · rintro c rest t s hc rfl hlen hdeferred hzero hverified hfree
    refine congrArg (done s) (serveIf_now ⟨hc, ?_, lenIs_of_length hlen, whenBad_of_good (by omega) hzero,
      resBusy_of_unheld hfree _⟩ ?_ rfl)
    · simp only [hverified, Bool.not_true]
    · simp only [hdeferred]; rfl
  · rintro c rest n r u t s hc rfl hlen htrial hstep hslot rfl rfl
    refine congrArg (done s) ((serve_ended ⟨hc, ?_, lenIs_of_length hlen, rfl, rfl⟩).trans ?_)
    · simp only [htrial, hstep, beq_self_eq_true, Bool.and_self, Bool.not_true]
    · simp only [hslot]
      split <;> rfl
  · rintro c rest r t s hc rfl hlen rfl
    exact congrArg (done s) (serve_now ⟨hc, rfl, lenIs_of_length hlen, rfl, rfl⟩ rfl)

end Sys2Proof.Machine
end

section
/-! SUPPORT. Credentials (section 09): what a presented credential does, once for all actions. -/

namespace Sys2Proof.Machine

open Sys2Proof

/-- The state once a credential is presented: its challenge is consumed, whatever follows. -/
def challengeSpent (s : State) : State := { s with creds := { s.creds with chal := none } }

/-- A credential of the right form for action `a` that may be judged: the next command, no fault in its fields, no spent slot,
no lock-out of the credential path. -/
structure Presented (a : CredAction) (s : State) (c : CmdRec) (rest : List CmdRec) : Prop where
  next : nextServed s 0x0802 c rest
  length : c.bytes.length = 104 ∨ c.bytes.length = 168
  fields : credBad c.bytes = false
  unspent : credSpent (taken s rest) c.bytes = false
  action : byteAt c.bytes 4 = actionCode a
  pathOpen : lockedOut (taken s rest) .credential = false

/-- What a credential with a named signer leads to: AUTH_FAIL with a counted failure, the action, or WRONG_STATE. -/
def judged (a : CredAction) (e : CredEffect) (chal : Option (Bytes × Nat)) (key : Bytes) (c : CmdRec) (u : State) : State :=
  if credGood u a chal key c.bytes = false then replied (addFailure u .credential) c .authFail []
  else if e.allowed u c.bytes = true then underway (e.act chal c.bytes u) c .none { committed := true }
  else replied u c .wrongState []

section
variable {a : CredAction} {e : CredEffect} {s : State} {c : CmdRec} {rest : List CmdRec}

theorem one_le_actionCode (a : CredAction) : 1 ≤ actionCode a := by cases a <;> decide

theorem actionCode_le_eight (a : CredAction) : actionCode a ≤ 8 := by cases a <;> decide

theorem lenIs_credential {b : Bytes} (h : b.length = 104 ∨ b.length = 168) : (lenIs 104 b || lenIs 168 b) = true :=
  Bool.or_eq_true_iff.2 (h.imp lenIs_of_length lenIs_of_length)

theorem serveCred_of_presented (h : Presented a s c rest) :
    serveCred a e s = ended .none c (presentCred a e c (taken s rest)) := by
  refine serveIf_ended (r := credRow a e)
    (mine := fun b => (if byteAt b 4 < 1 ∨ 8 < byteAt b 4 then 1 else byteAt b 4) == actionCode a) ⟨h.next, rfl, lenIs_credential h.length, rfl, rfl⟩ ?_
  refine beq_iff_eq.2 ?_
  have hlo := one_le_actionCode a
  have hhi := actionCode_le_eight a
  rw [if_neg (by rw [h.action]; omega), h.action]

/-- The checks that come before the signer all pass. -/
theorem presentCred_of_presented (h : Presented a s c rest) :
    presentCred a e c (taken s rest) =
      (credSigner (challengeSpent (taken s rest)) a).elim (.now .wrongState [] (challengeSpent (taken s rest))) (fun key =>
        if !credGood (challengeSpent (taken s rest)) a (taken s rest).creds.chal key c.bytes then
          .now .authFail [] (addFailure (challengeSpent (taken s rest)) .credential)
        else if !e.allowed (challengeSpent (taken s rest)) c.bytes then .now .wrongState [] (challengeSpent (taken s rest))
        else .long { committed := true } (e.act (taken s rest).creds.chal c.bytes (challengeSpent (taken s rest)))) := by
  have hspent : credSpent (challengeSpent (taken s rest)) c.bytes = false := h.unspent
  have hopen : lockedOut (challengeSpent (taken s rest)) .credential = false := h.pathOpen
  have hguard : ¬ (credBad c.bytes || credSpent (challengeSpent (taken s rest)) c.bytes) = true := by simp [h.fields, hspent]
  refine (if_neg hguard).trans ((if_neg (hopen ▸ Bool.false_ne_true)).trans ?_)
  cases hkey : credSigner (challengeSpent (taken s rest)) a <;> simp only [challengeSpent] at hkey <;> simp only [hkey] <;> rfl

/-- A credential with no signer named for its action is answered WRONG_STATE. -/
theorem serveCred_of_no_signer (h : Presented a s c rest) (hkey : credSigner (challengeSpent (taken s rest)) a = none) :
    serveCred a e s = replied (challengeSpent (taken s rest)) c .wrongState [] := by
  rw [serveCred_of_presented h, presentCred_of_presented h, hkey]
  rfl

theorem serveCred_of_signer {key : Bytes} (h : Presented a s c rest)
    (hkey : credSigner (challengeSpent (taken s rest)) a = some key) :
    serveCred a e s = judged a e (taken s rest).creds.chal key c (challengeSpent (taken s rest)) := by
  rw [serveCred_of_presented h, presentCred_of_presented h, hkey]
  simp only [Option.elim, judged, Bool.not_eq_true']
  split
  · rfl
  · cases e.allowed (challengeSpent (taken s rest)) c.bytes <;> rfl

end

/-- An action that the state allows: the credential verifies and acts, or it counts as a failure. -/
theorem judged_of_allowed {a : CredAction} {e : CredEffect} {chal : Option (Bytes × Nat)} {key : Bytes} {c : CmdRec} {u v : State}
    (hallowed : e.allowed u c.bytes = true) (hact : e.act chal c.bytes u = v) :
    judged a e chal key c u = if credGood u a chal key c.bytes = false then replied (addFailure u .credential) c .authFail []
      else underway v c .none { committed := true } := by
  rw [judged, if_pos hallowed, hact]

/-- Settles O29. -/
theorem credentialActions : Obligations.CredentialActions := by
  unfold Obligations.CredentialActions
  refine ⟨?_, ?_, ?_, ?_, ?_, ?_, ?_, ?_, ?_⟩
  · rintro c rest u key t s hc rfl hlen hbad hspent haction hopen hu hkey hstep
    obtain rfl : u = challengeSpent (taken s rest) := hu
    refine congrArg (done s) ((serveCred_of_signer (a := .provision) ⟨hc, hlen, hbad, hspent, haction, hopen⟩ hkey).trans ?_)
    refine judged_of_allowed ?_ (by with_reducible rfl)
    exact beq_iff_eq.2 hstep
  · rintro c rest u key t s hc rfl hlen hbad hspent haction hopen hu hkey hbundle hdebug
    obtain rfl : u = challengeSpent (taken s rest) := hu
    refine congrArg (done s) ((serveCred_of_signer (a := .field) ⟨hc, hlen, hbad, hspent, haction, hopen⟩ hkey).trans ?_)
    refine judged_of_allowed ?_ (by with_reducible rfl)
    exact Bool.and_eq_true_iff.2 ⟨hbundle, congrArg (!·) hdebug⟩
  · rintro c rest u key t s hc rfl hlen hbad hspent haction hopen hu hkey hstart hengine
    obtain rfl : u = challengeSpent (taken s rest) := hu
    refine congrArg (done s) ((serveCred_of_signer (a := .enterServicing) ⟨hc, hlen, hbad, hspent, haction, hopen⟩ hkey).trans ?_)
    refine judged_of_allowed ?_ (by with_reducible rfl)
    exact Bool.and_eq_true_iff.2 ⟨Option.isNone_iff_eq_none.2 hstart, congrArg (!·) hengine⟩
  · rintro c rest u key live o t s hc rfl hlen hbad hspent haction hopen hu hkey
    obtain rfl : u = challengeSpent (taken (detectors s live) rest) := hu
    refine congrArg (done s) ((serveCred_of_signer (a := .tamperAck) (s := detectors s live) ⟨hc, hlen, hbad, hspent, haction, hopen⟩ hkey).trans ?_)
    simp only [judged, beq_iff_eq]
    rfl
  · rintro c rest u key t s hc rfl hlen hbad hspent haction hopen hu hkey
    obtain rfl : u = challengeSpent (taken s rest) := hu
    refine congrArg (done s) ((serveCred_of_signer (a := .lockoutEnd) ⟨hc, hlen, hbad, hspent, haction, hopen⟩ hkey).trans ?_)
    refine judged_of_allowed rfl ?_
    simp only [beq_iff_eq]
    obtain h0 | h1 | h2 : byteAt c.bytes 5 = 0 ∨ byteAt c.bytes 5 = 1 ∨ (byteAt c.bytes 5 ≠ 0 ∧ byteAt c.bytes 5 ≠ 1) := by omega
    · simp only [h0, if_true, Nat.zero_ne_one, if_false]
    · simp only [h1, if_true, Nat.one_ne_zero, if_false]
    · simp only [if_neg h2.1, if_neg h2.2]
  · rintro c rest u key t s hc rfl hlen hbad hspent haction hopen hu hkey
    obtain rfl : u = challengeSpent (taken s rest) := hu
    refine congrArg (done s) ((serveCred_of_signer (a := .retire) ⟨hc, hlen, hbad, hspent, haction, hopen⟩ hkey).trans ?_)
    exact judged_of_allowed rfl rfl
  · rintro c rest u key t s hc rfl hlen hbad hspent haction hopen hu hkey hdebug
    obtain rfl : u = challengeSpent (taken s rest) := hu
    refine congrArg (done s) ((serveCred_of_signer (a := .debugOpen) ⟨hc, hlen, hbad, hspent, haction, hopen⟩ hkey).trans ?_)
    refine judged_of_allowed rfl ?_
    refine (if_neg (ne_true_of_eq_false hdebug)).trans ?_
    simp only [beq_iff_eq]
  · rintro c rest u key t s hc rfl hlen hbad hspent haction hopen hu hkey
    obtain rfl : u = challengeSpent (taken s rest) := hu
    refine congrArg (done s) ((serveCred_of_signer (a := .keyLoad) ⟨hc, hlen, hbad, hspent, haction, hopen⟩ hkey).trans ?_)
    refine judged_of_allowed rfl ?_
    simp only [beq_iff_eq]
  · rintro c rest u t s hc rfl hlen hbad hspent haction hopen hu hkey
    obtain rfl : u = challengeSpent (taken s rest) := hu
    exact congrArg (done s) (serveCred_of_no_signer (a := .retire) ⟨hc, hlen, hbad, hspent, haction, hopen⟩ hkey)

end Sys2Proof.Machine
end

section
/-! SUPPORT. The life cycle's challenges, its ends and the tamper alarms (section 09). -/

namespace Sys2Proof.Machine

open Sys2Proof

/-- Settles O30. -/
theorem lifeCycleEvents : Obligations.LifeCycleEvents := by
  unfold Obligations.LifeCycleEvents
  refine ⟨?_, ?_, ?_, ?_, ?_, ?_, ?_, ?_, ?_, ?_, ?_⟩
  · rintro c rest x u t s hc rfl hlen rfl rfl
    refine congrArg (done s) ((serve_ended ⟨hc, rfl, lenIs_of_length hlen, rfl, rfl⟩).trans ?_)
    cases htrng : trngRefusal (taken s rest) <;> simp only [htrng] <;> rfl
  · rintro c rest t s hc rfl hlen hserv
    exact congrArg (done s) (serve_now ⟨hc, bne_eq_false_iff_eq.2 hserv, lenIs_of_length hlen, rfl, rfl⟩ rfl)
  · rintro c rest t s hc rfl hlen
    exact congrArg (done s) (serve_now ⟨hc, rfl, lenIs_of_length hlen, rfl, rfl⟩ rfl)
  · rintro x n t s hchal rfl
    refine congrArg (done s) ?_
    simp only [doChallengeExpiry, hchal]
  · rintro s hlocked
    exact congrArg (done s) (if_pos hlocked)
  · rintro r s hserv hrecord
    refine congrArg (done s) ((if_pos hserv).trans ?_)
    simp only [hrecord]
  · rintro n s hserv hdebug hend
    refine congrArg (done s) ((if_neg hserv).trans ((if_pos hdebug).trans ?_))
    simp only [hend]
  · rintro src o s heff
    exact done_next_of (if_pos heff) rfl rfl rfl rfl
  · rintro src eff o t s rfl heff rfl hretire
    exact congrArg (done s) ((if_neg heff).trans (if_neg (ne_true_of_eq_false hretire)))
  · rintro src eff o t s rfl heff rfl hretire
    exact congrArg (done s) ((if_neg heff).trans (if_pos hretire))
  · rintro t s hpending hchalk hstep rfl
    exact congrArg (done s) (if_pos (by simp only [hpending, hchalk, hstep]; rfl))

end Sys2Proof.Machine
end

section
/-! SUPPORT. The command set's diagnostics group (section 14). -/

namespace Sys2Proof.Machine

open Sys2Proof

theorem calState_of_lc {s : State} (h : lcOf s = .provisioned ∨ lcOf s = .servicing) : calState s = true :=
  Bool.or_eq_true_iff.2 (h.imp decide_eq_true decide_eq_true)

/-- A mask of channels, of DIAG_LF_SWEEP and DIAG_FIELD_CAL, in range. -/
theorem channelMask_good {b : Bytes} (hsome : leAt b 4 2 ≠ 0) (hmask : leAt b 4 2 < 4096) (hzero : leAt b 6 2 = 0) :
    (leAt b 4 2 == 0 || decide (4096 ≤ leAt b 4 2) || leAt b 6 2 != 0) = false := by
  rw [beq_eq_false_iff_ne.2 hsome, decide_eq_false (Nat.not_le.2 hmask), hzero]; rfl

theorem portMask_good {b : Bytes} (hsome : byteAt b 4 ≠ 0) (hmask : byteAt b 4 < 64) (hzero : allZero (slice b 5 3) = true) :
    (byteAt b 4 == 0 || decide (64 ≤ byteAt b 4) || !allZero (slice b 5 3)) = false := by
  rw [beq_eq_false_iff_ne.2 hsome, decide_eq_false (Nat.not_le.2 hmask), hzero]; rfl

theorem fieldCal_good {b : Bytes} (h : ∀ n, n < 12 → (calGain b n).natAbs ≤ 60 ∧ (calPhAdj b n).natAbs ≤ 32) :
    ((List.range 12).any fun n => decide (60 < (calGain b n).natAbs) || decide (32 < (calPhAdj b n).natAbs)) = false := by
  refine List.any_eq_false.2 fun n hn => ?_
  obtain ⟨hgain, hphase⟩ := h n (List.mem_range.1 hn)
  rw [decide_eq_false (Nat.not_lt.2 hgain), decide_eq_false (Nat.not_lt.2 hphase)]
  exact Bool.false_ne_true

theorem lt_of_ctxN {n : Nat} {x : Fin 160} (h : ctxN n = some x) : n < 160 := by
  unfold ctxN at h
  split at h
  · assumption
  · exact nomatch h

theorem probe_barred {s : State} (hlc : lcOf s = .provisioned ∨ lcOf s = .servicing) (hemit : mayEmit s = true) :
    (!calState s || !mayEmit s) = false := by
  rw [calState_of_lc hlc, hemit]; rfl

theorem probe_good {s : State} {b : Bytes} {x : Fin 160} (hctx : ctxN (byteAt b 4) = some x) (htriple : byteAt b 5 ≤ 15)
    (hset : tripleByte s (byteAt b 5) 0 ≠ 0xFF) :
    (decide (159 < byteAt b 4) || decide (15 < byteAt b 5) || tripleByte s (byteAt b 5) 0 == 0xFF) = false := by
  have hlt := lt_of_ctxN hctx
  rw [decide_eq_false (by omega), decide_eq_false (Nat.not_lt.2 htriple), beq_eq_false_iff_ne.2 hset]; rfl

/-- DIAG_UHF_TEST of either kind, admitted: a long command of its DURATION. -/
theorem serve_uhfTest {s : State} {c : CmdRec} {rest : List CmdRec} {mode : Nat} {mine : Bytes → Bool} (result : Bytes)
    (hc : nextServed s 0x0907 c rest) (hlen : c.bytes.length = 12)
    (hlc : lcOf (taken s rest) = .blank ∨ lcOf (taken s rest) = .provisioned ∨ lcOf (taken s rest) = .servicing)
    (hemit : mayEmit (taken s rest) = true) (hfree : unheld (taken s rest) .fieldTest = true)
    (hmode : byteAt c.bytes 4 = mode) (hmodeLe : mode ≤ 1) (hchan : byteAt c.bytes 5 ≤ 7) (hpower : byteAt c.bytes 6 ≤ 63)
    (hzero : byteAt c.bytes 7 = 0) (hdur : leAt c.bytes 8 2 ≠ 0) (hdurLe : leAt c.bytes 8 2 ≤ 10000) (hzero' : leAt c.bytes 10 2 = 0)
    (hmax : byteAt c.bytes 6 ≤ (vgetN (taken s rest).tn.chan (byteAt c.bytes 5) {}).pwrMax.toNat) (hmine : mine c.bytes = true) :
    serveIf (uhfTest result) mine s = underway (taken s rest) c .fieldTest
      { result := result, work := .uhfTest (now (taken s rest)) (leAt c.bytes 8 2 * ticksPerMs) (byteAt c.bytes 4 == 0) } := by
  refine serveIf_long (r := uhfTest result) ⟨hc, ?_, lenIs_of_length hlen, ?_, resBusy_of_unheld hfree _⟩ hmine rfl
  · have hstate : (decide (lcOf (taken s rest) = .blank) || decide (lcOf (taken s rest) = .provisioned) ||
        decide (lcOf (taken s rest) = .servicing)) = true := by
      simpa only [Bool.or_eq_true, decide_eq_true_eq, or_assoc] using hlc
    simp only [uhfTest, hstate, hemit, Bool.not_true, Bool.or_self]
  · simp only [uhfTest, hmode, hzero, hzero', Nat.not_lt.2 hmodeLe, Nat.not_lt.2 hchan, Nat.not_lt.2 hpower, Nat.not_lt.2 hdurLe,
      Nat.not_lt.2 hmax, beq_eq_false_iff_ne.2 hdur, bne_self_eq_false, decide_false, Bool.or_self]

/-- Settles O31. -/
theorem diagnosticCommands : Obligations.DiagnosticCommands := by
  unfold Obligations.DiagnosticCommands
  refine ⟨?_, ?_, ?_, ?_, ?_, ?_, ?_, ?_, ?_⟩
  · rintro c rest t s hc rfl hlen hsome hmask hzero hfree
    refine congrArg (done s) ((serve_ended ⟨hc, rfl, lenIs_of_length hlen, channelMask_good hsome hmask hzero,
      resBusy_of_unheld hfree _⟩).trans ?_)
    simp only [Bool.or_eq_true]
    split <;> rfl
  · rintro c rest t s hc rfl hlen hsome hmask hzero hfree
    refine congrArg (done s) ((serve_ended ⟨hc, rfl, lenIs_of_length hlen, portMask_good hsome hmask hzero,
      resBusy_of_unheld hfree _⟩).trans ?_)
    simp only [Bool.or_eq_true]
    split <;> rfl
  · rintro c rest l t s hc rfl hlen hfree rfl
    refine congrArg (done s) ((serve_ended ⟨hc, rfl, lenIs_of_length hlen, rfl, resBusy_of_unheld hfree _⟩).trans ?_)
    simp only [List.isEmpty_iff]
    split <;> rfl
  · rintro c rest t s hc rfl hlen hfree
    exact congrArg (done s) (serve_long ⟨hc, rfl, lenIs_of_length hlen, rfl, resBusy_of_unheld hfree _⟩ rfl)
  · rintro c rest g p r t s hc rfl hlen hlc hsome hmask hzero hrange rfl rfl rfl
    refine congrArg (done s) (serve_now ⟨hc, congrArg (!·) (calState_of_lc hlc), lenIs_of_length hlen, ?_, rfl⟩ rfl)
    simp only [channelMask_good hsome hmask hzero, fieldCal_good hrange, Bool.or_self]
  · rintro c rest ok sig i0 a b x k u v t s hc rfl hlen hlc hemit hfree hopen hctx htriple hset htracked hslot htrng rfl rfl rfl
    refine congrArg (done s) ((serve_ended ⟨hc, probe_barred hlc hemit, lenIs_of_length hlen, probe_good hctx htriple hset,
      resBusy_of_unheld hfree _⟩).trans ?_)
    simp only [hctx, hopen, htracked, hslot, htrng, Option.or_none, Bool.not_true, Bool.false_eq_true, if_false]
    cases ok <;> simp only [Bool.not_false, Bool.not_true, Bool.false_eq_true, if_true, if_false, ended, reduceCtorEq]
  · rintro c rest ok sig i0 a b x t s hc rfl hlen hlc hemit hfree hlocked hctx htriple hset
    refine congrArg (done s) (serve_now ⟨hc, probe_barred hlc hemit, lenIs_of_length hlen, probe_good hctx htriple hset,
      resBusy_of_unheld hfree _⟩ ?_)
    simp only [hctx, hlocked, if_true]
  · rintro c rest t s hc rfl hlen hlc hemit hfree hmode hchan hpower hzero hdur hdurLe hzero' hmax
    refine congrArg (done s) (congrArg coexUpdate ((serve_uhfTest (zeros 8) hc hlen hlc hemit hfree hmode (by decide) hchan hpower
      hzero hdur hdurLe hzero' hmax ?_).trans ?_))
    · rw [hmode]; rfl
    · rw [hmode]; rfl
  · rintro c rest bits errors t s hc rfl hlen hlc hemit hfree hmode hchan hpower hzero hdur hdurLe hzero' hmax
    refine congrArg (done s) (congrArg coexUpdate ((serve_uhfTest _ hc hlen hlc hemit hfree hmode (by decide) hchan hpower
      hzero hdur hdurLe hzero' hmax ?_).trans ?_))
    · rw [hmode]; rfl
    · rw [hmode]; rfl

end Sys2Proof.Machine
end

section
/-! SUPPORT. The command set's traffic: undefined opcodes, long commands and events (section 14). -/

namespace Sys2Proof.Machine

open Sys2Proof

section
variable {slot : Fin 16} {ports : Vector PortCheck 6} {l : LongCmd} {s : State}

theorem doLongCommandComplete_of_longOf (h : longOf s slot = some l) :
    doLongCommandComplete slot ports s = afterAnswer (passEnd (endLong s l ports)) := by
  rw [doLongCommandComplete, h]

/-- A long command that ends: the row's effect is the end of its work. -/
theorem longCommandComplete_of_end {u : State} (h : longOf s slot = some l) (hend : endLong s l ports = u) :
    done s (doLongCommandComplete slot ports s) = done s (afterAnswer (passEnd u)) := by
  rw [doLongCommandComplete_of_longOf h, hend]

theorem endLong_uhfTest {since dur : Nat} {tx : Bool} (h : l.work = .uhfTest since dur tx) :
    endLong s l ports = uhfTestEnd s l since dur tx := by
  rw [endLong, h]

end

/-- Settles O32. -/
theorem commandTraffic : Obligations.CommandTraffic := by
  unfold Obligations.CommandTraffic
  refine ⟨?_, ?_, ?_, ?_, ?_, ?_, ?_⟩
  · rintro c rest s hserves hqueue hundef
    refine congrArg (done s) ?_
    simp only [doUndefinedOpcode, hqueue]
    refine if_pos ?_
    rw [hserves, hundef]; rfl
  · rintro slot ports l s hlong hwork
    exact longCommandComplete_of_end hlong (by rw [endLong, hwork])
  · rintro slot ports l s hlong hwork
    exact longCommandComplete_of_end hlong (by rw [endLong, hwork])
  · rintro slot ports l m since s hlong hwork rfl
    exact longCommandComplete_of_end hlong (by rw [endLong, hwork]; rfl)
  · rintro slot ports l m since s hlong hwork
    exact longCommandComplete_of_end hlong (by rw [endLong, hwork])
  · rintro slot ports l since dur tx s hlong hwork
    exact longCommandComplete_of_end hlong (endLong_uhfTest hwork)
  · rintro e es t s hring houtbox hlink hwait hroom rfl
    refine congrArg (done s) ?_
    simp only [doEvtPost, hring]
    refine if_pos ?_
    rw [houtbox, hlink, hwait, hroom]; rfl

end Sys2Proof.Machine
end

section
/-! SUPPORT. The record store's own events (section 11). -/

namespace Sys2Proof.Machine

open Sys2Proof

section
variable {r : Ring} {geo : RingGeo}

/-- With fewer than two erased pages a ring's step is the copy of its oldest page's live records. -/
theorem reclaimStep_of_few_erased (hidle : r.reclaim = false) (hfew : erasedRingPages geo r < 2) :
    reclaimStep geo r = (reclaimCopy geo r, 0) := by
  rw [reclaimStep, if_neg (ne_true_of_eq_false hidle), if_pos hfew]

/-- The step after the copy erases the page. -/
theorem reclaimStep_of_reclaim (hcopied : r.reclaim = true) : reclaimStep geo r = (reclaimErase geo r, 1) := by
  rw [reclaimStep, if_pos hcopied]

end

/-- Settles O33. -/
theorem storeAndPartitionEvents : Obligations.StoreAndPartitionEvents := by
  unfold Obligations.StoreAndPartitionEvents
  refine ⟨?_, ?_, ?_, ?_, ?_, ?_, ?_, ?_, ?_, ?_, ?_, ?_, ?_, ?_, ?_⟩
  · rintro p bad s hdirty hash
    exact congrArg (done s) (if_pos (by rw [hdirty, hash]; rfl))
  · rintro p x s hcopy hdone hash
    refine congrArg (done s) ?_
    simp only [doOldCopyErase, hcopy]
    exact if_neg (by rw [decide_eq_false (Nat.not_lt.2 hdone), hash]; exact Bool.false_ne_true)
  · rintro p x s hcopy hopen
    refine done_next_of ?_ rfl rfl rfl rfl
    simp only [doOldCopyErase, hcopy]
    exact if_pos (by rw [decide_eq_true hopen]; rfl)
  · rintro s hash hidle hfew
    refine done_next_of ((if_neg (ne_true_of_eq_false hash)).trans ?_) rfl rfl rfl rfl
    rw [reclaimStep_of_few_erased hidle hfew]; rfl
  · rintro s hash hcopied
    refine done_next_of ((if_neg (ne_true_of_eq_false hash)).trans ?_) rfl rfl rfl rfl
    rw [reclaimStep_of_reclaim hcopied]; rfl
  · rintro s hash hidle hfew
    refine done_next_of ((if_neg (ne_true_of_eq_false hash)).trans ?_) rfl rfl rfl rfl
    rw [reclaimStep_of_few_erased hidle hfew]; rfl
  · rintro s hash hcopied
    refine done_next_of ((if_neg (ne_true_of_eq_false hash)).trans ?_) rfl rfl rfl rfl
    rw [reclaimStep_of_reclaim hcopied]; rfl
  · rintro s hash hidle hfew
    refine done_next_of ((if_neg (ne_true_of_eq_false hash)).trans ?_) rfl rfl rfl rfl
    rw [reclaimStep_of_few_erased hidle hfew]; rfl
  · rintro s hash hcopied
    refine done_next_of ((if_neg (ne_true_of_eq_false hash)).trans ?_) rfl rfl rfl rfl
    rw [reclaimStep_of_reclaim hcopied]; rfl
  · rintro i s hash hfind
    refine done_next_of ((if_neg (ne_true_of_eq_false hash)).trans ?_) rfl rfl rfl rfl
    simp only [hfind]
  · rintro s hfind
    refine done_next_of ?_ rfl rfl rfl rfl
    simp only [doNativePartitionErase, hfind, ite_self]
  · rintro part r t s rfl hopen rfl
    exact congrArg (done s) (if_pos (Bool.or_eq_true_iff.2 hopen))
  · rintro part n t s hblocked rfl
    refine congrArg (done s) ?_
    simp only [doPasswordBlockExpiry, hblocked]
  · rintro p data x t s hcycle rfl rfl
    refine congrArg (done s) ?_
    simp only [doLwWriteCycleEnd, hcycle]
  · rintro b x t s hcycle rfl rfl
    refine congrArg (done s) ?_
    simp only [doLwWriteCycleEnd, hcycle]

end Sys2Proof.Machine
end

section
/-! SUPPORT. The ledger's own events (section 11). -/

namespace Sys2Proof.Machine

open Sys2Proof

/-- The ledger works outside Ash and before retirement. -/
theorem ledger_not_stopped {s : State} (hash : s.orr.ash = false) (hretire : s.keys.lcRetire = false) :
    ¬ (s.orr.ash || s.keys.lcRetire) = true := by
  rw [hash, hretire]
  exact Bool.false_ne_true

/-- Settles O34. -/
theorem ledgerEvents : Obligations.LedgerEvents := by
  unfold Obligations.LedgerEvents
  refine ⟨?_, ?_, ?_, ?_, ?_, ?_, ?_⟩
  · rintro r rs signOk s hash hretire hpair hqueue
    refine congrArg (done s) ((if_neg (ledger_not_stopped hash hretire)).trans ?_)
    simp only [hpair, hqueue, Option.isSome_none, Bool.false_eq_true, if_false]
  · rintro signOk s hash hretire hpair
    exact congrArg (done s) ((if_neg (ledger_not_stopped hash hretire)).trans (if_pos hpair))
  · rintro signOk s hretire
    exact done_next_of (if_pos (Bool.or_eq_true_iff.2 (.inr hretire))) rfl rfl rfl rfl
  · rintro n t s hpair hash rfl hdue
    have hdue' : ¬ ((elapseTo s (n + ticksPerSec)).orr.ash || decide (now (elapseTo s (n + ticksPerSec)) < n + ticksPerSec)) = true := by
      rw [elapseTo_orr, hash, decide_eq_false (Nat.not_lt.2 hdue)]
      exact Bool.false_ne_true
    refine congrArg (done s) ?_
    simp only [doCheckpointSignTimeout, hpair]
    exact if_neg hdue'
  · rintro s hash
    exact congrArg (done s) (if_neg (ne_true_of_eq_false hash))
  · rintro v s habove
    exact congrArg (done s) (if_neg (Nat.not_le.2 habove))
  · rintro v s hle
    exact congrArg (done s) (if_pos hle)

end Sys2Proof.Machine
end

section
/-! SUPPORT. The HF reader's events (section 08): what the end of an exchange leads to, by the frame that was sent. -/

namespace Sys2Proof.Machine

open Sys2Proof

section
variable {s : State} {result : BitVec 2} {data : Bytes} {valid : BitVec 6} {fdt : W16} {f : HfFrame}

/-- An exchange is under way: the end of its frame is judged (R205). -/
theorem doHfGoDone_started (hphase : s.hf.phase ≠ .idle ∧ s.hf.phase ≠ .guard) (hconf : s.hf.conf = none) :
    ¬ (s.hf.phase = .idle ∨ s.hf.phase = .guard ∨ s.hf.conf.isSome = true) := by
  rw [hconf]
  exact not_or.2 ⟨hphase.1, not_or.2 ⟨hphase.2, Bool.false_ne_true⟩⟩

theorem not_idle_of_authSent (h : s.hf.phase = .authSent) : s.hf.phase ≠ .idle ∧ s.hf.phase ≠ .guard := by
  rw [h]
  exact ⟨nofun, nofun⟩

theorem doHfGoDone_hauth (hphase : s.hf.phase = .authSent) (hconf : s.hf.conf = none) (hf : hfTxFrame s.hf = some .hauth) :
    doHfGoDone result data valid fdt s = passEnd (hfOutcome (hfStored s result data fdt) result data fdt) := by
  refine (if_neg (doHfGoDone_started (not_idle_of_authSent hphase) hconf)).trans ?_
  simp only [hf, if_pos hphase]

theorem doHfGoDone_antic (hphase : s.hf.phase ≠ .idle ∧ s.hf.phase ≠ .guard) (hconf : s.hf.conf = none)
    (hf : hfTxFrame s.hf = some .antic) :
    doHfGoDone result data valid fdt s = passEnd (hfAnticReply (hfStored s result data fdt) result data valid.toNat) := by
  refine (if_neg (doHfGoDone_started hphase hconf)).trans ?_
  simp only [hf]

theorem doHfGoDone_select (hphase : s.hf.phase ≠ .idle ∧ s.hf.phase ≠ .guard) (hconf : s.hf.conf = none)
    (hf : hfTxFrame s.hf = some .select) :
    doHfGoDone result data valid fdt s = passEnd (hfSelected (hfStored s result data fdt) result data) := by
  refine (if_neg (doHfGoDone_started hphase hconf)).trans ?_
  simp only [hf]

/-- REQA and WUPA. -/
theorem doHfGoDone_request (hphase : s.hf.phase ≠ .idle ∧ s.hf.phase ≠ .guard) (hconf : s.hf.conf = none)
    (hf : hfTxFrame s.hf = some f) (hrequest : f = .reqa ∨ f = .wupa) :
    doHfGoDone result data valid fdt s =
      passEnd (if result = 0 then hfNoCard (hfStored s result data fdt) f else hfAntic (hfStored s result data fdt) 1 []) := by
  refine (if_neg (doHfGoDone_started hphase hconf)).trans ?_
  obtain rfl | rfl := hrequest <;> simp only [hf]

theorem doHfGoDone_halt (hphase : s.hf.phase ≠ .idle ∧ s.hf.phase ≠ .guard) (hconf : s.hf.conf = none)
    (hf : hfTxFrame s.hf = some .hlta ∨ hfTxFrame s.hf = some .hconf) :
    doHfGoDone result data valid fdt s = passEnd (if hfTxFrame s.hf = some .hlta then hfHalted (hfStored s result data fdt)
      else hfHalt (hfStored s result data fdt)) := by
  refine (if_neg (doHfGoDone_started hphase hconf)).trans ?_
  obtain hf | hf := hf
  · simp only [hf, if_true]
  · simp only [hf]; rfl

theorem hfAnticReply_of_collision {n : Nat} (h : ((s.hf.uid ++ (data.flatMap lsbBits).take n).take 40).length < 40) :
    hfAnticReply s 3 data n =
      hfAntic s (hfLevel s) ((s.hf.uid ++ (data.flatMap lsbBits).take n).take 40 ++ [true]) := by
  simp only [hfAnticReply, if_true, if_pos h]

theorem hfAnticReply_of_uid {n : Nat} (h : 40 ≤ ((s.hf.uid ++ (data.flatMap lsbBits).take n).take 40).length) :
    hfAnticReply s 1 data n = hfSend s .select
      ([selByte (hfLevel s), 0x70] ++ packBits 5 ((s.hf.uid ++ (data.flatMap lsbBits).take n).take 40)) := by
  have hreply : ¬ ((1 : BitVec 2) = 0 ∨ ((s.hf.uid ++ (data.flatMap lsbBits).take n).take 40).length < 40) :=
    not_or.2 ⟨by decide, Nat.not_lt.2 h⟩
  have hgood : ¬ (1 : BitVec 2) = 3 := by decide
  simp only [hfAnticReply, if_neg hgood, if_neg hreply]

/-- An answer of the right form within the frame delay is judged by its identifier (R207). -/
theorem hfOutcome_of_answer (hfdt : fdt.toNat ≤ 8340) (hlen : data.length = 25) (hcode : byteAt data 0 = 0xB2) :
    hfOutcome s 1 data fdt = (ctxOfId s (beAt data 1 8)).elim (hfNoise s)
      (fun c => if hfEnrolled s c then hfJudge s c data else hfNoise s) := by
  have hform : ¬ ((1 : BitVec 2) ≠ 1 ∨ 8340 < fdt.toNat ∨ data.length ≠ 25 ∨ byteAt data 0 ≠ 0xB2) := by
    simp [hlen, hcode, hfdt]
  refine (if_neg hform).trans ?_
  cases ctxOfId s (beAt data 1 8) <;> rfl

theorem hfOutcome_of_none (h : result ≠ 1 ∨ 8340 < fdt.toNat) : hfOutcome s result data fdt = hfHalt s :=
  if_pos (h.elim .inl fun hlate => .inr (.inl hlate))

end

theorem hfAllowed_iff {s : State} : hfAllowed s = true ↔ s.pwr.pstate = .chalk ∧ s.keys.svcLock = false := by
  simp only [hfAllowed, Bool.and_eq_true, decide_eq_true_eq, Bool.not_eq_true']

/-- Settles O35. -/
theorem hfReaderEvents : Obligations.HfReaderEvents := by
  unfold Obligations.HfReaderEvents
  refine ⟨?_, ?_, ?_, ?_, ?_, ?_, ?_, ?_, ?_, ?_, ?_, ?_, ?_, ?_, ?_, ?_, ?_, ?_, ?_, ?_⟩
  · rintro t s hallowed hoff rfl
    exact congrArg (done s) (if_neg (by rw [hallowed, hoff]; exact Bool.false_ne_true))
  · rintro s hallowed
    exact done_next_of (if_pos (by rw [hallowed]; rfl)) rfl rfl rfl rfl
  · rintro s
    exact congrArg (done s) rfl
  · rintro s hchalk hlock
    exact congrArg (done s) (if_pos (hfAllowed_iff.2 ⟨hchalk, hlock⟩))
  · rintro s hstopped
    refine done_next_of (if_neg fun hstarts => ?_) rfl rfl rfl rfl
    obtain ⟨hchalk, hlock⟩ := hfAllowed_iff.1 hstarts
    obtain hchalk' | hlock' := hstopped
    · exact hchalk' hchalk
    · exact ne_true_of_eq_false hlock hlock'
  · rintro s
    exact congrArg (done s) rfl
  · rintro amp ph s hlpcd hsuspended hfield hchalk
    refine congrArg (done s) (if_neg ?_)
    rw [hlpcd, hsuspended, hfield, decide_eq_false (not_not_intro hchalk)]
    exact Bool.false_ne_true
  · rintro b f rate s rfl hframe hfield hauth hrate
    refine congrArg (done s) ?_
    have hlock : (decide (f = .hauth) && lockedOut s .hf) = false := by
      obtain hauth | hlock := hauth
      · rw [decide_eq_false hauth]; rfl
      · rw [hlock, Bool.and_false]
    simp only [doHfGo, hframe]
    refine if_neg ?_
    rw [hfield, hlock, decide_eq_false (not_not_intro hrate)]
    exact Bool.false_ne_true
  · rintro b rate s rfl hnot
    refine done_next_of ?_ rfl rfl rfl rfl
    obtain hframe | ⟨hframe, hlock⟩ := hnot
    · simp only [doHfGo, hframe]
    · simp only [doHfGo, hframe, hlock, decide_true, Bool.and_self, Bool.or_true, Bool.true_or, if_true]
  · rintro result data valid fdt t f s hphase hconf rfl hframe hrequest
    exact congrArg (done s) (doHfGoDone_request hphase hconf hframe hrequest)
  · rintro data valid fdt t bits s hphase hconf rfl hframe rfl hpart
    exact congrArg (done s) ((doHfGoDone_antic hphase hconf hframe).trans (congrArg passEnd (hfAnticReply_of_collision hpart)))
  · rintro data valid fdt t bits s hphase hconf rfl hframe rfl hwhole
    exact congrArg (done s) ((doHfGoDone_antic hphase hconf hframe).trans (congrArg passEnd (hfAnticReply_of_uid hwhole)))
  · rintro data valid fdt t s hphase hconf rfl hframe hcomplete
    exact congrArg (done s) ((doHfGoDone_select hphase hconf hframe).trans (congrArg passEnd ((if_neg (not_not_intro rfl)).trans
      (if_neg (ne_true_of_eq_false hcomplete)))))
  · rintro data valid fdt t x s hphase hconf rfl hframe hfdt hlen hcode hctx henrolled
    refine congrArg (done s) ((doHfGoDone_hauth hphase hconf hframe).trans (congrArg passEnd ((hfOutcome_of_answer hfdt hlen hcode).trans ?_)))
    rw [hctx]
    exact if_pos henrolled
  · rintro data valid fdt t s hphase hconf rfl hframe hfdt hlen hcode hctx
    refine congrArg (done s) ((doHfGoDone_hauth hphase hconf hframe).trans (congrArg passEnd ((hfOutcome_of_answer hfdt hlen hcode).trans ?_)))
    rw [hctx]
    rfl
  · rintro result data valid fdt s hphase hconf hframe hnone
    exact congrArg (done s) ((doHfGoDone_hauth hphase hconf hframe).trans (congrArg passEnd (hfOutcome_of_none hnone)))
  · rintro result data valid fdt t s hphase hconf rfl hframe
    exact congrArg (done s) (doHfGoDone_halt hphase hconf hframe)
  · rintro s hfield hphase
    exact congrArg (done s) (if_pos (by rw [hfield, hphase]; rfl))
  · rintro t s hfield rfl
    exact congrArg (done s) (if_pos hfield)
  · rintro n t s hlinger rfl
    refine congrArg (done s) ?_
    simp only [doHfLingerExpiry, modHf, hlinger]

end Sys2Proof.Machine
end

section
/-! SUPPORT. The passive path's scheduler, tracking, start path and press receiver (sections 01, 04, 06 and 07). -/

namespace Sys2Proof.Machine

open Sys2Proof

/-- What a telegram taken in the state `s` does, by its CRC (R113). -/
def telegramTaken (s : State) (p : Bytes) : State := passEnd (if pressCrcOk p then pressKnown s p else pressReject s)

/-- In the press window, with no sniff's search, a telegram is taken as it is. -/
theorem doPressTelegram_of_window {s : State} (off : BitVec 12) (hwindow : windowKept s = true) (hsniff : s.tn.sniffUntil = none) :
    doPressTelegram off s = telegramTaken s (memReadBytes s.cel.win off.toNat 23) := by
  refine (if_neg (by rw [hwindow]; exact Bool.false_ne_true)).trans ?_
  simp only [hsniff, Option.isSome_none, Bool.false_eq_true, if_false]
  rfl

/-- A telegram ends a sniff's search. -/
theorem doPressTelegram_of_sniff {s : State} (off : BitVec 12) (hsniff : s.tn.sniffUntil.isSome = true) :
    doPressTelegram off s = telegramTaken (sniffOff (sniffSync s)) (memReadBytes s.cel.win off.toNat 23) := by
  have hnone : s.tn.sniffUntil.isNone = false := by rw [Option.isNone_eq_false_iff]; exact hsniff
  refine (if_neg (by rw [hnone, Bool.and_false]; exact Bool.false_ne_true)).trans ?_
  simp only [hsniff, if_true]
  rfl

/-- Settles O36. -/
theorem passiveAndPressEvents : Obligations.PassiveAndPressEvents := by
  unfold Obligations.PassiveAndPressEvents
  refine ⟨?_, ?_, ?_, ?_, ?_, ?_, ?_, ?_, ?_, ?_⟩
  · rintro x es work s hevents
    refine congrArg (done s) ?_
    simp only [doSchedulerEvent, hevents]
  · rintro x xs t s hsort rfl hchalk hrun hpassive
    refine congrArg (done s) ?_
    simp only [doTrackingTimer, hsort]
    refine if_neg ?_
    rw [hrun, hpassive]
    exact not_or.2 ⟨not_not_intro hchalk, not_or.2 ⟨Bool.false_ne_true, Bool.noConfusion⟩⟩
  · rintro q s hreq hsent
    refine congrArg (done s) ?_
    simp only [doStartPathRetry, hreq, hsent, Bool.false_eq_true, if_false]
  · rintro q t s hreq hsent rfl
    refine congrArg (done s) ?_
    simp only [doStartRequestExpiry, hreq, hsent, Bool.false_eq_true, if_false] <;> rfl
  · rintro off p s hwindow hsniff rfl
    exact congrArg (done s) (doPressTelegram_of_window off hwindow hsniff)
  · rintro off p s hsniff rfl
    exact congrArg (done s) (doPressTelegram_of_sniff off hsniff)
  · rintro off s hwindow hsniff
    exact done_next_of (if_pos (by rw [hwindow, hsniff]; rfl)) rfl rfl rfl rfl
  · rintro ctx x n s hresync
    refine congrArg (done s) ?_
    simp only [doResyncCandidateExpiry, hresync]
  · rintro ctx n s hblock
    refine congrArg (done s) ?_
    simp only [doMacFailBlockExpiry, hblock]
  · rintro ctx n s hrelay
    refine congrArg (done s) ?_
    simp only [doRelayIgnoreExpiry, hrelay]

end Sys2Proof.Machine
end

section
/-! SUPPORT. Sessions, failures and lock-outs at their times (section 06). -/

namespace Sys2Proof.Machine

open Sys2Proof

/-- Settles O37. -/
theorem sessionsAndLockouts : Obligations.SessionsAndLockouts := by
  unfold Obligations.SessionsAndLockouts
  refine ⟨?_, ?_, ?_, ?_, ?_⟩
  · rintro e s hentry
    refine congrArg (done s) ?_
    simp only [doEntrySessionTimeout, hentry]
  · rintro x s hstart
    refine congrArg (done s) ?_
    simp only [doStartSessionTimeout, hstart]
  · rintro path f fs t s hfails rfl
    refine congrArg (done s) ?_
    simp only [doFailureAgeOut, hfails]
  · rintro path s hlocked
    exact congrArg (done s) (if_pos hlocked)
  · rintro path s hentry hstart hfails hopen
    refine ⟨?_, ?_, ?_, ?_⟩
    · exact done_next_of (by rw [doEntrySessionTimeout, hentry]) rfl rfl rfl rfl
    · exact done_next_of (by rw [doStartSessionTimeout, hstart]) rfl rfl rfl rfl
    · exact done_next_of (by rw [doFailureAgeOut, hfails]) rfl rfl rfl rfl
    · exact done_next_of (if_neg (ne_true_of_eq_false hopen)) rfl rfl rfl rfl

end Sys2Proof.Machine
end

section
/-! SUPPORT. The clocks' rows (section 15). -/

namespace Sys2Proof.Machine

open Sys2Proof

/-- A guard that turns a row away when `b` does not hold is passed. -/
theorem guard_passed {b : Bool} (h : b = true) : ¬ (!b) = true := by
  rw [h]
  exact Bool.false_ne_true

/-- Settles O38. -/
theorem clockCommands : Obligations.ClockCommands := by
  unfold Obligations.ClockCommands
  refine ⟨?_, ?_, ?_, ?_, ?_, ?_, ?_, ?_, ?_, ?_, ?_, ?_, ?_, ?_, ?_, ?_, ?_, ?_, ?_, ?_, ?_, ?_, ?_, ?_, ?_, ?_, ?_, ?_, ?_, ?_⟩
  · rintro count s
    exact done_next_of rfl rfl rfl rfl rfl
  · rintro count w s hrc16 hgood rfl
    exact congrArg (done s) ((if_neg (guard_passed hrc16)).trans (if_pos hgood))
  · rintro count s hrc16 hbad
    refine congrArg (done s) ((if_neg (guard_passed hrc16)).trans ((if_neg (ne_true_of_eq_false hbad)).trans ?_))
    simp only [Bool.and_eq_true, Bool.or_eq_true, decide_eq_true_eq, Bool.not_eq_true', and_assoc]
  · rintro count w s hrc32 hgood rfl
    exact done_next_of ((if_neg (guard_passed hrc32)).trans (if_pos hgood)) rfl rfl rfl rfl
  · rintro count s hrc32 hbad
    refine congrArg (done s) ((if_neg (guard_passed hrc32)).trans ((if_neg (ne_true_of_eq_false hbad)).trans ?_))
    simp only [Bool.and_eq_true, decide_eq_true_eq]
  · rintro count w s hrc32 hgood rfl
    exact done_next_of ((if_neg (guard_passed hrc32)).trans (if_pos hgood)) rfl rfl rfl rfl
  · rintro count w s hgood rfl
    exact done_next_of (if_pos hgood) rfl rfl rfl rfl
  · rintro s
    refine done_next_of rfl ?_ ?_ ?_ ?_ <;> split <;> rfl
  · rintro s
    refine done_next_of rfl ?_ ?_ ?_ ?_ <;> split <;> rfl
  · rintro s hgate
    exact done_next_of (if_neg (guard_passed hgate)) rfl rfl rfl rfl
  · rintro s hlock
    exact congrArg (done s) (if_pos hlock)
  · rintro s hlock
    exact congrArg (done s) (if_pos hlock)
  · rintro s hlock
    exact congrArg (done s) (if_pos hlock)
  · rintro x gate rdy ticks t s rfl rfl rfl hclock hgate hready rfl
    exact done_next_of (if_pos (by rw [hclock, hgate, hready]; rfl)) rfl rfl rfl rfl
  · rintro o t s hchalk hstep hlocked hsource rfl
    exact congrArg (done s) (if_pos ⟨hchalk, hstep, hlocked, Bool.and_eq_false_iff.2 hsource⟩)
  · rintro o s hjet hrun hfirst hlast
    exact congrArg (done s) (if_pos ⟨hjet, hrun, hfirst, hlast⟩)
  · rintro o s hbelow
    refine done_next_of (if_neg ?_) rfl rfl rfl rfl
    rintro ⟨-, hrun, -⟩
    exact ne_true_of_eq_false hrun hbelow
  · rintro t s hfallback hchalk rfl
    exact congrArg (done s) (if_pos (by rw [hfallback, hchalk]; rfl))
  · rintro count s hrc32 hbad
    exact done_next_of ((if_neg (guard_passed hrc32)).trans (if_neg (ne_true_of_eq_false hbad))) rfl rfl rfl rfl
  · rintro count s hready hbad
    exact congrArg (done s) ((if_neg (ne_true_of_eq_false hbad)).trans (if_pos hready))
  · rintro s
    exact congrArg (done s) rfl
  · rintro s
    exact done_next_of rfl rfl rfl rfl rfl
  · rintro s
    exact congrArg (done s) rfl
  · rintro v s hchange hrefused
    refine done_next_of ((if_neg hchange).trans (if_pos ?_)) rfl rfl rfl rfl
    exact Bool.or_eq_true_iff.2 (hrefused.imp_right (congrArg (!·)))
  · rintro v s hchange hlaunch hready
    refine congrArg (done s) ((if_neg hchange).trans (if_neg ?_))
    rw [hlaunch, hready]
    exact Bool.false_ne_true
  · rintro v want new s rfl rfl
    exact congrArg (done s) rfl
  · rintro v s
    exact done_next_of rfl rfl rfl rfl rfl
  · rintro t s hlock hramp rfl
    exact done_next_of ((if_neg (guard_passed hlock)).trans ((if_neg Bool.false_ne_true).trans (if_neg hramp))) rfl rfl rfl rfl
  · rintro t s hlock hramp rfl
    exact done_next_of ((if_neg (guard_passed hlock)).trans ((if_pos rfl).trans (if_neg hramp))) rfl rfl rfl rfl
  · rintro write t s rfl
    exact done_next_of rfl rfl rfl rfl rfl

end Sys2Proof.Machine
end

section
/-! SUPPORT. Touch, supply, resting and waking (section 16). -/

namespace Sys2Proof.Machine

open Sys2Proof

/-- PWR_CTRL with a state named: the state is entered where the device may rest, and refused elsewhere. -/
theorem doPwrCtrlGo_of_named {v : W32} {s : State} (h : bitsOf v 1 0 ≠ 0) :
    doPwrCtrlGo v s =
      if (sableWrite 0x004 v s).pwr.pstate = .chalk ∧ (sableWrite 0x004 v s).boot.step = 16 ∧
          (sableWrite 0x004 v s).pwr.entering = none ∧ mayRest (sableWrite 0x004 v s) (restOf (bitsOf v 1 0)) = true then
        leaveChalk (sableWrite 0x004 v s) (restOf (bitsOf v 1 0))
      else { sableWrite 0x004 v s with pwr := { (sableWrite 0x004 v s).pwr with refused := true } } := by
  unfold doPwrCtrlGo
  cases hbits : bitsOf v 1 0 with
  | zero => exact absurd hbits h
  | succ n => rfl

/-- Settles O39. -/
theorem powerAndTouchCommands : Obligations.PowerAndTouchCommands := by
  unfold Obligations.PowerAndTouchCommands
  refine ⟨?_, ?_, ?_, ?_, ?_, ?_, ?_, ?_, ?_, ?_, ?_, ?_, ?_, ?_, ?_, ?_, ?_, ?_, ?_, ?_, ?_, ?_, ?_⟩
  · rintro cw r t s rfl rfl
    refine congrArg (done s) ?_
    simp only [doTouchWindow, List.isEmpty_iff]
  · rintro n cw t s hjudged htripped rfl
    exact congrArg (done s) (if_pos (by rw [hjudged, htripped]; rfl))
  · rintro o t s hjet rfl
    exact congrArg (done s) (if_pos hjet)
  · rintro vbat s hchalk
    exact congrArg (done s) (if_pos hchalk)
  · rintro vbat s hchalk
    exact done_next_of (if_neg hchalk) rfl rfl rfl rfl
  · rintro vbat s hchalk
    exact congrArg (done s) (if_pos hchalk)
  · rintro vbat o s hstep
    exact done_next_of (if_neg hstep) rfl rfl rfl rfl
  · rintro vbat o s hstep
    exact congrArg (done s) (if_pos hstep)
  · rintro vhold t s rfl
    refine congrArg (done s) ?_
    unfold doVbatBelowAsh
    cases s.pwr.pstate <;> rfl
  · rintro commits t s hash rfl
    exact congrArg (done s) (if_pos hash)
  · rintro s
    exact congrArg (done s) rfl
  · rintro t s rfl
    refine congrArg (done s) ?_
    simp only [doVlfUndervolt, if_true]
  · rintro s
    refine done_next_of ?_ rfl rfl rfl rfl
    simp only [doVlfUndervolt, Bool.false_eq_true, if_false]
  · rintro v t s rfl hnone
    refine congrArg (done s) ?_
    simp only [doPwrCtrlGo, hnone]
  · rintro v t s rfl hnamed
    exact congrArg (done s) (doPwrCtrlGo_of_named hnamed)
  · rintro t s hchalk hstep hwoken hidle hrest hentering rfl
    refine congrArg (done s) (if_pos ?_)
    rw [hchalk, hstep, hwoken, hidle, bne_iff_ne.2 hrest, hentering]
    rfl
  · rintro level ticks tones start v u t s hamber rfl rfl rfl hhit rfl
    exact congrArg (done s) ((if_pos hamber).trans (if_pos hhit))
  · rintro level ticks tones start v u s hamber rfl rfl rfl hmiss
    exact congrArg (done s) ((if_pos hamber).trans (if_neg (ne_true_of_eq_false hmiss)))
  · rintro n u t s hsearch rfl rfl
    refine congrArg (done s) ?_
    simp only [doSniffSearchEnd, hsearch, Bool.and_eq_true, decide_eq_true_eq, beq_iff_eq, and_assoc]
  · rintro o t s rfl hjet hrun
    refine congrArg (done s) ?_
    simp only [doHostWakeCrossing, hjet, hrun, Bool.false_eq_true, if_false]
  · rintro o s hjet hbelow
    refine done_next_of ?_ rfl rfl rfl rfl
    simp only [doHostWakeCrossing, hjet, hbelow, if_true]
  · rintro o t s rfl hrests
    refine congrArg (done s) ?_
    obtain hrests | hrests := hrests <;> simp only [doHostWakeCrossing, hrests]
  · rintro o s hawake
    refine done_next_of ?_ rfl rfl rfl rfl
    obtain hawake | hawake := hawake <;> simp only [doHostWakeCrossing, hawake]

end Sys2Proof.Machine
end

section
/-! SUPPORT. Start-up's events (section 17). -/

namespace Sys2Proof.Machine

open Sys2Proof

section
variable {s : State} {o : StartOutcome}

theorem rerun_not_barred (hchalk : s.pwr.pstate = .chalk) (hstep : s.boot.step = 16) :
    ¬ (s.pwr.pstate ≠ .chalk ∨ s.boot.step ≠ 16) :=
  not_or.2 ⟨not_not_intro hchalk, not_not_intro hstep⟩

theorem rerun_eleven (hskip : s.boot.skip11 = true) (hmay : sweepMay s = true) (hidle : seqRuns s .vert = false) :
    (s.boot.skip11 && sweepMay s && !seqRuns s .vert) = true := by
  rw [hskip, hmay, hidle]; rfl

theorem not_rerun_eleven (hskip : s.boot.skip11 = false) : ¬ (s.boot.skip11 && sweepMay s && !seqRuns s .vert) = true := by
  rw [hskip]
  exact Bool.false_ne_true

theorem rerun_twelve (hskip : s.boot.skip12 = true) (hxo : s.clk.fallback = false) (hidle : seqRuns s .azure = false) :
    (s.boot.skip12 && !s.clk.fallback && !seqRuns s .azure) = true := by
  rw [hskip, hxo, hidle]; rfl

/-- The UWB test passes: no failure, and a chain in. -/
theorem uwb_passes (hfails : o.uwbFails = 0) (hin : chainIn o.chainA = true ∨ chainIn o.chainB = true) :
    ¬ (decide (o.uwbFails ≠ 0) || (!chainIn o.chainA && !chainIn o.chainB)) = true := by
  rw [decide_eq_false (not_not_intro hfails), ← Bool.not_or, Bool.or_eq_true_iff.2 hin]
  exact Bool.false_ne_true

end

/-- Settles O40. -/
theorem startUpEvents : Obligations.StartUpEvents := by
  unfold Obligations.StartUpEvents
  refine ⟨?_, ?_, ?_, ?_, ?_, ?_, ?_, ?_, ?_, ?_⟩
  · rintro o s hoff
    exact congrArg (done s) (if_pos hoff)
  · rintro o s hon hstep hsteward
    refine congrArg (done s) ((if_neg hon).trans (if_pos ⟨hstep, ?_⟩))
    rintro ⟨hnine, hruns⟩
    obtain hnotNine | hnone := hsteward
    · exact hnotNine hnine
    · exact hruns hnone
  · rintro o t s hchalk hstep hruns hlocked rfl
    exact congrArg (done s) (if_pos ⟨hchalk, hstep, hruns, hlocked⟩)
  · rintro t s hchalk hstep hlocked rfl
    exact congrArg (done s) (if_pos ⟨hchalk, hstep, hlocked⟩)
  · rintro t s hchalk hfrom hto hruns hlocked rfl
    exact congrArg (done s) (if_pos ⟨hchalk, hfrom, hto, hruns, hlocked⟩)
  · rintro o t s hchalk hstep hskip hmay hidle hfails rfl
    exact congrArg (done s) ((if_neg (rerun_not_barred hchalk hstep)).trans
      ((if_pos (rerun_eleven hskip hmay hidle)).trans (if_neg (not_not_intro hfails))))
  · rintro o s hchalk hstep hskip hmay hidle hfails
    exact congrArg (done s) ((if_neg (rerun_not_barred hchalk hstep)).trans
      ((if_pos (rerun_eleven hskip hmay hidle)).trans (if_pos hfails)))
  · rintro o s hchalk hstep hskip11 hskip12 hxo hidle hfails
    exact congrArg (done s) ((if_neg (rerun_not_barred hchalk hstep)).trans ((if_neg (not_rerun_eleven hskip11)).trans
      ((if_pos (rerun_twelve hskip12 hxo hidle)).trans (if_pos (Bool.or_eq_true_iff.2 (.inl (decide_eq_true hfails)))))))
  · rintro o t s hchalk hstep hskip11 hskip12 hxo hidle hfails hin rfl
    exact congrArg (done s) ((if_neg (rerun_not_barred hchalk hstep)).trans ((if_neg (not_rerun_eleven hskip11)).trans
      ((if_pos (rerun_twelve hskip12 hxo hidle)).trans (if_neg (uwb_passes hfails hin)))))
  · rintro s hnot
    exact done_next_of (if_pos hnot) rfl rfl rfl rfl

end Sys2Proof.Machine
end

section
/-! SUPPORT. Background work (section 18): finished jobs, scrubbing, calibration, telemetry and the steward's restarts. -/

namespace Sys2Proof.Machine

open Sys2Proof

section
variable {s : State} {tag : Fin 48} {mismatch : Bool} {j : Job}

/-- A job that ends goes on in the pipeline that submitted it. -/
theorem doGqJobComplete_of_ended {st : Status} (hjob : jobAt s tag = some j) (hend : (endJob s tag mismatch).2 = some st) :
    doGqJobComplete tag mismatch s =
      passEnd (pipelineJob (endJob s tag mismatch).1 tag j (memRead s.gq.inBuf (256 * tag.val)).toNat st) := by
  obtain ⟨u, hu⟩ : ∃ u, endJob s tag mismatch = (u, some st) := ⟨_, Prod.ext rfl hend⟩
  simp only [doGqJobComplete, hjob, hu]

/-- A running job whose window input is not complete takes its next segment. -/
theorem endJob_of_segWaits (hjob : jobAt s tag = some j) (hphase : j.phase = .running) (horphaned : j.orphaned = false)
    (hseg : segWaits j = true) : endJob s tag mismatch = (setJob s tag (some (takeSeg s j)), none) := by
  have hrunning : ¬ j.phase ≠ .running := not_not_intro hphase
  simp only [endJob, hjob, if_neg hrunning, horphaned, Bool.false_eq_true, if_false, hseg, if_true]

end

/-- The scrub, the fold and the other activities run in Chalk outside Ash. -/
theorem chalk_outside_ash {s : State} (hchalk : s.pwr.pstate = .chalk) (hash : s.orr.ash = false) :
    (decide (s.pwr.pstate = .chalk) && !s.orr.ash) = true := by
  rw [decide_eq_true hchalk, hash]; rfl

/-- The next configured pair is classified: both its ports, and the turn goes to the pair after it. -/
theorem doUwbPortClassifyRun_of_pair {a b : PortCheck} {q : Nat × Nat × Nat} {s t : State} (hchalk : s.pwr.pstate = .chalk)
    (ht : t = elapseChalk s (s.bg.times.classify + 600 * ticksPerSec))
    (hpair : (uwbPairs t)[t.bg.pairAt % (uwbPairs t).length]? = some q) (hmay : uwbTestMay t = true)
    (hposting : postingWithin t 1 12801 = false) {u : State}
    (hu : u = classifyRun (classifyRun (countLoops (countLate t (s.bg.times.classify + 600 * ticksPerSec) (600 * ticksPerSec)) 1)
      q.2.1 a) q.2.2 b) :
    doUwbPortClassifyRun a b s = { u with bg := { u.bg with
      pairAt := (u.bg.pairAt + 1) % (uwbPairs t).length, times := { u.bg.times with classify := chalkNow u } } } := by
  have hruns : ¬ (!uwbTestMay t || postingWithin t 1 12801) = true := by
    rw [hmay, hposting]
    exact Bool.false_ne_true
  simp only [doUwbPortClassifyRun, ← ht, hpair, hu]
  exact (if_pos hchalk).trans (if_neg hruns)

/-- Settles O41. -/
theorem backgroundWork : Obligations.BackgroundWork := by
  unfold Obligations.BackgroundWork
  refine ⟨?_, ?_, ?_, ?_, ?_, ?_, ?_, ?_, ?_⟩
  · rintro tag mismatch j st s hjob hend
    exact congrArg (done s) (doGqJobComplete_of_ended hjob hend)
  · rintro tag mismatch j s hjob hphase horphaned hseg
    refine congrArg (done s) ?_
    simp only [doGqJobComplete, hjob, endJob_of_segWaits hjob hphase horphaned hseg]
  · rintro m group find s hchalk hash
    exact congrArg (done s) (if_pos (chalk_outside_ash hchalk hash))
  · rintro a b temp due t u s hchalk rfl rfl hmay hposting rfl
    refine congrArg (done s) ?_
    unfold doUwbDelayTracking ticksPerSec
    exact (if_pos hchalk).trans ((if_neg (guard_passed hmay)).trans (if_neg (ne_true_of_eq_false hposting)))
  · rintro a b due q t u s hchalk rfl ht hpair hmay hposting hu
    exact congrArg (done s) (doUwbPortClassifyRun_of_pair hchalk ht hpair hmay hposting hu)
  · rintro coeff t n r u s hchalk hcrystal hxo hfallback rfl rfl rfl rfl
    refine congrArg (done s) ?_
    unfold doRtcDriftWindow ticksPerSec
    exact if_pos (by rw [decide_eq_true hchalk, hcrystal, hxo, hfallback]; rfl)
  · rintro due s hchalk hash rfl
    refine congrArg (done s) ?_
    unfold doTelemetryFold tFold ticksPerSec
    exact if_pos (chalk_outside_ash hchalk hash)
  · rintro s hchalk
    refine congrArg (done s) ?_
    unfold doStewardWatchdog ticksPerMs
    exact if_pos hchalk
  · rintro s
    exact congrArg (done s) rfl

end Sys2Proof.Machine
end
